-- ==== Sys2Proof/Word.lean ====
section
/-!
DEFINITION. The word types of the Yunatik Y1 (R96, R204) and their plainest arithmetic.
-/

namespace Sys2Proof

/-- A byte of memory. -/
abbrev Byte := BitVec 8

/-- A 16-bit parcel of the instruction store (R199). -/
abbrev Parcel := BitVec 16

/-- A scalar or control register (R204). -/
abbrev Word := BitVec 32

/-- A 64-bit value held in an even register pair, low word first (R223). -/
abbrev DWord := BitVec 64

/-- A vector register (R204). -/
abbrev VWord := BitVec 128

/-- A register field of an instruction (R201). -/
abbrev Reg := BitVec 5

/-- A parcel address, 0 to 0x1FFF (R199). -/
abbrev Pc := BitVec 13

/-- The signed value of an integer, wrapped to 32 bits (`wrap32` of R4). -/
def wrap32 (x : Int) : Word := BitVec.ofInt 32 x

/-- `clamp` of R224: `x` held between `lo` and `hi`. -/
def clampInt (x lo hi : Int) : Int := if x < lo then lo else if hi < x then hi else x

end Sys2Proof
end

