-- ==== Sys2Proof/Syntax.lean ====
section
/-!
DEFINITION. The instructions of the Yunatik Y1: one constructor for every row of the table of operations and events
(opcode_table.json). The rows with an encoding are the Izair instructions (R199 to R212); their arguments are the fields of the
encoding. The rows without one are the steps of the machine's other agents; what such a step is given (a packet, a port, a word of
the host) stands in State.inp, where the schedule puts it (log entry 4).
-/

namespace Sys2Proof

/-- One step of the machine: an instruction of the core, or a step of another agent. -/
inductive Instr where
  /-- Wrapping 32-bit add (R224) -/
  | add (d : BitVec 5) (a : BitVec 5) (b : BitVec 5)
  /-- Wrapping 32-bit subtract (R224) -/
  | sub (d : BitVec 5) (a : BitVec 5) (b : BitVec 5)
  /-- Signed saturating add (R224) -/
  | adds (d : BitVec 5) (a : BitVec 5) (b : BitVec 5)
  /-- Signed saturating subtract (R224) -/
  | subs (d : BitVec 5) (a : BitVec 5) (b : BitVec 5)
  /-- Bitwise AND (R224) -/
  | and (d : BitVec 5) (a : BitVec 5) (b : BitVec 5)
  /-- Bitwise OR (R224) -/
  | or (d : BitVec 5) (a : BitVec 5) (b : BitVec 5)
  /-- Bitwise XOR (R224) -/
  | xor (d : BitVec 5) (a : BitVec 5) (b : BitVec 5)
  /-- x AND NOT y (R224) -/
  | andn (d : BitVec 5) (a : BitVec 5) (b : BitVec 5)
  /-- x OR NOT y (R224) -/
  | orn (d : BitVec 5) (a : BitVec 5) (b : BitVec 5)
  /-- Signed set-less-than (R224) -/
  | slt (d : BitVec 5) (a : BitVec 5) (b : BitVec 5)
  /-- Unsigned set-less-than (R224) -/
  | sltu (d : BitVec 5) (a : BitVec 5) (b : BitVec 5)
  /-- Signed minimum (R224) -/
  | min (d : BitVec 5) (a : BitVec 5) (b : BitVec 5)
  /-- Signed maximum (R224) -/
  | max (d : BitVec 5) (a : BitVec 5) (b : BitVec 5)
  /-- Unsigned minimum (R224) -/
  | minu (d : BitVec 5) (a : BitVec 5) (b : BitVec 5)
  /-- Unsigned maximum (R224) -/
  | maxu (d : BitVec 5) (a : BitVec 5) (b : BitVec 5)
  /-- Shift left by a whole register amount (R226) -/
  | shl (d : BitVec 5) (a : BitVec 5) (b : BitVec 5)
  /-- Logical shift right by a register amount (R226) -/
  | shr (d : BitVec 5) (a : BitVec 5) (b : BitVec 5)
  /-- Arithmetic shift right by a register amount (R226) -/
  | sra (d : BitVec 5) (a : BitVec 5) (b : BitVec 5)
  /-- Rotate left by the amount mod 32 (R226) -/
  | rot (d : BitVec 5) (a : BitVec 5) (b : BitVec 5)
  /-- Count leading zeros (R228) -/
  | clz (d : BitVec 5) (a : BitVec 5)
  /-- Count trailing zeros (R228) -/
  | ctz (d : BitVec 5) (a : BitVec 5)
  /-- Population count (R228) -/
  | popc (d : BitVec 5) (a : BitVec 5)
  /-- Bit reverse (R228) -/
  | brev (d : BitVec 5) (a : BitVec 5)
  /-- Low 32 bits of the product (R230) -/
  | mul (d : BitVec 5) (a : BitVec 5) (b : BitVec 5)
  /-- High 32 bits of the signed product (R230) -/
  | mulh (d : BitVec 5) (a : BitVec 5) (b : BitVec 5)
  /-- High 32 bits of the unsigned product (R230) -/
  | mulhu (d : BitVec 5) (a : BitVec 5) (b : BitVec 5)
  /-- Signed divide truncating toward zero, over 34 clk (R231) -/
  | div (d : BitVec 5) (a : BitVec 5) (b : BitVec 5)
  /-- Unsigned divide (R231) -/
  | divu (d : BitVec 5) (a : BitVec 5) (b : BitVec 5)
  /-- Signed remainder (R231) -/
  | rem (d : BitVec 5) (a : BitVec 5) (b : BitVec 5)
  /-- Unsigned remainder (R231) -/
  | remu (d : BitVec 5) (a : BitVec 5) (b : BitVec 5)
  /-- Funnel shift left of the pair a:b (R229) -/
  | fshl (d : BitVec 5) (a : BitVec 5) (b : BitVec 5) (c : BitVec 5)
  /-- Funnel shift right of the pair a:b (R229) -/
  | fshr (d : BitVec 5) (a : BitVec 5) (b : BitVec 5) (c : BitVec 5)
  /-- Advance a CRC-32C state over four bytes (R234) -/
  | crcw (d : BitVec 5) (a : BitVec 5) (b : BitVec 5)
  /-- Add a sign-extended immediate (R225) -/
  | addi (d : BitVec 5) (a : BitVec 5) (i : BitVec 14)
  /-- AND with a sign-extended immediate (R225) -/
  | andi (d : BitVec 5) (a : BitVec 5) (i : BitVec 14)
  /-- OR with a sign-extended immediate (R225) -/
  | ori (d : BitVec 5) (a : BitVec 5) (i : BitVec 14)
  /-- XOR with a sign-extended immediate (R225) -/
  | xori (d : BitVec 5) (a : BitVec 5) (i : BitVec 14)
  /-- Signed compare with an immediate (R225) -/
  | slti (d : BitVec 5) (a : BitVec 5) (i : BitVec 14)
  /-- Unsigned compare with a sign-extended immediate (R225) -/
  | sltiu (d : BitVec 5) (a : BitVec 5) (i : BitVec 14)
  /-- Shift left by an immediate (R227) -/
  | shli (d : BitVec 5) (a : BitVec 5) (n : BitVec 5)
  /-- Logical shift right by an immediate (R227) -/
  | shri (d : BitVec 5) (a : BitVec 5) (n : BitVec 5)
  /-- Arithmetic shift right by an immediate (R227) -/
  | srai (d : BitVec 5) (a : BitVec 5) (n : BitVec 5)
  /-- Rotate left by an immediate (R227) -/
  | roti (d : BitVec 5) (a : BitVec 5) (n : BitVec 5)
  /-- Load a sign-extended 19-bit immediate (R235) -/
  | li (d : BitVec 5) (i : BitVec 19)
  /-- Load an unsigned immediate into bits 31:13 (R235) -/
  | lui (d : BitVec 5) (i : BitVec 19)
  /-- Extract a bit field, zero-extended (R232) -/
  | bfx (d : BitVec 5) (a : BitVec 5) (w : BitVec 5) (p : BitVec 5)
  /-- Insert a bit field into d (R232) -/
  | bfi (d : BitVec 5) (a : BitVec 5) (w : BitVec 5) (p : BitVec 5)
  /-- Bitwise three-input lookup table, with d as third input and destination (R233) -/
  | lut3 (d : BitVec 5) (a : BitVec 5) (b : BitVec 5) (t : BitVec 8)
  /-- Branch if equal (R236) -/
  | beq (o : BitVec 14) (t : BitVec 5) (x : BitVec 5)
  /-- Branch if not equal (R236) -/
  | bne (o : BitVec 14) (t : BitVec 5) (x : BitVec 5)
  /-- Branch if signed less (R236) -/
  | blt (o : BitVec 14) (t : BitVec 5) (x : BitVec 5)
  /-- Branch if signed greater or equal (R236) -/
  | bge (o : BitVec 14) (t : BitVec 5) (x : BitVec 5)
  /-- Branch if unsigned less (R236) -/
  | bltu (o : BitVec 14) (t : BitVec 5) (x : BitVec 5)
  /-- Branch if unsigned greater or equal (R236) -/
  | bgeu (o : BitVec 14) (t : BitVec 5) (x : BitVec 5)
  /-- Jump by a parcel offset and link (R237) -/
  | jal (d : BitVec 5) (i : BitVec 19)
  /-- Jump to register plus offset and link (R237) -/
  | jalr (d : BitVec 5) (a : BitVec 5) (i : BitVec 14)
  /-- Open a hardware loop counted by a register (R239) -/
  | loop (a : BitVec 5) (l : BitVec 14) (k : BitVec 1)
  /-- Open a hardware loop with an immediate count (R239) -/
  | loopi (c : BitVec 12) (l : BitVec 7) (k : BitVec 1)
  /-- No operation (R246) -/
  | nop
  /-- End the running task or handler, or end the urgent handler and restore the normal level (R242) -/
  | done
  /-- End the work, add one on the gang tree and become Finished (R243) -/
  | doneG
  /-- Re-push the task's record to the tail of its ring and end the task (R244) -/
  | yield
  /-- Kill point: the task is killed here if its scope is covered (R245) -/
  | cancelchk
  /-- Open a masked window of at most 256 clk (R53) -/
  | mask
  /-- Close the masked window (R53) -/
  | unmask
  /-- Wait as a release of the given scope, then let later accesses proceed (R248) -/
  | fence (x : BitVec 2)
  /-- Read a control register, with the side effects of R249 (R249) -/
  | mfc (d : BitVec 5) (n : BitVec 7)
  /-- Write a control register by its access rules (R249) -/
  | mtc (a : BitVec 5) (n : BitVec 7)
  /-- Raise the precise software trap 0x90, or a steward exception on a steward (R250) -/
  | trap (c : BitVec 14)
  /-- Wait until an event-latch bit in the mask is set, then clear those bits (R247) -/
  | sleep (m : BitVec 14)
  /-- Load a sign-extended byte (R265) -/
  | ldb (d : BitVec 5) (a : BitVec 5) (i : BitVec 14)
  /-- Load a zero-extended byte (R265) -/
  | ldbu (d : BitVec 5) (a : BitVec 5) (i : BitVec 14)
  /-- Load a sign-extended halfword (R265) -/
  | ldh (d : BitVec 5) (a : BitVec 5) (i : BitVec 14)
  /-- Load a zero-extended halfword (R265) -/
  | ldhu (d : BitVec 5) (a : BitVec 5) (i : BitVec 14)
  /-- Load a word (R265) -/
  | ldw (d : BitVec 5) (a : BitVec 5) (i : BitVec 14)
  /-- Load a doubleword into a register pair (R265) -/
  | ldd (d : BitVec 5) (a : BitVec 5) (i : BitVec 14)
  /-- Store a byte (R265) -/
  | stb (d : BitVec 5) (a : BitVec 5) (i : BitVec 14)
  /-- Store a halfword (R265) -/
  | sth (d : BitVec 5) (a : BitVec 5) (i : BitVec 14)
  /-- Store a word (R265) -/
  | stw (d : BitVec 5) (a : BitVec 5) (i : BitVec 14)
  /-- Store a register pair as a doubleword (R265) -/
  | std (d : BitVec 5) (a : BitVec 5) (i : BitVec 14)
  /-- Load 16 bytes into a v register (R266) -/
  | vld (d : BitVec 5) (a : BitVec 5) (i : BitVec 14)
  /-- Store a v register as 16 bytes (R266) -/
  | vst (d : BitVec 5) (a : BitVec 5) (i : BitVec 14)
  /-- Load and transpose a 4 × 4 word matrix into four v registers (R266) -/
  | vldt (d : BitVec 5) (a : BitVec 5) (i : BitVec 14)
  /-- Load a bit field of 1–32 bits from a bit address (R267) -/
  | ldbit (d : BitVec 5) (a : BitVec 5) (w : BitVec 5)
  /-- Store a bit field at a bit address (R267) -/
  | stbit (d : BitVec 5) (a : BitVec 5) (w : BitVec 5)
  /-- Load a word from a parameter window (R268) -/
  | ldp (d : BitVec 5) (a : BitVec 5) (b : BitVec 5) (w : BitVec 3)
  /-- 32-bit local atomic, selected by op, at the bank atomic unit (R269) -/
  | atom (d : BitVec 5) (a : BitVec 5) (b : BitVec 5) (o : BitVec 4)
  /-- 64-bit local atomic on register pairs (R269) -/
  | atomD (d : BitVec 5) (a : BitVec 5) (b : BitVec 5) (o : BitVec 4)
  /-- Map and zero a local page, evicting victims if needed (R77) -/
  | alloc (a : BitVec 5) (k : BitVec 5)
  /-- Free the page covering an address, waiting while it is busy (R80) -/
  | free (a : BitVec 5)
  /-- Pin the page covering an address, bringing it in first (R80) -/
  | pin (a : BitVec 5)
  /-- Floating-point vector add (R272) -/
  | vaddF (d : BitVec 5) (a : BitVec 5) (b : BitVec 5) (f : BitVec 2) (r : BitVec 2)
  /-- Floating-point vector subtract (R272) -/
  | vsubF (d : BitVec 5) (a : BitVec 5) (b : BitVec 5) (f : BitVec 2) (r : BitVec 2)
  /-- Floating-point vector multiply (R272) -/
  | vmulF (d : BitVec 5) (a : BitVec 5) (b : BitVec 5) (f : BitVec 2) (r : BitVec 2)
  /-- Fused multiply-add with one rounding (R272) -/
  | vfma (d : BitVec 5) (a : BitVec 5) (b : BitVec 5) (c : BitVec 5) (f : BitVec 2) (r : BitVec 2)
  /-- Lane-wise floating-point minimum (R273) -/
  | vmin (d : BitVec 5) (a : BitVec 5) (b : BitVec 5) (f : BitVec 2)
  /-- Lane-wise floating-point maximum (R273) -/
  | vmax (d : BitVec 5) (a : BitVec 5) (b : BitVec 5) (f : BitVec 2)
  /-- Clear each lane's sign (R273) -/
  | vabs (d : BitVec 5) (a : BitVec 5) (f : BitVec 2)
  /-- Invert each lane's sign (R273) -/
  | vneg (d : BitVec 5) (a : BitVec 5) (f : BitVec 2)
  /-- Packed integer add (R274) -/
  | vaddI (d : BitVec 5) (a : BitVec 5) (b : BitVec 5) (w : BitVec 2)
  /-- Packed integer subtract (R274) -/
  | vsubI (d : BitVec 5) (a : BitVec 5) (b : BitVec 5) (w : BitVec 2)
  /-- Packed signed saturating add (R274) -/
  | vadds (d : BitVec 5) (a : BitVec 5) (b : BitVec 5) (w : BitVec 2)
  /-- Packed signed saturating subtract (R274) -/
  | vsubs (d : BitVec 5) (a : BitVec 5) (b : BitVec 5) (w : BitVec 2)
  /-- Packed integer multiply, low half (R274) -/
  | vmulI (d : BitVec 5) (a : BitVec 5) (b : BitVec 5) (w : BitVec 2)
  /-- Packed signed multiply, high half (R274) -/
  | vmulh (d : BitVec 5) (a : BitVec 5) (b : BitVec 5) (w : BitVec 2)
  /-- Packed unsigned multiply, high half (R274) -/
  | vmulhu (d : BitVec 5) (a : BitVec 5) (b : BitVec 5) (w : BitVec 2)
  /-- Packed shift left (R274) -/
  | vshl (d : BitVec 5) (a : BitVec 5) (b : BitVec 5) (w : BitVec 2)
  /-- Packed logical shift right (R274) -/
  | vshr (d : BitVec 5) (a : BitVec 5) (b : BitVec 5) (w : BitVec 2)
  /-- Packed arithmetic shift right (R274) -/
  | vsra (d : BitVec 5) (a : BitVec 5) (b : BitVec 5) (w : BitVec 2)
  /-- Packed rotate left (R274) -/
  | vrot (d : BitVec 5) (a : BitVec 5) (b : BitVec 5) (w : BitVec 2)
  /-- Lane-wise compare into a mask register (R275) -/
  | vcmp (d : BitVec 5) (a : BitVec 5) (b : BitVec 5) (t : BitVec 2) (p : BitVec 2)
  /-- Select lanes from a or b by a mask register (R276) -/
  | vsel (d : BitVec 5) (a : BitVec 5) (b : BitVec 5) (c : BitVec 5) (w : BitVec 2)
  /-- Permute lanes from a two-register table by indices (R277) -/
  | vshuf (d : BitVec 5) (a : BitVec 5) (b : BitVec 5) (c : BitVec 5) (w : BitVec 2)
  /-- Reduce four 32-bit lanes in a fixed order (R278) -/
  | vred (d : BitVec 5) (a : BitVec 5) (k : BitVec 2) (r : BitVec 2)
  /-- Largest magnitude of the lanes of a and lane 0 of b (R279) -/
  | vamax (d : BitVec 5) (a : BitVec 5) (b : BitVec 5) (f : BitVec 2)
  /-- Pop receive-queue elements and accumulate them into v_d, stopping at element boundaries (R280) -/
  | rqacc (d : BitVec 5) (a : BitVec 5) (k : BitVec 2) (r : BitVec 2)
  /-- 128-bit three-input lookup table (R281) -/
  | vlut3 (d : BitVec 5) (a : BitVec 5) (b : BitVec 5) (t : BitVec 8)
  /-- Copy a v register (R282) -/
  | vmov (d : BitVec 5) (a : BitVec 5)
  /-- Broadcast a scalar to every 32-bit lane (R282) -/
  | vbcast (d : BitVec 5) (a : BitVec 5)
  /-- Extract a 32-bit lane to a scalar (R282) -/
  | vext (d : BitVec 5) (a : BitVec 5) (b : BitVec 5)
  /-- Insert a scalar into a 32-bit lane (R282) -/
  | vins (d : BitVec 5) (a : BitVec 5) (b : BitVec 5)
  /-- Set a mask register from a scalar (R282) -/
  | kset (d : BitVec 5) (a : BitVec 5)
  /-- Read a mask register into a scalar (R282) -/
  | kget (d : BitVec 5) (a : BitVec 5)
  /-- Queue a change of the tensor block format (R292) -/
  | tcfg (f : BitVec 2)
  /-- Queue a promotion of an accumulator and a new promotion interval (R293) -/
  | tarm (d : BitVec 5) (a : BitVec 5)
  /-- Queue the clearing of an accumulator (R294) -/
  | tzero (d : BitVec 5)
  /-- Check a drain descriptor and queue a drain of an accumulator (R296) -/
  | tdrain (d : BitVec 5) (a : BitVec 5) (n : BitVec 2)
  /-- Queue k-steps into an accumulator (R295) -/
  | tfeed (d : BitVec 5) (a : BitVec 5)
  /-- Put v12–v15 in stream mode on a checked pattern (R298) -/
  | strmCfg (d : BitVec 5) (a : BitVec 5)
  /-- Queue a local or fabric binding of TA or TB (R298) -/
  | strmBind (d : BitVec 5) (a : BitVec 5) (b : BitVec 5) (f : BitVec 1)
  /-- Stop a stream pattern or an operand binding (R300) -/
  | strmStop (d : BitVec 5)
  /-- Wait for every pattern, binding, k-step and drain to finish, then acquire (R120) -/
  | strmSync
  /-- Copy from another residency's view into the local view (R302) -/
  | get (d : BitVec 5) (a : BitVec 5) (b : BitVec 5)
  /-- Copy from far memory into the local view (R302) -/
  | getFar (d : BitVec 5) (a : BitVec 5) (b : BitVec 5)
  /-- Copy within the local view (R302) -/
  | getLoc (d : BitVec 5) (a : BitVec 5) (b : BitVec 5)
  /-- Copy from the local view into another residency's view (R302) -/
  | put (d : BitVec 5) (a : BitVec 5) (b : BitVec 5) (x : BitVec 2) (r : BitVec 1)
  /-- Copy from the local view to far memory (R302) -/
  | putFar (d : BitVec 5) (a : BitVec 5) (b : BitVec 5) (x : BitVec 2) (r : BitVec 1)
  /-- Configure or turn off a watermark channel (R303) -/
  | wmcfg (d : BitVec 5) (a : BitVec 5) (b : BitVec 5)
  /-- Wait for every earlier copy and replay to complete (R120) -/
  | sfence
  /-- Wait for every earlier far chunk to be performed (R126) -/
  | fenceFar
  /-- Send a message of a class to a named residency (R305) -/
  | send (d : BitVec 5) (a : BitVec 5) (b : BitVec 5) (c : BitVec 4) (x : BitVec 2) (r : BitVec 1)
  /-- Send one copy of a message to each residency of a rectangle (R305) -/
  | sendm (d : BitVec 5) (a : BitVec 5) (b : BitVec 5) (c : BitVec 4) (x : BitVec 2) (r : BitVec 1)
  /-- Remote store of 4 bytes (R307) -/
  | rst (d : BitVec 5) (a : BitVec 5) (b : BitVec 5) (x : BitVec 2) (r : BitVec 1)
  /-- Remote store of 8 bytes (R307) -/
  | rstDw (d : BitVec 5) (a : BitVec 5) (b : BitVec 5) (x : BitVec 2) (r : BitVec 1)
  /-- Remote store of 16 bytes from a v register (R307) -/
  | rstV (d : BitVec 5) (a : BitVec 5) (b : BitVec 5) (x : BitVec 2) (r : BitVec 1)
  /-- 32-bit remote atomic with a reply register (R308) -/
  | ratom (d : BitVec 5) (a : BitVec 5) (b : BitVec 5) (x : BitVec 2) (r : BitVec 1) (o : BitVec 4)
  /-- 64-bit remote atomic (R308) -/
  | ratomD (d : BitVec 5) (a : BitVec 5) (b : BitVec 5) (x : BitVec 2) (r : BitVec 1) (o : BitVec 4)
  /-- Pop 16 bytes from the receive cursor into a v register (R306) -/
  | recv (d : BitVec 5)
  /-- Pop and store elements to memory, stopping at element boundaries (R306) -/
  | recvM (a : BitVec 5) (b : BitVec 5)
  /-- Move the cursor to the oldest queued message of a class and take it (R306) -/
  | recvSel (d : BitVec 5) (a : BitVec 5)
  /-- Write a task record and push it if its count is 0 (R309) -/
  | tnew (d : BitVec 5) (a : BitVec 5) (b : BitVec 5)
  /-- Decrement a remote task record's count (R310) -/
  | tdec (d : BitVec 5) (a : BitVec 5) (b : BitVec 5)
  /-- Write a ready task record at a remote residency (R311) -/
  | spawn (d : BitVec 5) (a : BitVec 5) (b : BitVec 5)
  /-- Write parcels into a named residency's instruction store (R312) -/
  | istore (d : BitVec 5) (a : BitVec 5) (b : BitVec 5)
  /-- Write parcels into every residency of a rectangle (R312) -/
  | istoreM (d : BitVec 5) (a : BitVec 5) (b : BitVec 5)
  /-- Arm a slot on a counter with a threshold and an action descriptor (R313) -/
  | trigArm (d : BitVec 5) (a : BitVec 5) (b : BitVec 5) (n : BitVec 4)
  /-- Free a slot without firing it (R313) -/
  | trigClr (d : BitVec 5)
  /-- Write a counter's count and selector, then evaluate its slots (R314) -/
  | cntset (d : BitVec 5) (a : BitVec 5) (b : BitVec 5)
  /-- Write only a counter's count (R314) -/
  | cntsetV (d : BitVec 5) (a : BitVec 5)
  /-- Read a counter's selector (R314) -/
  | cntrd (d : BitVec 5) (a : BitVec 5)
  /-- Create a count-barrier membership entry (R315) -/
  | barJoin (d : BitVec 5) (a : BitVec 5) (b : BitVec 5)
  /-- Remove a membership entry as by withdrawal (R315) -/
  | barJoinX (a : BitVec 5)
  /-- Join a barrier line and drive it low (R315) -/
  | barLine (d : BitVec 5) (a : BitVec 5)
  /-- Release-wait, then arrive at a count barrier or stop driving a line low (R315) -/
  | barArrive (a : BitVec 5)
  /-- Wait for the release that ends the entry's arrival, sending a boost notice (R315) -/
  | barWait (a : BitVec 5)
  /-- Open a child scope and enter it (R316) -/
  | scopeOpen (d : BitVec 5)
  /-- Close the current scope, waiting for retire acknowledgements (R316) -/
  | scopeClose
  /-- Broadcast a cancel notice for a scope, with a token for the total (R34) -/
  | cancel (d : BitVec 5) (a : BitVec 5)
  /-- Write a combining entry of the tile's router (R317) -/
  | combCfg (a : BitVec 5) (b : BitVec 5)
  /-- Set a root's index count and record address and seed its generator (R317) -/
  | combCfgRoot (d : BitVec 5) (a : BitVec 5) (b : BitVec 5)
  /-- Check a folio and load it into the stream engine (R319) -/
  | folioLoad (a : BitVec 5)
  /-- Start a folio replay with four bases (R319) -/
  | folioRun (d : BitVec 5) (a : BitVec 5)
  /-- Convert lanes between formats, rounding to nearest even, or stochastically (R283) -/
  | cvtRne (d : BitVec 5) (a : BitVec 5) (b : BitVec 5) (x : BitVec 1) (f : BitVec 4) (t : BitVec 4)
  /-- Convert lanes, rounding toward zero (R283) -/
  | cvtRtz (d : BitVec 5) (a : BitVec 5) (b : BitVec 5) (f : BitVec 4) (t : BitVec 4)
  /-- Convert lanes, rounding down (R283) -/
  | cvtRdn (d : BitVec 5) (a : BitVec 5) (b : BitVec 5) (f : BitVec 4) (t : BitVec 4)
  /-- Convert lanes, rounding up (R283) -/
  | cvtRup (d : BitVec 5) (a : BitVec 5) (b : BitVec 5) (f : BitVec 4) (t : BitVec 4)
  /-- Compute an FP8 scale exponent from an amax (R284) -/
  | cvts (d : BitVec 5) (a : BitVec 5) (b : BitVec 5) (f : BitVec 1)
  /-- Encode 32 values into one block and its sidecar (R285) -/
  | bkpack (d : BitVec 5) (a : BitVec 5) (b : BitVec 5) (x : BitVec 1) (r : BitVec 2) (k : BitVec 2) (e : BitVec 2)
  /-- Decode one block into 32 elements (R286) -/
  | bkunpack (d : BitVec 5) (a : BitVec 5) (b : BitVec 5) (x : BitVec 1) (r : BitVec 2) (k : BitVec 2) (e : BitVec 2)
  /-- Steward moves a residency to another tile of its nonet (R253) -/
  | migr (d : BitVec 5) (a : BitVec 5) (b : BitVec 5)
  /-- Steward replaces a working nonet by a free replacement spare (R382) -/
  | migrG (d : BitVec 5) (a : BitVec 5) (b : BitVec 5)
  /-- Stage a catalogue group slot, with an optional publish (R255) -/
  | mapwrSlot (d : BitVec 5) (a : BitVec 5) (b : BitVec 5) (p : BitVec 1)
  /-- Write a router detour entry (R254) -/
  | mapwrDetour (d : BitVec 5) (a : BitVec 5) (b : BitVec 5) (p : BitVec 1)
  /-- Write a router ownership-map entry (R254) -/
  | mapwrOwnership (d : BitVec 5) (a : BitVec 5) (b : BitVec 5) (p : BitVec 1)
  /-- Stage a carrel's distance bound (R254) -/
  | mapwrDistbound (d : BitVec 5) (a : BitVec 5) (b : BitVec 5) (p : BitVec 1)
  /-- Read a group entry by the reader rule (R256) -/
  | maprd (d : BitVec 5) (a : BitVec 5)
  /-- Invalidate a carrel-virtual range at every edge agent (R257) -/
  | shoot (d : BitVec 5) (a : BitVec 5) (b : BitVec 5)
  /-- Write one almanac table entry (R258) -/
  | almset (d : BitVec 5) (a : BitVec 5) (b : BitVec 5)
  /-- Archive or restore a carrel or the whole wafer (R259) -/
  | archive (d : BitVec 5) (a : BitVec 5) (b : BitVec 5)
  /-- Hold an unoccupied tile in reset, and optionally stop its router (R260) -/
  | tileoff (d : BitVec 5) (a : BitVec 5)
  /-- Return from a steward exception and release held exceptions (R252) -/
  | eret
  /-- Read, and optionally clear, a tile's error counters (R261) -/
  | eccrd (d : BitVec 5) (a : BitVec 5)
  /-- Compact register move (R200) -/
  | mov (a : BitVec 5) (b : BitVec 5)
  /-- Compact ADD with d = a (R200) -/
  | addCompact (a : BitVec 5) (b : BitVec 5)
  /-- Compact SUB with d = a (R200) -/
  | subCompact (a : BitVec 5) (b : BitVec 5)
  /-- Compact AND with d = a (R200) -/
  | andCompact (a : BitVec 5) (b : BitVec 5)
  /-- Compact OR with d = a (R200) -/
  | orCompact (a : BitVec 5) (b : BitVec 5)
  /-- Compact XOR with d = a (R200) -/
  | xorCompact (a : BitVec 5) (b : BitVec 5)
  /-- Compact add of a 5-bit signed immediate (R200) -/
  | addi5 (a : BitVec 5) (i : BitVec 5)
  /-- Compact shift left by an immediate (R200) -/
  | shliCompact (a : BitVec 5) (n : BitVec 5)
  /-- Compact logical shift right by an immediate (R200) -/
  | shriCompact (a : BitVec 5) (n : BitVec 5)
  /-- Compact arithmetic shift right by an immediate (R200) -/
  | sraiCompact (a : BitVec 5) (n : BitVec 5)
  /-- Compact load of a 5-bit signed immediate (R200) -/
  | li5 (a : BitVec 5) (i : BitVec 5)
  /-- Compact branch if zero (R200) -/
  | beqz (a : BitVec 5) (o : BitVec 5)
  /-- Compact branch if nonzero (R200) -/
  | bnez (a : BitVec 5) (o : BitVec 5)
  /-- Compact load of a word from s30 plus 4b (R200) -/
  | ldwCompact (a : BitVec 5) (b : BitVec 5)
  /-- Compact store of a word at s30 plus 4b (R200) -/
  | stwCompact (a : BitVec 5) (b : BitVec 5)
  /-- Compact jump to a register (R200) -/
  | jr (a : BitVec 5)
  /-- Compact DONE (R200) -/
  | doneCompact
  /-- Compact DONE.G (R200) -/
  | doneGCompact
  /-- Compact NOP (R200) -/
  | nopCompact
  /-- Compact CANCELCHK (R200) -/
  | cancelchkCompact
  /-- VAUX becomes valid: the boot controller leaves reset, the fuses are read and the package enters Aux (R192) -/
  | vauxValid
  /-- Loss of VAUX takes the package from Aux to Off (R192) -/
  | vauxLost
  /-- The host asserts PWREN in Aux and the boot controller starts the power-on sequence of R193 (R192) -/
  | pwrenAsserted
  /-- A power-on step ends and the next step begins; after step 8 the ready bit is set and the package enters Run (R193) -/
  | powerOnStepEnd
  /-- A power-on step passes its time limit, so the failed step is recorded, the other rails are dropped and the package returns
  to Aux (R193) -/
  | powerOnStepLimit
  /-- In step 7 the host writes the 64-bit start time that field (0, 0) takes (R196) -/
  | startTimeWrite
  /-- PWREN is deasserted in Run: an optional whole-wafer archive is made, then the rails are dropped in reverse order (R192) -/
  | pwrenDeasserted
  /-- RESET_N drops every rail except VAUX at once and keeps no state (R192) -/
  | resetNAsserted
  /-- A host nonce on the DOE mailbox yields a signed attestation report, or a refusal before step 5 completes (R198) -/
  | attestationRequest
  /-- A write to a register that has no row of its own, such as a launch-window base or enable, follows the access codes (R2) -/
  | managementRegisterWrite
  /-- Every 1,024 clk each tile's thermal sensor is sampled for c.temp and for rotation (R67) -/
  | sensorSample
  /-- Each frame the acting steward reads the field's sensors and lowers or raises the field PLL by 50 MHz (R190) -/
  | fieldThermalCheck
  /-- A tile at 110 °C or more makes the field hardware stop issue, gate the clocks and set the PLL to 700 MHz (R362) -/
  | thermalPause
  /-- When every tile reads 95 °C or less the clock gates open and the residencies continue (R362) -/
  | thermalResume
  /-- An almanac slot begins, setting event-latch bit 7 and starting the work of the slot's kind (R146) -/
  | almanacSlotBoundary
  /-- A new frame begins and the almanac entries written by ALMSET take effect (R147) -/
  | frameStart
  /-- In a maintenance slot each tile scrubs its next 64 words, correcting errors or reporting uncorrectable ones (R347) -/
  | scrub
  /-- Every 4,096 clk the page-map epoch advances and used entries take the new stamp (R76) -/
  | epochTick
  /-- In slots 0x000 and 0x800 a child steward exchanges timestamps with its parent and adjusts its rate, or counts a failed
  exchange (R169) -/
  | timeExchange
  /-- In slot 0x800 a steward compares its transit-lane table CRC with its parent's and copies the parent's tables on a mismatch
  (R396) -/
  | transitTableCheck
  /-- Each control slot the two stewards of a field exchange one heartbeat flit (R367) -/
  | stewardHeartbeat
  /-- Three control slots pass without a heartbeat: the partner is declared lost and held in reset, and the mirror takes over if
  needed (R367) -/
  | partnerLost
  /-- In its rotation slot a nonet compares temperatures and may migrate its hottest residency to the coolest shade (R67) -/
  | shadeRotation
  /-- At the first boundary with no urgent handler running and no window open, the residency halts and becomes Migrating (R68)
  -/
  | migrationHalt
  /-- The stream engine and tensor unit have frozen, and the state copy to the target starts (R68) -/
  | migrationFreezeDone
  /-- The state copy lands at the new tile; the forwarding entry is installed and the republish begins (R68) -/
  | migrationCopyLanded
  /-- After the publish token, c.tilephys and c.gen are updated, held notices are applied and the residency resumes (R68) -/
  | migrationResume
  /-- Loss of both copy routes, or an uncorrectable word, aborts the migration, and the residency resumes at its old tile (R381)
  -/
  | migrationAbort
  /-- Traffic that reaches a migrated residency's old tile is re-sent on the control channel to the new tile, in arrival order
  (R69) -/
  | forwardedArrival
  /-- An end marker reaches a router or tile and is merged into the drain wave, or ends a VC change (R70) -/
  | endMarker
  /-- After the publish and the full drain wave, the forwarding entry retires and sends the final marker (R70) -/
  | forwardingRetire
  /-- The final marker reaches the new tile, which releases its held direct arrivals (R70) -/
  | finalMarker
  /-- A steward writes the new slots and the mirror, advances the generation word and broadcasts the invalidation (R61) -/
  | cataloguePublish
  /-- A tile applies a catalogue invalidation, removes the named cache entries and acknowledges (R63) -/
  | catalogueInvalidation
  /-- Every tile has acknowledged the invalidation, so the publish token is written (R61) -/
  | publishToken
  /-- A publish still missing acknowledgements after 65,536 clk raises 0xD0 and rebroadcasts, and after three more tries raises
  0xD1 (R379) -/
  | publishStallTimeout
  /-- The hardware walker resolves a missed name through R62 and fills a name-cache entry, or finds it unmapped (R64) -/
  | nameWalkDone
  /-- After a write to the head slot, or in an owned slot, the agent checks the line stamps and forwards the slot or declares an
  overrun (R176) -/
  | hostQueueExamine
  /-- A nonzero write to restart resets rdidx, lap and status unless the queue is held (R174) -/
  | hostQueueRestart
  /-- The host writes cmpidx, which frees completion-ring slots for notices that are waiting (R178) -/
  | cmpidxWrite
  /-- A host write through a launch window goes along the edge ring to far memory (R173) -/
  | hostWindowWrite
  /-- A launch message reaches the home steward, which checks it and either holds it for placement or rejects it (R43) -/
  | launch
  /-- Kind 0x02 delivers a SEND from the host, with the root scope (R177) -/
  | hostMessage
  /-- Kind 0x03 withdraws the oldest held launch with the tag, which completes as cancelled (R177) -/
  | withdrawLaunch
  /-- Kind 0x04 makes the home steward CANCEL a scope and post notice 0x83 (R177) -/
  | hostCancel
  /-- Kind 0x20 checks a creation record and builds the carrel's catalogue, ownership, xr, scope and grants, or refuses it
  (R180) -/
  | createCarrel
  /-- Kind 0x21 retires every gang as cancelled and zeroes the carrel's SRAM, or releases its archive region (R19) -/
  | destroyCarrel
  /-- Kind 0x22 archives a carrel or the whole wafer by the steps of R187 (R187) -/
  | archiveRequest
  /-- Kind 0x23 restores an archived carrel from its slots and resumes its residencies (R188) -/
  | restoreRequest
  /-- The placer finds the first free rectangle and a fresh scope for the oldest held launch, or keeps it held (R44) -/
  | gangPlace
  /-- Once the image has been read, the steward multicasts the ISTOREs, the control writes and START to every member (R45) -/
  | gangLoad
  /-- A steward control write sets a member's c.tilename, c.gang, c.stage, c.scope and window descriptors (R45) -/
  | stewardControlWrite
  /-- START is performed: the normal bank is zeroed and the class-15 handler is entered ahead of every ready entry (R45) -/
  | startMessage
  /-- The reduction count reaches W × H, so the steward discards the queues, frees the rectangle and scope and retries held
  launches (R56) -/
  | gangRetire
  /-- The steward writes a waiting notice to a completion ring when there is room, then the stamp and an MSI-X (R178) -/
  | completionNoticeWrite
  /-- An Idle normal level selects the oldest eligible entry of the lowest effective class, makes the kill check and dispatches
  it (R47) -/
  | taskDispatch
  /-- An entry that has waited 65,536 clk moves to the tail of the next class up (R48) -/
  | agingPromotion
  /-- A boost notice raises the boost class of a matching membership entry that has not arrived (R54) -/
  | boostNotice
  /-- An urgent header reaches the task unit and is held in arrival order, up to four (R49) -/
  | urgentRequest
  /-- When the acceptance conditions hold, the normal level halts and the shadow bank selects the urgent handler (R50) -/
  | urgentAccept
  /-- An urgent handler reaches 256 clk and is stopped with fault 0x0D (R358) -/
  | urgentOverrun
  /-- A masked window still open at 256 clk is closed by hardware and MKO is set (R53) -/
  | maskWindowTimeout
  /-- Covered work that meets no kill point within 157 issuable clk is stopped at a boundary and killed (R35) -/
  | killCounterExpiry
  /-- The condition of a waiting instruction now holds, so it completes and the level runs again (R24) -/
  | waitConditionMet
  /-- A normal-level wait that reaches Lw × 65,536 clk is abandoned and raises 0x16 (R361) -/
  | waitWatchdogExpiry
  /-- A tile applies a cancel notice to its cancel list, drops covered ready entries, frees slots and withdraws membership
  entries (R34) -/
  | cancelNotice
  /-- Cancel acknowledgements are added up the reduction tree; at the root the token is written and a cancel-done report is sent
  (R39) -/
  | cancelAck
  /-- In a steward-service slot the home steward retires as cancelled every gang under the cancelled scope (R39) -/
  | cancelDoneReport
  /-- A tile removes the cancel-list entries of a closed scope and acknowledges (R32) -/
  | retireNotice
  /-- Every tile has acknowledged the retire notice, so the scope's indices are freed and SCOPE.CLOSE completes (R32) -/
  | retireAckComplete
  /-- A SEND copy is performed: payload to the receive queue, counters advanced, an activation pushed or an urgent header
  requested (R305) -/
  | messageArrival
  /-- A SEND that matches a fabric binding goes to the TA or TB FIFO, or is discarded with 0x73 if its length is wrong (R299) -/
  | slabMessage
  /-- A remote store is written at the destination bank and may advance a mode-3 counter (R307) -/
  | rstArrival
  /-- The destination bank atomic unit performs a remote atomic and returns the old value (R308) -/
  | ratomArrival
  /-- A RATOM reply writes the old value to its marked register, or is discarded if orphaned (R308) -/
  | ratomReply
  /-- The bank atomic unit decrements a task record's count, setting TDZ when the amount is too large (R27) -/
  | tdecArrival
  /-- A SPAWN writes a task record with count 0 at the destination and makes the push check (R311) -/
  | spawnArrival
  /-- ISTORE parcels are written into the destination instruction store (R312) -/
  | istoreArrival
  /-- A GET request is accepted at the source tile's stream engine, which returns the chunks (R302) -/
  | getRequestArrival
  /-- A GET reply chunk is written at the issuer's destination, advancing the watermark for W copies (R302) -/
  | getReplyArrival
  /-- A PUT chunk is written at the destination, advancing its watermark, counter or folio tag counter (R302) -/
  | putChunkArrival
  /-- An acknowledgement, possibly marked refused or dropped, lowers the issuer's outstanding count; a refusal raises 0x5B, 0x5C
  or 0x70 (R123) -/
  | performanceAck
  /-- The last chunk of a copy is written, so the token is written, mode-4 counters advance and an optional completion message
  is sent (R93) -/
  | copyComplete
  /-- A faulted copy ends after its issued chunks settle, and its token is written with 0x8000_0000 plus the bytes written
  (R370) -/
  | copyFaultEnd
  /-- A far chunk request reaches its entry port, which translates it and forwards it to the owning port in the carrel's edge
  slots (R86) -/
  | farRequest
  /-- An edge port's four-level table walk completes, filling its cache or raising a translation fault (R87) -/
  | translationWalkDone
  /-- Far read data or a write acknowledgement returns to the stream engine in the owner's slot (R148) -/
  | farReplyArrival
  /-- In an owned edge slot the port admits up to 112 of the owner's chunk requests (R148) -/
  | edgePortSlot
  /-- An edge agent applies a SHOOT invalidation, drains its translated accesses and acknowledges (R88) -/
  | shootAgentAck
  /-- An agent silent for 2,097,152 clk after a SHOOT is forced: its translated accesses end with 0x5D and the port is marked
  unavailable (R378) -/
  | shootTimeout
  /-- A page read back from the spill slot becomes resident and its stalled accessors proceed, or the page-in fails with 0x48
  (R79) -/
  | pageInDone
  /-- A victim page's copy to its spill slot completes, or fails and is marked as having no spill copy (R373) -/
  | pageOutDone
  /-- Background zeroing of an allocated page's line completes and stalled accesses to it proceed (R77) -/
  | lineZeroed
  /-- The stream engine fetches the next element of a pattern into a stream-register buffer, or stops the pattern on a fault
  (R90) -/
  | streamElementFetch
  /-- The head command of the tensor queue takes effect: TCFG, TARM, TZERO, STRM.BIND or STRM.STOP of TA or TB (R291) -/
  | tensorCommandPerform
  /-- With the TFEED at the head and both next slabs present, a k-step pops the slabs and accumulates all 64 outputs (R295) -/
  | kstepFire
  /-- A k-step completes and its flags are merged into c.tstat (R104) -/
  | kstepComplete
  /-- A TDRAIN at the head of the tensor queue promotes, scales and writes the outputs, then writes its token (R297) -/
  | tdrainPerform
  /-- A folio operation completes and its successors' counts fall; when all are done, or one fails, the replay token is written
  (R160) -/
  | folioOpComplete
  /-- A node with matching head tokens on every input folds them in fixed order and sends the result toward the root (R151) -/
  | combineToken
  /-- A renorm notice for a segment passes toward the root and contributes to the run exponent (R157) -/
  | renormNotice
  /-- A segment marker carrying run(s + 2) reaches a leaf and opens the segment gate (R157) -/
  | segmentMarker
  /-- The home bank unit counts an arrival and completes the generation with a release when the target is reached (R165) -/
  | barrierArrival
  /-- The home lowers the target and releases if the arrivals now meet it (R165) -/
  | barrierDecrement
  /-- A count-barrier release reaches a member's entry and ends a matching wait (R165) -/
  | barrierReleaseNotice
  /-- The line root sees the line high and sends the release wave: every tile toggles its phase and clears its arrived bits
  (R164) -/
  | lineRelease
  /-- A wafer's line root reports high to the steward of carrel wafer 0, which releases every wafer once all have reported
  (R184) -/
  | linePhaseReport
  /-- A router applies the header, ownership and detour checks to a flit, then routes or discards it (R145) -/
  | routerFlitArrival
  /-- A link receiver checks a four-flit group's CRC, discarding it and later groups until the retransmission arrives (R143) -/
  | linkGroup
  /-- Eight unacknowledged retransmission rounds, or 1,024 clk without CRC lock, declare the link dead (R385) -/
  | linkDead
  /-- A router that is silent or has lost every link is turned off, and the gang on its tile is ended faulted (R389) -/
  | deadRouter
  /-- A Trabeind frame is checked by CRC and sequence, with replay after a bad frame and credit return (R182) -/
  | peerFrame
  /-- Loss of lock, or 16 replays of one frame, brings a peer port down and reroutes its pairs through a substitute port (R397)
  -/
  | peerPortDown
  /-- A CXL link leaves the active state, making its port unavailable and posting 0x69 (R377) -/
  | cxlLinkDown
  /-- Once per frame Genesh retrains an unavailable port, which serves again from the next frame if it succeeds (R377) -/
  | cxlLinkRetrain
  /-- A corrected word is written back, the tile counters advance and a steward event is raised (R347) -/
  | correctableError
  /-- At a boundary a fault is recorded, the level halts in Faulted and notices go to the fault receiver and the host, or the
  work is discarded (R338) -/
  | faultTaken
  /-- A class-14 reply with a matching seq makes a Faulted residency retry, skip, kill or end (R342) -/
  | faultReply
  /-- A steward fault, TRAP or event saves c.sepc and c.scause and enters handler-table entry 14, or is queued (R252) -/
  | stewardException
  /-- Fetching an encoding that is not an instruction raises code 0x01 precisely, with its length taken from bit 0 of its first
  parcel (R350) -/
  | unallocatedEncoding
  /-- A Trabeind port that comes up again posts notice 0x7D with bit 8 set, and rejoins the port lists at the next carrel create
  or restore (R397) -/
  | peerPortUp
  /-- A CXL link returns to the active state by the link's own recovery or from the host side; an upstream agent resumes at
  rdidx and posts notice 0x69 with bit 9 set (R377) -/
  | cxlLinkReturned
  /-- An IDE integrity failure takes the link to the CXL IDE insecure state, and the port is unavailable until keys are re-
  established (R377) -/
  | ideIntegrityFailure
  /-- IDE keys are set through IDE_KM over DOE, by the host on an upstream port or by Genesh on a downstream port, which makes
  an insecure port available again (R171) -/
  | ideKmKeyExchange
  /-- The host supplies a signed configuration that replaces Genesh's retirement policy, sets each carrel's wait limit Lw, or
  asks for a working nonet to be replaced (R348) -/
  | signedConfiguration
deriving DecidableEq, Repr

end Sys2Proof
end

