-- ==== Sys2Proof/WellFormed.lean ====
section
/-!
DEFINITION. Which instructions R199 to R212 and R289 allocate: the limits that a field has beyond its width. A field value outside
its limit is an unallocated encoding (R212, R350).
-/

namespace Sys2Proof

/-- The first register of an even pair (R223). -/
abbrev even (r : Reg) : Prop := r.toNat % 2 = 0

/-- The instruction is allocated: every field holds a value that R200 to R211, R223 and R289 allow. A step that has no encoding is
always allocated. -/
def Instr.WellFormed : Instr → Prop
  | .add _ _ _ => True
  | .sub _ _ _ => True
  | .adds _ _ _ => True
  | .subs _ _ _ => True
  | .and _ _ _ => True
  | .or _ _ _ => True
  | .xor _ _ _ => True
  | .andn _ _ _ => True
  | .orn _ _ _ => True
  | .slt _ _ _ => True
  | .sltu _ _ _ => True
  | .min _ _ _ => True
  | .max _ _ _ => True
  | .minu _ _ _ => True
  | .maxu _ _ _ => True
  | .shl _ _ _ => True
  | .shr _ _ _ => True
  | .sra _ _ _ => True
  | .rot _ _ _ => True
  | .clz _ _ => True
  | .ctz _ _ => True
  | .popc _ _ => True
  | .brev _ _ => True
  | .mul _ _ _ => True
  | .mulh _ _ _ => True
  | .mulhu _ _ _ => True
  | .div _ _ _ => True
  | .divu _ _ _ => True
  | .rem _ _ _ => True
  | .remu _ _ _ => True
  | .fshl _ _ _ _ => True
  | .fshr _ _ _ _ => True
  | .crcw _ _ _ => True
  | .addi _ _ _ => True
  | .andi _ _ _ => True
  | .ori _ _ _ => True
  | .xori _ _ _ => True
  | .slti _ _ _ => True
  | .sltiu _ _ _ => True
  | .shli _ _ _ => True
  | .shri _ _ _ => True
  | .srai _ _ _ => True
  | .roti _ _ _ => True
  | .li _ _ => True
  | .lui _ _ => True
  | .bfx _ _ _ _ => True
  | .bfi _ _ _ _ => True
  | .lut3 _ _ _ _ => True
  | .beq _ _ _ => True
  | .bne _ _ _ => True
  | .blt _ _ _ => True
  | .bge _ _ _ => True
  | .bltu _ _ _ => True
  | .bgeu _ _ _ => True
  | .jal _ _ => True
  | .jalr _ _ _ => True
  | .loop _ l _ => 0 < l.toNat
  | .loopi _ l _ => 0 < l.toNat
  | .nop => True
  | .done => True
  | .doneG => True
  | .yield => True
  | .cancelchk => True
  | .mask => True
  | .unmask => True
  | .fence _ => True
  | .mfc _ _ => True
  | .mtc _ _ => True
  | .trap _ => True
  | .sleep m => 0 < m.toNat ∧ m.toNat < 256
  | .ldb _ _ _ => True
  | .ldbu _ _ _ => True
  | .ldh _ _ _ => True
  | .ldhu _ _ _ => True
  | .ldw _ _ _ => True
  | .ldd d _ _ => even d
  | .stb _ _ _ => True
  | .sth _ _ _ => True
  | .stw _ _ _ => True
  | .std d _ _ => even d
  | .vld d _ _ => d.toNat < 16
  | .vst d _ _ => d.toNat < 16
  | .vldt d _ _ => d.toNat < 16 ∧ d.toNat % 4 = 0
  | .ldbit _ _ _ => True
  | .stbit _ _ _ => True
  | .ldp _ _ _ _ => True
  | .atom _ _ _ o => o.toNat < 11
  | .atomD d _ b o => even d ∧ even b ∧ o.toNat < 10
  | .alloc _ k => k.toNat < 5
  | .free _ => True
  | .pin _ => True
  | .vaddF d a b f _ => d.toNat < 16 ∧ a.toNat < 16 ∧ b.toNat < 16 ∧ f.toNat < 3
  | .vsubF d a b f _ => d.toNat < 16 ∧ a.toNat < 16 ∧ b.toNat < 16 ∧ f.toNat < 3
  | .vmulF d a b f _ => d.toNat < 16 ∧ a.toNat < 16 ∧ b.toNat < 16 ∧ f.toNat < 3
  | .vfma d a b c f _ => d.toNat < 16 ∧ a.toNat < 16 ∧ b.toNat < 16 ∧ f.toNat < 3 ∧ c.toNat < 16
  | .vmin d a b f => d.toNat < 16 ∧ a.toNat < 16 ∧ b.toNat < 16 ∧ f.toNat < 3
  | .vmax d a b f => d.toNat < 16 ∧ a.toNat < 16 ∧ b.toNat < 16 ∧ f.toNat < 3
  | .vabs d a f => f.toNat < 3 ∧ d.toNat < 16 ∧ a.toNat < 16
  | .vneg d a f => f.toNat < 3 ∧ d.toNat < 16 ∧ a.toNat < 16
  | .vaddI d a b w => d.toNat < 16 ∧ a.toNat < 16 ∧ b.toNat < 16 ∧ w.toNat < 3
  | .vsubI d a b w => d.toNat < 16 ∧ a.toNat < 16 ∧ b.toNat < 16 ∧ w.toNat < 3
  | .vadds d a b w => d.toNat < 16 ∧ a.toNat < 16 ∧ b.toNat < 16 ∧ w.toNat < 3
  | .vsubs d a b w => d.toNat < 16 ∧ a.toNat < 16 ∧ b.toNat < 16 ∧ w.toNat < 3
  | .vmulI d a b w => d.toNat < 16 ∧ a.toNat < 16 ∧ b.toNat < 16 ∧ w.toNat < 3
  | .vmulh d a b w => d.toNat < 16 ∧ a.toNat < 16 ∧ b.toNat < 16 ∧ w.toNat < 3
  | .vmulhu d a b w => d.toNat < 16 ∧ a.toNat < 16 ∧ b.toNat < 16 ∧ w.toNat < 3
  | .vshl d a b w => d.toNat < 16 ∧ a.toNat < 16 ∧ b.toNat < 16 ∧ w.toNat < 3
  | .vshr d a b w => d.toNat < 16 ∧ a.toNat < 16 ∧ b.toNat < 16 ∧ w.toNat < 3
  | .vsra d a b w => d.toNat < 16 ∧ a.toNat < 16 ∧ b.toNat < 16 ∧ w.toNat < 3
  | .vrot d a b w => d.toNat < 16 ∧ a.toNat < 16 ∧ b.toNat < 16 ∧ w.toNat < 3
  | .vcmp d a b _ _ => d.toNat < 8 ∧ a.toNat < 16 ∧ b.toNat < 16
  | .vsel d a b c w => d.toNat < 16 ∧ a.toNat < 16 ∧ b.toNat < 16 ∧ w.toNat < 3 ∧ c.toNat < 8
  | .vshuf d a b c w => d.toNat < 16 ∧ a.toNat < 16 ∧ b.toNat < 16 ∧ c.toNat < 16 ∧ w.toNat < 3
  | .vred d a k r => d.toNat < 16 ∧ a.toNat < 16 ∧ (k.toNat = 0 ∨ r.toNat = 0)
  | .vamax d a b f => d.toNat < 16 ∧ a.toNat < 16 ∧ b.toNat < 16 ∧ f.toNat < 3
  | .rqacc d _ k r => d.toNat < 16 ∧ k.toNat < 3 ∧ (k.toNat = 0 ∨ r.toNat = 0)
  | .vlut3 d a b _ => d.toNat < 16 ∧ a.toNat < 16 ∧ b.toNat < 16
  | .vmov d a => d.toNat < 16 ∧ a.toNat < 16
  | .vbcast d _ => d.toNat < 16
  | .vext _ a b => a.toNat < 16 ∧ b.toNat < 4
  | .vins d _ b => d.toNat < 16 ∧ b.toNat < 4
  | .kset d _ => d.toNat < 8
  | .kget _ a => a.toNat < 8
  | .tcfg f => f.toNat < 3
  | .tarm d _ => d.toNat < 4
  | .tzero d => d.toNat < 4
  | .tdrain _ _ _ => True
  | .tfeed d _ => d.toNat < 4
  | .strmCfg d _ => 12 ≤ d.toNat ∧ d.toNat < 16
  | .strmBind d _ _ _ => d.toNat < 2
  | .strmStop d => 12 ≤ d.toNat ∧ d.toNat < 18
  | .strmSync => True
  | .get _ a b => even b ∧ even a
  | .getFar _ a b => even b ∧ even a
  | .getLoc _ a b => even b ∧ even a
  | .put _ a b x r => even b ∧ even a ∧ (r = 1 ∨ x = 0)
  | .putFar _ a b x r => even b ∧ even a ∧ (r = 1 ∨ x = 0)
  | .wmcfg d _ _ => d.toNat < 4
  | .sfence => True
  | .fenceFar => True
  | .send _ _ b _ x r => even b ∧ (r = 1 ∨ x = 0)
  | .sendm _ a b _ x r => even b ∧ even a ∧ (r = 1 ∨ x = 0)
  | .rst _ _ _ x r => r = 1 ∨ x = 0
  | .rstDw d _ _ x r => even d ∧ (r = 1 ∨ x = 0)
  | .rstV d _ _ x r => (r = 1 ∨ x = 0) ∧ d.toNat < 16
  | .ratom _ _ b x r o => even b ∧ o.toNat < 11 ∧ (r = 1 ∨ x = 0)
  | .ratomD d _ b x r o => even d ∧ b.toNat % 4 = 0 ∧ o.toNat < 10 ∧ (r = 1 ∨ x = 0)
  | .recv d => d.toNat < 16
  | .recvM _ _ => True
  | .recvSel _ _ => True
  | .tnew _ _ b => even b
  | .tdec _ _ _ => True
  | .spawn d _ _ => even d
  | .istore d _ _ => even d
  | .istoreM d a _ => even d ∧ even a
  | .trigArm d _ _ _ => d.toNat < 16
  | .trigClr d => d.toNat < 16
  | .cntset d _ _ => d.toNat < 16
  | .cntsetV d _ => d.toNat < 16
  | .cntrd _ a => a.toNat < 16
  | .barJoin _ _ _ => True
  | .barJoinX _ => True
  | .barLine _ a => a.toNat < 4
  | .barArrive _ => True
  | .barWait _ => True
  | .scopeOpen _ => True
  | .scopeClose => True
  | .cancel _ _ => True
  | .combCfg _ b => even b
  | .combCfgRoot _ _ b => even b
  | .folioLoad _ => True
  | .folioRun _ a => a.toNat % 4 = 0
  | .cvtRne d a _ _ f t => d.toNat < 16 ∧ a.toNat < 16 ∧ f.toNat < 8 ∧ t.toNat < 8 ∧ f ≠ t
  | .cvtRtz d a _ f t => d.toNat < 16 ∧ a.toNat < 16 ∧ f.toNat < 8 ∧ t.toNat < 8 ∧ f ≠ t
  | .cvtRdn d a _ f t => d.toNat < 16 ∧ a.toNat < 16 ∧ f.toNat < 8 ∧ t.toNat < 8 ∧ f ≠ t
  | .cvtRup d a _ f t => d.toNat < 16 ∧ a.toNat < 16 ∧ f.toNat < 8 ∧ t.toNat < 8 ∧ f ≠ t
  | .cvts _ a _ _ => a.toNat < 16
  | .bkpack _ _ b _ _ k e => even b ∧ k.toNat < 3 ∧ e.toNat < 3
  | .bkunpack _ _ b _ _ k e => even b ∧ k.toNat < 3 ∧ e.toNat < 3
  | .migr _ _ _ => True
  | .migrG _ _ _ => True
  | .mapwrSlot _ _ b _ => even b
  | .mapwrDetour _ _ b _ => even b
  | .mapwrOwnership _ _ b _ => even b
  | .mapwrDistbound _ _ b _ => even b
  | .maprd d _ => even d
  | .shoot _ a _ => even a
  | .almset _ _ _ => True
  | .archive _ _ _ => True
  | .tileoff _ _ => True
  | .eret => True
  | .eccrd d _ => even d
  | .mov _ _ => True
  | .addCompact _ _ => True
  | .subCompact _ _ => True
  | .andCompact _ _ => True
  | .orCompact _ _ => True
  | .xorCompact _ _ => True
  | .addi5 _ _ => True
  | .shliCompact _ _ => True
  | .shriCompact _ _ => True
  | .sraiCompact _ _ => True
  | .li5 _ _ => True
  | .beqz _ _ => True
  | .bnez _ _ => True
  | .ldwCompact _ _ => True
  | .stwCompact _ _ => True
  | .jr _ => True
  | .doneCompact => True
  | .doneGCompact => True
  | .nopCompact => True
  | .cancelchkCompact => True
  | .vauxValid => True
  | .vauxLost => True
  | .pwrenAsserted => True
  | .powerOnStepEnd => True
  | .powerOnStepLimit => True
  | .startTimeWrite => True
  | .pwrenDeasserted => True
  | .resetNAsserted => True
  | .attestationRequest => True
  | .managementRegisterWrite => True
  | .sensorSample => True
  | .fieldThermalCheck => True
  | .thermalPause => True
  | .thermalResume => True
  | .almanacSlotBoundary => True
  | .frameStart => True
  | .scrub => True
  | .epochTick => True
  | .timeExchange => True
  | .transitTableCheck => True
  | .stewardHeartbeat => True
  | .partnerLost => True
  | .shadeRotation => True
  | .migrationHalt => True
  | .migrationFreezeDone => True
  | .migrationCopyLanded => True
  | .migrationResume => True
  | .migrationAbort => True
  | .forwardedArrival => True
  | .endMarker => True
  | .forwardingRetire => True
  | .finalMarker => True
  | .cataloguePublish => True
  | .catalogueInvalidation => True
  | .publishToken => True
  | .publishStallTimeout => True
  | .nameWalkDone => True
  | .hostQueueExamine => True
  | .hostQueueRestart => True
  | .cmpidxWrite => True
  | .hostWindowWrite => True
  | .launch => True
  | .hostMessage => True
  | .withdrawLaunch => True
  | .hostCancel => True
  | .createCarrel => True
  | .destroyCarrel => True
  | .archiveRequest => True
  | .restoreRequest => True
  | .gangPlace => True
  | .gangLoad => True
  | .stewardControlWrite => True
  | .startMessage => True
  | .gangRetire => True
  | .completionNoticeWrite => True
  | .taskDispatch => True
  | .agingPromotion => True
  | .boostNotice => True
  | .urgentRequest => True
  | .urgentAccept => True
  | .urgentOverrun => True
  | .maskWindowTimeout => True
  | .killCounterExpiry => True
  | .waitConditionMet => True
  | .waitWatchdogExpiry => True
  | .cancelNotice => True
  | .cancelAck => True
  | .cancelDoneReport => True
  | .retireNotice => True
  | .retireAckComplete => True
  | .messageArrival => True
  | .slabMessage => True
  | .rstArrival => True
  | .ratomArrival => True
  | .ratomReply => True
  | .tdecArrival => True
  | .spawnArrival => True
  | .istoreArrival => True
  | .getRequestArrival => True
  | .getReplyArrival => True
  | .putChunkArrival => True
  | .performanceAck => True
  | .copyComplete => True
  | .copyFaultEnd => True
  | .farRequest => True
  | .translationWalkDone => True
  | .farReplyArrival => True
  | .edgePortSlot => True
  | .shootAgentAck => True
  | .shootTimeout => True
  | .pageInDone => True
  | .pageOutDone => True
  | .lineZeroed => True
  | .streamElementFetch => True
  | .tensorCommandPerform => True
  | .kstepFire => True
  | .kstepComplete => True
  | .tdrainPerform => True
  | .folioOpComplete => True
  | .combineToken => True
  | .renormNotice => True
  | .segmentMarker => True
  | .barrierArrival => True
  | .barrierDecrement => True
  | .barrierReleaseNotice => True
  | .lineRelease => True
  | .linePhaseReport => True
  | .routerFlitArrival => True
  | .linkGroup => True
  | .linkDead => True
  | .deadRouter => True
  | .peerFrame => True
  | .peerPortDown => True
  | .cxlLinkDown => True
  | .cxlLinkRetrain => True
  | .correctableError => True
  | .faultTaken => True
  | .faultReply => True
  | .stewardException => True
  | .unallocatedEncoding => True
  | .peerPortUp => True
  | .cxlLinkReturned => True
  | .ideIntegrityFailure => True
  | .ideKmKeyExchange => True
  | .signedConfiguration => True

/-- `WellFormed` as a decision. -/
def Instr.wf (i : Instr) : Bool :=
  match i with
  | .add _ _ _ => true
  | .sub _ _ _ => true
  | .adds _ _ _ => true
  | .subs _ _ _ => true
  | .and _ _ _ => true
  | .or _ _ _ => true
  | .xor _ _ _ => true
  | .andn _ _ _ => true
  | .orn _ _ _ => true
  | .slt _ _ _ => true
  | .sltu _ _ _ => true
  | .min _ _ _ => true
  | .max _ _ _ => true
  | .minu _ _ _ => true
  | .maxu _ _ _ => true
  | .shl _ _ _ => true
  | .shr _ _ _ => true
  | .sra _ _ _ => true
  | .rot _ _ _ => true
  | .clz _ _ => true
  | .ctz _ _ => true
  | .popc _ _ => true
  | .brev _ _ => true
  | .mul _ _ _ => true
  | .mulh _ _ _ => true
  | .mulhu _ _ _ => true
  | .div _ _ _ => true
  | .divu _ _ _ => true
  | .rem _ _ _ => true
  | .remu _ _ _ => true
  | .fshl _ _ _ _ => true
  | .fshr _ _ _ _ => true
  | .crcw _ _ _ => true
  | .addi _ _ _ => true
  | .andi _ _ _ => true
  | .ori _ _ _ => true
  | .xori _ _ _ => true
  | .slti _ _ _ => true
  | .sltiu _ _ _ => true
  | .shli _ _ _ => true
  | .shri _ _ _ => true
  | .srai _ _ _ => true
  | .roti _ _ _ => true
  | .li _ _ => true
  | .lui _ _ => true
  | .bfx _ _ _ _ => true
  | .bfi _ _ _ _ => true
  | .lut3 _ _ _ _ => true
  | .beq _ _ _ => true
  | .bne _ _ _ => true
  | .blt _ _ _ => true
  | .bge _ _ _ => true
  | .bltu _ _ _ => true
  | .bgeu _ _ _ => true
  | .jal _ _ => true
  | .jalr _ _ _ => true
  | .loop _ l _ => decide (0 < l.toNat)
  | .loopi _ l _ => decide (0 < l.toNat)
  | .nop => true
  | .done => true
  | .doneG => true
  | .yield => true
  | .cancelchk => true
  | .mask => true
  | .unmask => true
  | .fence _ => true
  | .mfc _ _ => true
  | .mtc _ _ => true
  | .trap _ => true
  | .sleep m => decide (0 < m.toNat ∧ m.toNat < 256)
  | .ldb _ _ _ => true
  | .ldbu _ _ _ => true
  | .ldh _ _ _ => true
  | .ldhu _ _ _ => true
  | .ldw _ _ _ => true
  | .ldd d _ _ => decide (even d)
  | .stb _ _ _ => true
  | .sth _ _ _ => true
  | .stw _ _ _ => true
  | .std d _ _ => decide (even d)
  | .vld d _ _ => decide (d.toNat < 16)
  | .vst d _ _ => decide (d.toNat < 16)
  | .vldt d _ _ => decide (d.toNat < 16 ∧ d.toNat % 4 = 0)
  | .ldbit _ _ _ => true
  | .stbit _ _ _ => true
  | .ldp _ _ _ _ => true
  | .atom _ _ _ o => decide (o.toNat < 11)
  | .atomD d _ b o => decide (even d ∧ even b ∧ o.toNat < 10)
  | .alloc _ k => decide (k.toNat < 5)
  | .free _ => true
  | .pin _ => true
  | .vaddF d a b f _ => decide (d.toNat < 16 ∧ a.toNat < 16 ∧ b.toNat < 16 ∧ f.toNat < 3)
  | .vsubF d a b f _ => decide (d.toNat < 16 ∧ a.toNat < 16 ∧ b.toNat < 16 ∧ f.toNat < 3)
  | .vmulF d a b f _ => decide (d.toNat < 16 ∧ a.toNat < 16 ∧ b.toNat < 16 ∧ f.toNat < 3)
  | .vfma d a b c f _ => decide (d.toNat < 16 ∧ a.toNat < 16 ∧ b.toNat < 16 ∧ f.toNat < 3 ∧ c.toNat < 16)
  | .vmin d a b f => decide (d.toNat < 16 ∧ a.toNat < 16 ∧ b.toNat < 16 ∧ f.toNat < 3)
  | .vmax d a b f => decide (d.toNat < 16 ∧ a.toNat < 16 ∧ b.toNat < 16 ∧ f.toNat < 3)
  | .vabs d a f => decide (f.toNat < 3 ∧ d.toNat < 16 ∧ a.toNat < 16)
  | .vneg d a f => decide (f.toNat < 3 ∧ d.toNat < 16 ∧ a.toNat < 16)
  | .vaddI d a b w => decide (d.toNat < 16 ∧ a.toNat < 16 ∧ b.toNat < 16 ∧ w.toNat < 3)
  | .vsubI d a b w => decide (d.toNat < 16 ∧ a.toNat < 16 ∧ b.toNat < 16 ∧ w.toNat < 3)
  | .vadds d a b w => decide (d.toNat < 16 ∧ a.toNat < 16 ∧ b.toNat < 16 ∧ w.toNat < 3)
  | .vsubs d a b w => decide (d.toNat < 16 ∧ a.toNat < 16 ∧ b.toNat < 16 ∧ w.toNat < 3)
  | .vmulI d a b w => decide (d.toNat < 16 ∧ a.toNat < 16 ∧ b.toNat < 16 ∧ w.toNat < 3)
  | .vmulh d a b w => decide (d.toNat < 16 ∧ a.toNat < 16 ∧ b.toNat < 16 ∧ w.toNat < 3)
  | .vmulhu d a b w => decide (d.toNat < 16 ∧ a.toNat < 16 ∧ b.toNat < 16 ∧ w.toNat < 3)
  | .vshl d a b w => decide (d.toNat < 16 ∧ a.toNat < 16 ∧ b.toNat < 16 ∧ w.toNat < 3)
  | .vshr d a b w => decide (d.toNat < 16 ∧ a.toNat < 16 ∧ b.toNat < 16 ∧ w.toNat < 3)
  | .vsra d a b w => decide (d.toNat < 16 ∧ a.toNat < 16 ∧ b.toNat < 16 ∧ w.toNat < 3)
  | .vrot d a b w => decide (d.toNat < 16 ∧ a.toNat < 16 ∧ b.toNat < 16 ∧ w.toNat < 3)
  | .vcmp d a b _ _ => decide (d.toNat < 8 ∧ a.toNat < 16 ∧ b.toNat < 16)
  | .vsel d a b c w => decide (d.toNat < 16 ∧ a.toNat < 16 ∧ b.toNat < 16 ∧ w.toNat < 3 ∧ c.toNat < 8)
  | .vshuf d a b c w => decide (d.toNat < 16 ∧ a.toNat < 16 ∧ b.toNat < 16 ∧ c.toNat < 16 ∧ w.toNat < 3)
  | .vred d a k r => decide (d.toNat < 16 ∧ a.toNat < 16 ∧ (k.toNat = 0 ∨ r.toNat = 0))
  | .vamax d a b f => decide (d.toNat < 16 ∧ a.toNat < 16 ∧ b.toNat < 16 ∧ f.toNat < 3)
  | .rqacc d _ k r => decide (d.toNat < 16 ∧ k.toNat < 3 ∧ (k.toNat = 0 ∨ r.toNat = 0))
  | .vlut3 d a b _ => decide (d.toNat < 16 ∧ a.toNat < 16 ∧ b.toNat < 16)
  | .vmov d a => decide (d.toNat < 16 ∧ a.toNat < 16)
  | .vbcast d _ => decide (d.toNat < 16)
  | .vext _ a b => decide (a.toNat < 16 ∧ b.toNat < 4)
  | .vins d _ b => decide (d.toNat < 16 ∧ b.toNat < 4)
  | .kset d _ => decide (d.toNat < 8)
  | .kget _ a => decide (a.toNat < 8)
  | .tcfg f => decide (f.toNat < 3)
  | .tarm d _ => decide (d.toNat < 4)
  | .tzero d => decide (d.toNat < 4)
  | .tdrain _ _ _ => true
  | .tfeed d _ => decide (d.toNat < 4)
  | .strmCfg d _ => decide (12 ≤ d.toNat ∧ d.toNat < 16)
  | .strmBind d _ _ _ => decide (d.toNat < 2)
  | .strmStop d => decide (12 ≤ d.toNat ∧ d.toNat < 18)
  | .strmSync => true
  | .get _ a b => decide (even b ∧ even a)
  | .getFar _ a b => decide (even b ∧ even a)
  | .getLoc _ a b => decide (even b ∧ even a)
  | .put _ a b x r => decide (even b ∧ even a ∧ (r = 1 ∨ x = 0))
  | .putFar _ a b x r => decide (even b ∧ even a ∧ (r = 1 ∨ x = 0))
  | .wmcfg d _ _ => decide (d.toNat < 4)
  | .sfence => true
  | .fenceFar => true
  | .send _ _ b _ x r => decide (even b ∧ (r = 1 ∨ x = 0))
  | .sendm _ a b _ x r => decide (even b ∧ even a ∧ (r = 1 ∨ x = 0))
  | .rst _ _ _ x r => decide (r = 1 ∨ x = 0)
  | .rstDw d _ _ x r => decide (even d ∧ (r = 1 ∨ x = 0))
  | .rstV d _ _ x r => decide ((r = 1 ∨ x = 0) ∧ d.toNat < 16)
  | .ratom _ _ b x r o => decide (even b ∧ o.toNat < 11 ∧ (r = 1 ∨ x = 0))
  | .ratomD d _ b x r o => decide (even d ∧ b.toNat % 4 = 0 ∧ o.toNat < 10 ∧ (r = 1 ∨ x = 0))
  | .recv d => decide (d.toNat < 16)
  | .recvM _ _ => true
  | .recvSel _ _ => true
  | .tnew _ _ b => decide (even b)
  | .tdec _ _ _ => true
  | .spawn d _ _ => decide (even d)
  | .istore d _ _ => decide (even d)
  | .istoreM d a _ => decide (even d ∧ even a)
  | .trigArm d _ _ _ => decide (d.toNat < 16)
  | .trigClr d => decide (d.toNat < 16)
  | .cntset d _ _ => decide (d.toNat < 16)
  | .cntsetV d _ => decide (d.toNat < 16)
  | .cntrd _ a => decide (a.toNat < 16)
  | .barJoin _ _ _ => true
  | .barJoinX _ => true
  | .barLine _ a => decide (a.toNat < 4)
  | .barArrive _ => true
  | .barWait _ => true
  | .scopeOpen _ => true
  | .scopeClose => true
  | .cancel _ _ => true
  | .combCfg _ b => decide (even b)
  | .combCfgRoot _ _ b => decide (even b)
  | .folioLoad _ => true
  | .folioRun _ a => decide (a.toNat % 4 = 0)
  | .cvtRne d a _ _ f t => decide (d.toNat < 16 ∧ a.toNat < 16 ∧ f.toNat < 8 ∧ t.toNat < 8 ∧ f ≠ t)
  | .cvtRtz d a _ f t => decide (d.toNat < 16 ∧ a.toNat < 16 ∧ f.toNat < 8 ∧ t.toNat < 8 ∧ f ≠ t)
  | .cvtRdn d a _ f t => decide (d.toNat < 16 ∧ a.toNat < 16 ∧ f.toNat < 8 ∧ t.toNat < 8 ∧ f ≠ t)
  | .cvtRup d a _ f t => decide (d.toNat < 16 ∧ a.toNat < 16 ∧ f.toNat < 8 ∧ t.toNat < 8 ∧ f ≠ t)
  | .cvts _ a _ _ => decide (a.toNat < 16)
  | .bkpack _ _ b _ _ k e => decide (even b ∧ k.toNat < 3 ∧ e.toNat < 3)
  | .bkunpack _ _ b _ _ k e => decide (even b ∧ k.toNat < 3 ∧ e.toNat < 3)
  | .migr _ _ _ => true
  | .migrG _ _ _ => true
  | .mapwrSlot _ _ b _ => decide (even b)
  | .mapwrDetour _ _ b _ => decide (even b)
  | .mapwrOwnership _ _ b _ => decide (even b)
  | .mapwrDistbound _ _ b _ => decide (even b)
  | .maprd d _ => decide (even d)
  | .shoot _ a _ => decide (even a)
  | .almset _ _ _ => true
  | .archive _ _ _ => true
  | .tileoff _ _ => true
  | .eret => true
  | .eccrd d _ => decide (even d)
  | .mov _ _ => true
  | .addCompact _ _ => true
  | .subCompact _ _ => true
  | .andCompact _ _ => true
  | .orCompact _ _ => true
  | .xorCompact _ _ => true
  | .addi5 _ _ => true
  | .shliCompact _ _ => true
  | .shriCompact _ _ => true
  | .sraiCompact _ _ => true
  | .li5 _ _ => true
  | .beqz _ _ => true
  | .bnez _ _ => true
  | .ldwCompact _ _ => true
  | .stwCompact _ _ => true
  | .jr _ => true
  | .doneCompact => true
  | .doneGCompact => true
  | .nopCompact => true
  | .cancelchkCompact => true
  | .vauxValid => true
  | .vauxLost => true
  | .pwrenAsserted => true
  | .powerOnStepEnd => true
  | .powerOnStepLimit => true
  | .startTimeWrite => true
  | .pwrenDeasserted => true
  | .resetNAsserted => true
  | .attestationRequest => true
  | .managementRegisterWrite => true
  | .sensorSample => true
  | .fieldThermalCheck => true
  | .thermalPause => true
  | .thermalResume => true
  | .almanacSlotBoundary => true
  | .frameStart => true
  | .scrub => true
  | .epochTick => true
  | .timeExchange => true
  | .transitTableCheck => true
  | .stewardHeartbeat => true
  | .partnerLost => true
  | .shadeRotation => true
  | .migrationHalt => true
  | .migrationFreezeDone => true
  | .migrationCopyLanded => true
  | .migrationResume => true
  | .migrationAbort => true
  | .forwardedArrival => true
  | .endMarker => true
  | .forwardingRetire => true
  | .finalMarker => true
  | .cataloguePublish => true
  | .catalogueInvalidation => true
  | .publishToken => true
  | .publishStallTimeout => true
  | .nameWalkDone => true
  | .hostQueueExamine => true
  | .hostQueueRestart => true
  | .cmpidxWrite => true
  | .hostWindowWrite => true
  | .launch => true
  | .hostMessage => true
  | .withdrawLaunch => true
  | .hostCancel => true
  | .createCarrel => true
  | .destroyCarrel => true
  | .archiveRequest => true
  | .restoreRequest => true
  | .gangPlace => true
  | .gangLoad => true
  | .stewardControlWrite => true
  | .startMessage => true
  | .gangRetire => true
  | .completionNoticeWrite => true
  | .taskDispatch => true
  | .agingPromotion => true
  | .boostNotice => true
  | .urgentRequest => true
  | .urgentAccept => true
  | .urgentOverrun => true
  | .maskWindowTimeout => true
  | .killCounterExpiry => true
  | .waitConditionMet => true
  | .waitWatchdogExpiry => true
  | .cancelNotice => true
  | .cancelAck => true
  | .cancelDoneReport => true
  | .retireNotice => true
  | .retireAckComplete => true
  | .messageArrival => true
  | .slabMessage => true
  | .rstArrival => true
  | .ratomArrival => true
  | .ratomReply => true
  | .tdecArrival => true
  | .spawnArrival => true
  | .istoreArrival => true
  | .getRequestArrival => true
  | .getReplyArrival => true
  | .putChunkArrival => true
  | .performanceAck => true
  | .copyComplete => true
  | .copyFaultEnd => true
  | .farRequest => true
  | .translationWalkDone => true
  | .farReplyArrival => true
  | .edgePortSlot => true
  | .shootAgentAck => true
  | .shootTimeout => true
  | .pageInDone => true
  | .pageOutDone => true
  | .lineZeroed => true
  | .streamElementFetch => true
  | .tensorCommandPerform => true
  | .kstepFire => true
  | .kstepComplete => true
  | .tdrainPerform => true
  | .folioOpComplete => true
  | .combineToken => true
  | .renormNotice => true
  | .segmentMarker => true
  | .barrierArrival => true
  | .barrierDecrement => true
  | .barrierReleaseNotice => true
  | .lineRelease => true
  | .linePhaseReport => true
  | .routerFlitArrival => true
  | .linkGroup => true
  | .linkDead => true
  | .deadRouter => true
  | .peerFrame => true
  | .peerPortDown => true
  | .cxlLinkDown => true
  | .cxlLinkRetrain => true
  | .correctableError => true
  | .faultTaken => true
  | .faultReply => true
  | .stewardException => true
  | .unallocatedEncoding => true
  | .peerPortUp => true
  | .cxlLinkReturned => true
  | .ideIntegrityFailure => true
  | .ideKmKeyExchange => true
  | .signedConfiguration => true

theorem Instr.wf_iff (i : Instr) : i.wf = true ↔ i.WellFormed := by
  cases i <;> simp [Instr.wf, Instr.WellFormed]

end Sys2Proof
end

