-- ==== Sys2Proof/Decode.lean ====
section
/-!
DEFINITION. Decoding and encoding of instructions (R199 to R212, R289). An instruction's bits are a number, bit 0 the least
significant bit of its first parcel. `decode` refuses every encoding that the rules do not allocate.
-/

namespace Sys2Proof

/-- Bits [lo + n − 1 : lo] of an instruction. -/
def fld (w lo n : Nat) : BitVec n := BitVec.ofNat n (w / 2 ^ lo)

/-- The number in bits [lo + n − 1 : lo] of an instruction. -/
def bits (w lo n : Nat) : Nat := w / 2 ^ lo % 2 ^ n

/-- The compact instruction of one parcel whose fixed fields the parcel holds (R200). -/
def rawCompact (w : Nat) : Option Instr :=
  match bits w 1 5 with
  | 0x01 =>
    some (.mov (fld w 6 5) (fld w 11 5))
  | 0x02 =>
    some (.addCompact (fld w 6 5) (fld w 11 5))
  | 0x03 =>
    some (.subCompact (fld w 6 5) (fld w 11 5))
  | 0x04 =>
    some (.andCompact (fld w 6 5) (fld w 11 5))
  | 0x05 =>
    some (.orCompact (fld w 6 5) (fld w 11 5))
  | 0x06 =>
    some (.xorCompact (fld w 6 5) (fld w 11 5))
  | 0x07 =>
    some (.addi5 (fld w 6 5) (fld w 11 5))
  | 0x08 =>
    some (.shliCompact (fld w 6 5) (fld w 11 5))
  | 0x09 =>
    some (.shriCompact (fld w 6 5) (fld w 11 5))
  | 0x0A =>
    some (.sraiCompact (fld w 6 5) (fld w 11 5))
  | 0x0B =>
    some (.li5 (fld w 6 5) (fld w 11 5))
  | 0x0C =>
    some (.beqz (fld w 6 5) (fld w 11 5))
  | 0x0D =>
    some (.bnez (fld w 6 5) (fld w 11 5))
  | 0x0E =>
    some (.ldwCompact (fld w 6 5) (fld w 11 5))
  | 0x0F =>
    some (.stwCompact (fld w 6 5) (fld w 11 5))
  | 0x10 =>
    if bits w 11 5 = 0 then some (.jr (fld w 6 5))
    else none
  | 0x11 =>
    if bits w 6 10 = 0 then some (.doneCompact)
    else if bits w 6 10 = 1 then some (.doneGCompact)
    else none
  | 0x12 =>
    if bits w 6 10 = 0 then some (.nopCompact)
    else none
  | 0x13 =>
    if bits w 6 10 = 0 then some (.cancelchkCompact)
    else none
  | _ => none

/-- The 32-bit instruction with major opcode 0x00 to 0x0F whose fixed fields the word holds (R201, R202, R209 to R211, R289). -/
def rawMajor0 (w : Nat) : Option Instr :=
  match bits w 1 7 with
  | 0x00 =>
    if bits w 23 9 = 0 then some (.add (fld w 8 5) (fld w 13 5) (fld w 18 5))
    else if bits w 23 9 = 1 then some (.sub (fld w 8 5) (fld w 13 5) (fld w 18 5))
    else if bits w 23 9 = 2 then some (.adds (fld w 8 5) (fld w 13 5) (fld w 18 5))
    else if bits w 23 9 = 3 then some (.subs (fld w 8 5) (fld w 13 5) (fld w 18 5))
    else if bits w 23 9 = 4 then some (.and (fld w 8 5) (fld w 13 5) (fld w 18 5))
    else if bits w 23 9 = 5 then some (.or (fld w 8 5) (fld w 13 5) (fld w 18 5))
    else if bits w 23 9 = 6 then some (.xor (fld w 8 5) (fld w 13 5) (fld w 18 5))
    else if bits w 23 9 = 7 then some (.andn (fld w 8 5) (fld w 13 5) (fld w 18 5))
    else if bits w 23 9 = 8 then some (.orn (fld w 8 5) (fld w 13 5) (fld w 18 5))
    else if bits w 23 9 = 9 then some (.slt (fld w 8 5) (fld w 13 5) (fld w 18 5))
    else if bits w 23 9 = 10 then some (.sltu (fld w 8 5) (fld w 13 5) (fld w 18 5))
    else if bits w 23 9 = 11 then some (.min (fld w 8 5) (fld w 13 5) (fld w 18 5))
    else if bits w 23 9 = 12 then some (.max (fld w 8 5) (fld w 13 5) (fld w 18 5))
    else if bits w 23 9 = 13 then some (.minu (fld w 8 5) (fld w 13 5) (fld w 18 5))
    else if bits w 23 9 = 14 then some (.maxu (fld w 8 5) (fld w 13 5) (fld w 18 5))
    else none
  | 0x01 =>
    if bits w 23 9 = 0 then some (.shl (fld w 8 5) (fld w 13 5) (fld w 18 5))
    else if bits w 23 9 = 1 then some (.shr (fld w 8 5) (fld w 13 5) (fld w 18 5))
    else if bits w 23 9 = 2 then some (.sra (fld w 8 5) (fld w 13 5) (fld w 18 5))
    else if bits w 23 9 = 3 then some (.rot (fld w 8 5) (fld w 13 5) (fld w 18 5))
    else if bits w 18 14 = 128 then some (.clz (fld w 8 5) (fld w 13 5))
    else if bits w 18 14 = 160 then some (.ctz (fld w 8 5) (fld w 13 5))
    else if bits w 18 14 = 192 then some (.popc (fld w 8 5) (fld w 13 5))
    else if bits w 18 14 = 224 then some (.brev (fld w 8 5) (fld w 13 5))
    else none
  | 0x02 =>
    if bits w 23 9 = 0 then some (.mul (fld w 8 5) (fld w 13 5) (fld w 18 5))
    else if bits w 23 9 = 1 then some (.mulh (fld w 8 5) (fld w 13 5) (fld w 18 5))
    else if bits w 23 9 = 2 then some (.mulhu (fld w 8 5) (fld w 13 5) (fld w 18 5))
    else if bits w 23 9 = 3 then some (.div (fld w 8 5) (fld w 13 5) (fld w 18 5))
    else if bits w 23 9 = 4 then some (.divu (fld w 8 5) (fld w 13 5) (fld w 18 5))
    else if bits w 23 9 = 5 then some (.rem (fld w 8 5) (fld w 13 5) (fld w 18 5))
    else if bits w 23 9 = 6 then some (.remu (fld w 8 5) (fld w 13 5) (fld w 18 5))
    else none
  | 0x03 =>
    if bits w 28 4 = 0 then some (.fshl (fld w 8 5) (fld w 13 5) (fld w 18 5) (fld w 23 5))
    else if bits w 28 4 = 1 then some (.fshr (fld w 8 5) (fld w 13 5) (fld w 18 5) (fld w 23 5))
    else none
  | 0x04 =>
    if bits w 23 9 = 0 then some (.crcw (fld w 8 5) (fld w 13 5) (fld w 18 5))
    else none
  | _ => none

/-- The 32-bit instruction with major opcode 0x10 to 0x1F whose fixed fields the word holds (R201, R202, R209 to R211, R289). -/
def rawMajor1 (w : Nat) : Option Instr :=
  match bits w 1 7 with
  | 0x10 =>
    some (.addi (fld w 8 5) (fld w 13 5) (fld w 18 14))
  | 0x11 =>
    some (.andi (fld w 8 5) (fld w 13 5) (fld w 18 14))
  | 0x12 =>
    some (.ori (fld w 8 5) (fld w 13 5) (fld w 18 14))
  | 0x13 =>
    some (.xori (fld w 8 5) (fld w 13 5) (fld w 18 14))
  | 0x14 =>
    some (.slti (fld w 8 5) (fld w 13 5) (fld w 18 14))
  | 0x15 =>
    some (.sltiu (fld w 8 5) (fld w 13 5) (fld w 18 14))
  | 0x16 =>
    if bits w 23 9 = 0 then some (.shli (fld w 8 5) (fld w 13 5) (fld w 18 5))
    else none
  | 0x17 =>
    if bits w 23 9 = 0 then some (.shri (fld w 8 5) (fld w 13 5) (fld w 18 5))
    else none
  | 0x18 =>
    if bits w 23 9 = 0 then some (.srai (fld w 8 5) (fld w 13 5) (fld w 18 5))
    else none
  | 0x19 =>
    if bits w 23 9 = 0 then some (.roti (fld w 8 5) (fld w 13 5) (fld w 18 5))
    else none
  | 0x1A =>
    some (.li (fld w 8 5) (fld w 13 19))
  | 0x1B =>
    some (.lui (fld w 8 5) (fld w 13 19))
  | 0x1C =>
    if bits w 28 4 = 0 then some (.bfx (fld w 8 5) (fld w 13 5) (fld w 23 5) (fld w 18 5))
    else none
  | 0x1D =>
    if bits w 28 4 = 0 then some (.bfi (fld w 8 5) (fld w 13 5) (fld w 23 5) (fld w 18 5))
    else none
  | 0x1E =>
    if bits w 31 1 = 0 then some (.lut3 (fld w 8 5) (fld w 13 5) (fld w 18 5) (fld w 23 8))
    else none
  | _ => none

/-- The 32-bit instruction with major opcode 0x20 to 0x2F whose fixed fields the word holds (R201, R202, R209 to R211, R289). -/
def rawMajor2 (w : Nat) : Option Instr :=
  match bits w 1 7 with
  | 0x20 =>
    some (.beq (fld w 18 14) (fld w 13 5) (fld w 8 5))
  | 0x21 =>
    some (.bne (fld w 18 14) (fld w 13 5) (fld w 8 5))
  | 0x22 =>
    some (.blt (fld w 18 14) (fld w 13 5) (fld w 8 5))
  | 0x23 =>
    some (.bge (fld w 18 14) (fld w 13 5) (fld w 8 5))
  | 0x24 =>
    some (.bltu (fld w 18 14) (fld w 13 5) (fld w 8 5))
  | 0x25 =>
    some (.bgeu (fld w 18 14) (fld w 13 5) (fld w 8 5))
  | 0x26 =>
    some (.jal (fld w 8 5) (fld w 13 19))
  | 0x27 =>
    some (.jalr (fld w 8 5) (fld w 13 5) (fld w 18 14))
  | 0x28 =>
    if bits w 9 4 = 0 then some (.loop (fld w 13 5) (fld w 18 14) (fld w 8 1))
    else none
  | 0x29 =>
    if bits w 9 4 = 0 then some (.loopi (fld w 13 12) (fld w 25 7) (fld w 8 1))
    else none
  | 0x2A =>
    if bits w 8 24 = 0 then some (.nop)
    else if bits w 8 24 = 32768 then some (.done)
    else if bits w 8 24 = 65536 then some (.doneG)
    else if bits w 8 24 = 98304 then some (.yield)
    else if bits w 8 24 = 131072 then some (.cancelchk)
    else if bits w 8 24 = 163840 then some (.mask)
    else if bits w 8 24 = 196608 then some (.unmask)
    else if bits w 25 7 = 4 ∧ bits w 8 15 = 0 then some (.fence (fld w 23 2))
    else none
  | 0x2B =>
    if bits w 25 7 = 0 ∧ bits w 13 5 = 0 then some (.mfc (fld w 8 5) (fld w 18 7))
    else none
  | 0x2C =>
    if bits w 25 7 = 0 ∧ bits w 8 5 = 0 then some (.mtc (fld w 13 5) (fld w 18 7))
    else none
  | 0x2D =>
    if bits w 8 10 = 0 then some (.trap (fld w 18 14))
    else none
  | 0x2E =>
    if bits w 8 10 = 0 then some (.sleep (fld w 18 14))
    else none
  | _ => none

/-- The 32-bit instruction with major opcode 0x30 to 0x3F whose fixed fields the word holds (R201, R202, R209 to R211, R289). -/
def rawMajor3 (w : Nat) : Option Instr :=
  match bits w 1 7 with
  | 0x30 =>
    some (.ldb (fld w 8 5) (fld w 13 5) (fld w 18 14))
  | 0x31 =>
    some (.ldbu (fld w 8 5) (fld w 13 5) (fld w 18 14))
  | 0x32 =>
    some (.ldh (fld w 8 5) (fld w 13 5) (fld w 18 14))
  | 0x33 =>
    some (.ldhu (fld w 8 5) (fld w 13 5) (fld w 18 14))
  | 0x34 =>
    some (.ldw (fld w 8 5) (fld w 13 5) (fld w 18 14))
  | 0x35 =>
    some (.ldd (fld w 8 5) (fld w 13 5) (fld w 18 14))
  | 0x36 =>
    some (.stb (fld w 8 5) (fld w 13 5) (fld w 18 14))
  | 0x37 =>
    some (.sth (fld w 8 5) (fld w 13 5) (fld w 18 14))
  | 0x38 =>
    some (.stw (fld w 8 5) (fld w 13 5) (fld w 18 14))
  | 0x39 =>
    some (.std (fld w 8 5) (fld w 13 5) (fld w 18 14))
  | 0x3A =>
    some (.vld (fld w 8 5) (fld w 13 5) (fld w 18 14))
  | 0x3B =>
    some (.vst (fld w 8 5) (fld w 13 5) (fld w 18 14))
  | 0x3C =>
    some (.vldt (fld w 8 5) (fld w 13 5) (fld w 18 14))
  | 0x3D =>
    if bits w 23 9 = 0 then some (.ldbit (fld w 8 5) (fld w 13 5) (fld w 18 5))
    else none
  | 0x3E =>
    if bits w 23 9 = 0 then some (.stbit (fld w 8 5) (fld w 13 5) (fld w 18 5))
    else none
  | 0x3F =>
    if bits w 26 6 = 0 then some (.ldp (fld w 8 5) (fld w 13 5) (fld w 18 5) (fld w 23 3))
    else if bits w 27 5 = 4 then some (.atom (fld w 8 5) (fld w 13 5) (fld w 18 5) (fld w 23 4))
    else if bits w 27 5 = 5 then some (.atomD (fld w 8 5) (fld w 13 5) (fld w 18 5) (fld w 23 4))
    else if bits w 23 9 = 128 ∧ bits w 8 5 = 0 then some (.alloc (fld w 13 5) (fld w 18 5))
    else if bits w 18 14 = 4128 ∧ bits w 8 5 = 0 then some (.free (fld w 13 5))
    else if bits w 18 14 = 4160 ∧ bits w 8 5 = 0 then some (.pin (fld w 13 5))
    else none
  | _ => none

/-- The 32-bit instruction with major opcode 0x40 to 0x4F whose fixed fields the word holds (R201, R202, R209 to R211, R289). -/
def rawMajor4 (w : Nat) : Option Instr :=
  match bits w 1 7 with
  | 0x40 =>
    if bits w 23 5 = 0 then some (.vaddF (fld w 8 5) (fld w 13 5) (fld w 18 5) (fld w 30 2) (fld w 28 2))
    else none
  | 0x41 =>
    if bits w 23 5 = 0 then some (.vsubF (fld w 8 5) (fld w 13 5) (fld w 18 5) (fld w 30 2) (fld w 28 2))
    else none
  | 0x42 =>
    if bits w 23 5 = 0 then some (.vmulF (fld w 8 5) (fld w 13 5) (fld w 18 5) (fld w 30 2) (fld w 28 2))
    else none
  | 0x43 =>
    some (.vfma (fld w 8 5) (fld w 13 5) (fld w 18 5) (fld w 23 5) (fld w 30 2) (fld w 28 2))
  | 0x44 =>
    if bits w 23 7 = 0 then some (.vmin (fld w 8 5) (fld w 13 5) (fld w 18 5) (fld w 30 2))
    else if bits w 23 7 = 32 then some (.vmax (fld w 8 5) (fld w 13 5) (fld w 18 5) (fld w 30 2))
    else if bits w 18 12 = 2048 then some (.vabs (fld w 8 5) (fld w 13 5) (fld w 30 2))
    else if bits w 18 12 = 3072 then some (.vneg (fld w 8 5) (fld w 13 5) (fld w 30 2))
    else none
  | 0x45 =>
    if bits w 23 7 = 0 then some (.vaddI (fld w 8 5) (fld w 13 5) (fld w 18 5) (fld w 30 2))
    else if bits w 23 7 = 32 then some (.vsubI (fld w 8 5) (fld w 13 5) (fld w 18 5) (fld w 30 2))
    else if bits w 23 7 = 64 then some (.vadds (fld w 8 5) (fld w 13 5) (fld w 18 5) (fld w 30 2))
    else if bits w 23 7 = 96 then some (.vsubs (fld w 8 5) (fld w 13 5) (fld w 18 5) (fld w 30 2))
    else none
  | 0x46 =>
    if bits w 23 7 = 0 then some (.vmulI (fld w 8 5) (fld w 13 5) (fld w 18 5) (fld w 30 2))
    else if bits w 23 7 = 32 then some (.vmulh (fld w 8 5) (fld w 13 5) (fld w 18 5) (fld w 30 2))
    else if bits w 23 7 = 64 then some (.vmulhu (fld w 8 5) (fld w 13 5) (fld w 18 5) (fld w 30 2))
    else none
  | 0x47 =>
    if bits w 23 7 = 0 then some (.vshl (fld w 8 5) (fld w 13 5) (fld w 18 5) (fld w 30 2))
    else if bits w 23 7 = 32 then some (.vshr (fld w 8 5) (fld w 13 5) (fld w 18 5) (fld w 30 2))
    else if bits w 23 7 = 64 then some (.vsra (fld w 8 5) (fld w 13 5) (fld w 18 5) (fld w 30 2))
    else if bits w 23 7 = 96 then some (.vrot (fld w 8 5) (fld w 13 5) (fld w 18 5) (fld w 30 2))
    else none
  | 0x48 =>
    if bits w 23 5 = 0 then some (.vcmp (fld w 8 5) (fld w 13 5) (fld w 18 5) (fld w 30 2) (fld w 28 2))
    else none
  | 0x49 =>
    if bits w 28 2 = 0 then some (.vsel (fld w 8 5) (fld w 13 5) (fld w 18 5) (fld w 23 5) (fld w 30 2))
    else none
  | 0x4A =>
    if bits w 28 2 = 0 then some (.vshuf (fld w 8 5) (fld w 13 5) (fld w 18 5) (fld w 23 5) (fld w 30 2))
    else none
  | 0x4B =>
    if bits w 18 10 = 0 then some (.vred (fld w 8 5) (fld w 13 5) (fld w 30 2) (fld w 28 2))
    else none
  | 0x4C =>
    if bits w 23 7 = 0 then some (.vamax (fld w 8 5) (fld w 13 5) (fld w 18 5) (fld w 30 2))
    else none
  | 0x4D =>
    if bits w 18 10 = 0 then some (.rqacc (fld w 8 5) (fld w 13 5) (fld w 30 2) (fld w 28 2))
    else none
  | 0x4E =>
    if bits w 31 1 = 0 then some (.vlut3 (fld w 8 5) (fld w 13 5) (fld w 18 5) (fld w 23 8))
    else none
  | 0x4F =>
    if bits w 18 14 = 0 then some (.vmov (fld w 8 5) (fld w 13 5))
    else if bits w 18 14 = 1024 then some (.vbcast (fld w 8 5) (fld w 13 5))
    else if bits w 23 9 = 64 then some (.vext (fld w 8 5) (fld w 13 5) (fld w 18 5))
    else if bits w 23 9 = 96 then some (.vins (fld w 8 5) (fld w 13 5) (fld w 18 5))
    else if bits w 18 14 = 4096 then some (.kset (fld w 8 5) (fld w 13 5))
    else if bits w 18 14 = 5120 then some (.kget (fld w 8 5) (fld w 13 5))
    else none
  | _ => none

/-- The 32-bit instruction with major opcode 0x50 to 0x5F whose fixed fields the word holds (R201, R202, R209 to R211, R289). -/
def rawMajor5 (w : Nat) : Option Instr :=
  match bits w 1 7 with
  | 0x50 =>
    if bits w 25 7 = 0 ∧ bits w 8 15 = 0 then some (.tcfg (fld w 23 2))
    else none
  | 0x51 =>
    if bits w 18 14 = 0 then some (.tarm (fld w 8 5) (fld w 13 5))
    else none
  | 0x52 =>
    if bits w 13 19 = 0 then some (.tzero (fld w 8 5))
    else none
  | 0x53 =>
    if bits w 25 7 = 0 ∧ bits w 18 5 = 0 then some (.tdrain (fld w 8 5) (fld w 13 5) (fld w 23 2))
    else none
  | 0x54 =>
    if bits w 18 14 = 0 then some (.tfeed (fld w 8 5) (fld w 13 5))
    else none
  | 0x58 =>
    if bits w 18 14 = 0 then some (.strmCfg (fld w 8 5) (fld w 13 5))
    else if bits w 28 4 = 0 ∧ bits w 23 4 = 1 then some (.strmBind (fld w 8 5) (fld w 13 5) (fld w 18 5) (fld w 27 1))
    else if bits w 13 19 = 2048 then some (.strmStop (fld w 8 5))
    else if bits w 8 24 = 98304 then some (.strmSync)
    else none
  | 0x59 =>
    if bits w 23 9 = 0 then some (.get (fld w 8 5) (fld w 13 5) (fld w 18 5))
    else if bits w 23 9 = 1 then some (.getFar (fld w 8 5) (fld w 13 5) (fld w 18 5))
    else if bits w 23 9 = 2 then some (.getLoc (fld w 8 5) (fld w 13 5) (fld w 18 5))
    else none
  | 0x5A =>
    if bits w 30 2 = 0 ∧ bits w 23 4 = 0 then some (.put (fld w 8 5) (fld w 13 5) (fld w 18 5) (fld w 28 2) (fld w 27 1))
    else if bits w 30 2 = 0 ∧ bits w 23 4 = 1 then some (.putFar (fld w 8 5) (fld w 13 5) (fld w 18 5) (fld w 28 2) (fld w 27 1))
    else none
  | 0x5B =>
    if bits w 23 9 = 0 then some (.wmcfg (fld w 8 5) (fld w 13 5) (fld w 18 5))
    else none
  | 0x5C =>
    if bits w 8 24 = 0 then some (.sfence)
    else if bits w 8 24 = 32768 then some (.fenceFar)
    else none
  | _ => none

/-- The 32-bit instruction with major opcode 0x60 to 0x6F whose fixed fields the word holds (R201, R202, R209 to R211, R289). -/
def rawMajor6 (w : Nat) : Option Instr :=
  match bits w 1 7 with
  | 0x60 =>
    if bits w 30 2 = 0 then some (.send (fld w 8 5) (fld w 13 5) (fld w 18 5) (fld w 23 4) (fld w 28 2) (fld w 27 1))
    else none
  | 0x61 =>
    if bits w 30 2 = 0 then some (.sendm (fld w 8 5) (fld w 13 5) (fld w 18 5) (fld w 23 4) (fld w 28 2) (fld w 27 1))
    else none
  | 0x62 =>
    if bits w 30 2 = 0 ∧ bits w 23 4 = 0 then some (.rst (fld w 8 5) (fld w 13 5) (fld w 18 5) (fld w 28 2) (fld w 27 1))
    else if bits w 30 2 = 0 ∧ bits w 23 4 = 1 then some (.rstDw (fld w 8 5) (fld w 13 5) (fld w 18 5) (fld w 28 2) (fld w 27 1))
    else if bits w 30 2 = 0 ∧ bits w 23 4 = 2 then some (.rstV (fld w 8 5) (fld w 13 5) (fld w 18 5) (fld w 28 2) (fld w 27 1))
    else none
  | 0x63 =>
    if bits w 30 2 = 0 then some (.ratom (fld w 8 5) (fld w 13 5) (fld w 18 5) (fld w 28 2) (fld w 27 1) (fld w 23 4))
    else if bits w 30 2 = 1 then some (.ratomD (fld w 8 5) (fld w 13 5) (fld w 18 5) (fld w 28 2) (fld w 27 1) (fld w 23 4))
    else none
  | 0x64 =>
    if bits w 13 19 = 0 then some (.recv (fld w 8 5))
    else if bits w 23 9 = 1 ∧ bits w 8 5 = 0 then some (.recvM (fld w 13 5) (fld w 18 5))
    else if bits w 18 14 = 64 then some (.recvSel (fld w 8 5) (fld w 13 5))
    else none
  | 0x65 =>
    if bits w 23 9 = 0 then some (.tnew (fld w 8 5) (fld w 13 5) (fld w 18 5))
    else none
  | 0x66 =>
    if bits w 23 9 = 0 then some (.tdec (fld w 8 5) (fld w 13 5) (fld w 18 5))
    else none
  | 0x67 =>
    if bits w 23 9 = 0 then some (.spawn (fld w 8 5) (fld w 13 5) (fld w 18 5))
    else none
  | 0x68 =>
    if bits w 23 9 = 0 then some (.istore (fld w 8 5) (fld w 13 5) (fld w 18 5))
    else if bits w 23 9 = 1 then some (.istoreM (fld w 8 5) (fld w 13 5) (fld w 18 5))
    else none
  | 0x69 =>
    if bits w 31 1 = 0 ∧ bits w 23 4 = 0 then some (.trigArm (fld w 8 5) (fld w 13 5) (fld w 18 5) (fld w 27 4))
    else if bits w 13 19 = 1024 then some (.trigClr (fld w 8 5))
    else none
  | 0x6A =>
    if bits w 23 9 = 0 then some (.cntset (fld w 8 5) (fld w 13 5) (fld w 18 5))
    else if bits w 18 14 = 512 then some (.cntsetV (fld w 8 5) (fld w 13 5))
    else if bits w 18 14 = 32 then some (.cntrd (fld w 8 5) (fld w 13 5))
    else none
  | 0x6B =>
    if bits w 23 9 = 0 then some (.barJoin (fld w 8 5) (fld w 13 5) (fld w 18 5))
    else if bits w 18 14 = 512 ∧ bits w 8 5 = 0 then some (.barJoinX (fld w 13 5))
    else if bits w 18 14 = 32 then some (.barLine (fld w 8 5) (fld w 13 5))
    else if bits w 18 14 = 64 ∧ bits w 8 5 = 0 then some (.barArrive (fld w 13 5))
    else if bits w 18 14 = 96 ∧ bits w 8 5 = 0 then some (.barWait (fld w 13 5))
    else none
  | 0x6C =>
    if bits w 13 19 = 0 then some (.scopeOpen (fld w 8 5))
    else if bits w 8 24 = 32768 then some (.scopeClose)
    else if bits w 18 14 = 64 then some (.cancel (fld w 8 5) (fld w 13 5))
    else none
  | 0x6D =>
    if bits w 23 9 = 0 ∧ bits w 8 5 = 0 then some (.combCfg (fld w 13 5) (fld w 18 5))
    else if bits w 23 9 = 1 then some (.combCfgRoot (fld w 8 5) (fld w 13 5) (fld w 18 5))
    else none
  | 0x6E =>
    if bits w 18 14 = 0 ∧ bits w 8 5 = 0 then some (.folioLoad (fld w 13 5))
    else if bits w 18 14 = 32 then some (.folioRun (fld w 8 5) (fld w 13 5))
    else none
  | _ => none

/-- The 32-bit instruction with major opcode 0x70 to 0x7F whose fixed fields the word holds (R201, R202, R209 to R211, R289). -/
def rawMajor7 (w : Nat) : Option Instr :=
  match bits w 1 7 with
  | 0x70 =>
    some (.cvtRne (fld w 8 5) (fld w 13 5) (fld w 18 5) (fld w 31 1) (fld w 27 4) (fld w 23 4))
  | 0x71 =>
    if bits w 31 1 = 0 then some (.cvtRtz (fld w 8 5) (fld w 13 5) (fld w 18 5) (fld w 27 4) (fld w 23 4))
    else none
  | 0x72 =>
    if bits w 31 1 = 0 then some (.cvtRdn (fld w 8 5) (fld w 13 5) (fld w 18 5) (fld w 27 4) (fld w 23 4))
    else none
  | 0x73 =>
    if bits w 31 1 = 0 then some (.cvtRup (fld w 8 5) (fld w 13 5) (fld w 18 5) (fld w 27 4) (fld w 23 4))
    else none
  | 0x74 =>
    if bits w 24 8 = 0 then some (.cvts (fld w 8 5) (fld w 13 5) (fld w 18 5) (fld w 23 1))
    else none
  | 0x75 =>
    if bits w 27 2 = 0 then some (.bkpack (fld w 8 5) (fld w 13 5) (fld w 18 5) (fld w 31 1) (fld w 29 2) (fld w 25 2) (fld w 23 2))
    else none
  | 0x76 =>
    if bits w 27 2 = 0 then some (.bkunpack (fld w 8 5) (fld w 13 5) (fld w 18 5) (fld w 31 1) (fld w 29 2) (fld w 25 2) (fld w 23 2))
    else none
  | 0x78 =>
    if bits w 23 9 = 0 then some (.migr (fld w 8 5) (fld w 13 5) (fld w 18 5))
    else if bits w 23 9 = 1 then some (.migrG (fld w 8 5) (fld w 13 5) (fld w 18 5))
    else none
  | 0x79 =>
    if bits w 28 4 = 0 ∧ bits w 23 4 = 0 then some (.mapwrSlot (fld w 8 5) (fld w 13 5) (fld w 18 5) (fld w 27 1))
    else if bits w 28 4 = 0 ∧ bits w 23 4 = 1 then some (.mapwrDetour (fld w 8 5) (fld w 13 5) (fld w 18 5) (fld w 27 1))
    else if bits w 28 4 = 0 ∧ bits w 23 4 = 2 then some (.mapwrOwnership (fld w 8 5) (fld w 13 5) (fld w 18 5) (fld w 27 1))
    else if bits w 28 4 = 0 ∧ bits w 23 4 = 3 then some (.mapwrDistbound (fld w 8 5) (fld w 13 5) (fld w 18 5) (fld w 27 1))
    else none
  | 0x7A =>
    if bits w 18 14 = 0 then some (.maprd (fld w 8 5) (fld w 13 5))
    else none
  | 0x7B =>
    if bits w 23 9 = 0 then some (.shoot (fld w 8 5) (fld w 13 5) (fld w 18 5))
    else none
  | 0x7C =>
    if bits w 23 9 = 0 then some (.almset (fld w 8 5) (fld w 13 5) (fld w 18 5))
    else none
  | 0x7D =>
    if bits w 23 9 = 0 then some (.archive (fld w 8 5) (fld w 13 5) (fld w 18 5))
    else if bits w 18 14 = 32 then some (.tileoff (fld w 8 5) (fld w 13 5))
    else none
  | 0x7E =>
    if bits w 8 24 = 0 then some (.eret)
    else if bits w 18 14 = 32 then some (.eccrd (fld w 8 5) (fld w 13 5))
    else none
  | _ => none

/-- The 32-bit instruction whose fixed fields the word holds. -/
def rawWord (w : Nat) : Option Instr :=
  match bits w 5 3 with
  | 0 => rawMajor0 w
  | 1 => rawMajor1 w
  | 2 => rawMajor2 w
  | 3 => rawMajor3 w
  | 4 => rawMajor4 w
  | 5 => rawMajor5 w
  | 6 => rawMajor6 w
  | _ => rawMajor7 w

/-- The instruction, if every field holds a value that the rules allow. -/
def allocated (i : Instr) : Option Instr := if i.wf then some i else none

/-- The instruction whose bits are `w`: a compact one if bit 0 is 0 (R199). -/
def decodeBits (w : Nat) : Option Instr :=
  if w % 2 = 0 then (rawCompact w).bind allocated else (rawWord w).bind allocated

/-- The length in parcels of the encoding whose first parcel is `p`, allocated or not (R199, R350). -/
def parcelsOf (p : Parcel) : Nat := if p.toNat % 2 = 0 then 1 else 2

/-- Decode the instruction at the head of a list of parcels, with the parcels that follow it; none for an unallocated encoding and for
a list that ends too early. -/
def decode : List Parcel → Option (Instr × List Parcel)
  | [] => none
  | p :: ps =>
    if p.toNat % 2 = 0 then (decodeBits p.toNat).map (·, ps)
    else match ps with
      | [] => none
      | q :: qs => (decodeBits (p.toNat + 65536 * q.toNat)).map (·, qs)

/-- The length of an instruction in parcels (R199); 0 for a step that has no encoding. -/
def Instr.parcels : Instr → Nat
  | .add _ _ _ => 2
  | .sub _ _ _ => 2
  | .adds _ _ _ => 2
  | .subs _ _ _ => 2
  | .and _ _ _ => 2
  | .or _ _ _ => 2
  | .xor _ _ _ => 2
  | .andn _ _ _ => 2
  | .orn _ _ _ => 2
  | .slt _ _ _ => 2
  | .sltu _ _ _ => 2
  | .min _ _ _ => 2
  | .max _ _ _ => 2
  | .minu _ _ _ => 2
  | .maxu _ _ _ => 2
  | .shl _ _ _ => 2
  | .shr _ _ _ => 2
  | .sra _ _ _ => 2
  | .rot _ _ _ => 2
  | .clz _ _ => 2
  | .ctz _ _ => 2
  | .popc _ _ => 2
  | .brev _ _ => 2
  | .mul _ _ _ => 2
  | .mulh _ _ _ => 2
  | .mulhu _ _ _ => 2
  | .div _ _ _ => 2
  | .divu _ _ _ => 2
  | .rem _ _ _ => 2
  | .remu _ _ _ => 2
  | .fshl _ _ _ _ => 2
  | .fshr _ _ _ _ => 2
  | .crcw _ _ _ => 2
  | .addi _ _ _ => 2
  | .andi _ _ _ => 2
  | .ori _ _ _ => 2
  | .xori _ _ _ => 2
  | .slti _ _ _ => 2
  | .sltiu _ _ _ => 2
  | .shli _ _ _ => 2
  | .shri _ _ _ => 2
  | .srai _ _ _ => 2
  | .roti _ _ _ => 2
  | .li _ _ => 2
  | .lui _ _ => 2
  | .bfx _ _ _ _ => 2
  | .bfi _ _ _ _ => 2
  | .lut3 _ _ _ _ => 2
  | .beq _ _ _ => 2
  | .bne _ _ _ => 2
  | .blt _ _ _ => 2
  | .bge _ _ _ => 2
  | .bltu _ _ _ => 2
  | .bgeu _ _ _ => 2
  | .jal _ _ => 2
  | .jalr _ _ _ => 2
  | .loop _ _ _ => 2
  | .loopi _ _ _ => 2
  | .nop => 2
  | .done => 2
  | .doneG => 2
  | .yield => 2
  | .cancelchk => 2
  | .mask => 2
  | .unmask => 2
  | .fence _ => 2
  | .mfc _ _ => 2
  | .mtc _ _ => 2
  | .trap _ => 2
  | .sleep _ => 2
  | .ldb _ _ _ => 2
  | .ldbu _ _ _ => 2
  | .ldh _ _ _ => 2
  | .ldhu _ _ _ => 2
  | .ldw _ _ _ => 2
  | .ldd _ _ _ => 2
  | .stb _ _ _ => 2
  | .sth _ _ _ => 2
  | .stw _ _ _ => 2
  | .std _ _ _ => 2
  | .vld _ _ _ => 2
  | .vst _ _ _ => 2
  | .vldt _ _ _ => 2
  | .ldbit _ _ _ => 2
  | .stbit _ _ _ => 2
  | .ldp _ _ _ _ => 2
  | .atom _ _ _ _ => 2
  | .atomD _ _ _ _ => 2
  | .alloc _ _ => 2
  | .free _ => 2
  | .pin _ => 2
  | .vaddF _ _ _ _ _ => 2
  | .vsubF _ _ _ _ _ => 2
  | .vmulF _ _ _ _ _ => 2
  | .vfma _ _ _ _ _ _ => 2
  | .vmin _ _ _ _ => 2
  | .vmax _ _ _ _ => 2
  | .vabs _ _ _ => 2
  | .vneg _ _ _ => 2
  | .vaddI _ _ _ _ => 2
  | .vsubI _ _ _ _ => 2
  | .vadds _ _ _ _ => 2
  | .vsubs _ _ _ _ => 2
  | .vmulI _ _ _ _ => 2
  | .vmulh _ _ _ _ => 2
  | .vmulhu _ _ _ _ => 2
  | .vshl _ _ _ _ => 2
  | .vshr _ _ _ _ => 2
  | .vsra _ _ _ _ => 2
  | .vrot _ _ _ _ => 2
  | .vcmp _ _ _ _ _ => 2
  | .vsel _ _ _ _ _ => 2
  | .vshuf _ _ _ _ _ => 2
  | .vred _ _ _ _ => 2
  | .vamax _ _ _ _ => 2
  | .rqacc _ _ _ _ => 2
  | .vlut3 _ _ _ _ => 2
  | .vmov _ _ => 2
  | .vbcast _ _ => 2
  | .vext _ _ _ => 2
  | .vins _ _ _ => 2
  | .kset _ _ => 2
  | .kget _ _ => 2
  | .tcfg _ => 2
  | .tarm _ _ => 2
  | .tzero _ => 2
  | .tdrain _ _ _ => 2
  | .tfeed _ _ => 2
  | .strmCfg _ _ => 2
  | .strmBind _ _ _ _ => 2
  | .strmStop _ => 2
  | .strmSync => 2
  | .get _ _ _ => 2
  | .getFar _ _ _ => 2
  | .getLoc _ _ _ => 2
  | .put _ _ _ _ _ => 2
  | .putFar _ _ _ _ _ => 2
  | .wmcfg _ _ _ => 2
  | .sfence => 2
  | .fenceFar => 2
  | .send _ _ _ _ _ _ => 2
  | .sendm _ _ _ _ _ _ => 2
  | .rst _ _ _ _ _ => 2
  | .rstDw _ _ _ _ _ => 2
  | .rstV _ _ _ _ _ => 2
  | .ratom _ _ _ _ _ _ => 2
  | .ratomD _ _ _ _ _ _ => 2
  | .recv _ => 2
  | .recvM _ _ => 2
  | .recvSel _ _ => 2
  | .tnew _ _ _ => 2
  | .tdec _ _ _ => 2
  | .spawn _ _ _ => 2
  | .istore _ _ _ => 2
  | .istoreM _ _ _ => 2
  | .trigArm _ _ _ _ => 2
  | .trigClr _ => 2
  | .cntset _ _ _ => 2
  | .cntsetV _ _ => 2
  | .cntrd _ _ => 2
  | .barJoin _ _ _ => 2
  | .barJoinX _ => 2
  | .barLine _ _ => 2
  | .barArrive _ => 2
  | .barWait _ => 2
  | .scopeOpen _ => 2
  | .scopeClose => 2
  | .cancel _ _ => 2
  | .combCfg _ _ => 2
  | .combCfgRoot _ _ _ => 2
  | .folioLoad _ => 2
  | .folioRun _ _ => 2
  | .cvtRne _ _ _ _ _ _ => 2
  | .cvtRtz _ _ _ _ _ => 2
  | .cvtRdn _ _ _ _ _ => 2
  | .cvtRup _ _ _ _ _ => 2
  | .cvts _ _ _ _ => 2
  | .bkpack _ _ _ _ _ _ _ => 2
  | .bkunpack _ _ _ _ _ _ _ => 2
  | .migr _ _ _ => 2
  | .migrG _ _ _ => 2
  | .mapwrSlot _ _ _ _ => 2
  | .mapwrDetour _ _ _ _ => 2
  | .mapwrOwnership _ _ _ _ => 2
  | .mapwrDistbound _ _ _ _ => 2
  | .maprd _ _ => 2
  | .shoot _ _ _ => 2
  | .almset _ _ _ => 2
  | .archive _ _ _ => 2
  | .tileoff _ _ => 2
  | .eret => 2
  | .eccrd _ _ => 2
  | .mov _ _ => 1
  | .addCompact _ _ => 1
  | .subCompact _ _ => 1
  | .andCompact _ _ => 1
  | .orCompact _ _ => 1
  | .xorCompact _ _ => 1
  | .addi5 _ _ => 1
  | .shliCompact _ _ => 1
  | .shriCompact _ _ => 1
  | .sraiCompact _ _ => 1
  | .li5 _ _ => 1
  | .beqz _ _ => 1
  | .bnez _ _ => 1
  | .ldwCompact _ _ => 1
  | .stwCompact _ _ => 1
  | .jr _ => 1
  | .doneCompact => 1
  | .doneGCompact => 1
  | .nopCompact => 1
  | .cancelchkCompact => 1
  | .vauxValid => 0
  | .vauxLost => 0
  | .pwrenAsserted => 0
  | .powerOnStepEnd => 0
  | .powerOnStepLimit => 0
  | .startTimeWrite => 0
  | .pwrenDeasserted => 0
  | .resetNAsserted => 0
  | .attestationRequest => 0
  | .managementRegisterWrite => 0
  | .sensorSample => 0
  | .fieldThermalCheck => 0
  | .thermalPause => 0
  | .thermalResume => 0
  | .almanacSlotBoundary => 0
  | .frameStart => 0
  | .scrub => 0
  | .epochTick => 0
  | .timeExchange => 0
  | .transitTableCheck => 0
  | .stewardHeartbeat => 0
  | .partnerLost => 0
  | .shadeRotation => 0
  | .migrationHalt => 0
  | .migrationFreezeDone => 0
  | .migrationCopyLanded => 0
  | .migrationResume => 0
  | .migrationAbort => 0
  | .forwardedArrival => 0
  | .endMarker => 0
  | .forwardingRetire => 0
  | .finalMarker => 0
  | .cataloguePublish => 0
  | .catalogueInvalidation => 0
  | .publishToken => 0
  | .publishStallTimeout => 0
  | .nameWalkDone => 0
  | .hostQueueExamine => 0
  | .hostQueueRestart => 0
  | .cmpidxWrite => 0
  | .hostWindowWrite => 0
  | .launch => 0
  | .hostMessage => 0
  | .withdrawLaunch => 0
  | .hostCancel => 0
  | .createCarrel => 0
  | .destroyCarrel => 0
  | .archiveRequest => 0
  | .restoreRequest => 0
  | .gangPlace => 0
  | .gangLoad => 0
  | .stewardControlWrite => 0
  | .startMessage => 0
  | .gangRetire => 0
  | .completionNoticeWrite => 0
  | .taskDispatch => 0
  | .agingPromotion => 0
  | .boostNotice => 0
  | .urgentRequest => 0
  | .urgentAccept => 0
  | .urgentOverrun => 0
  | .maskWindowTimeout => 0
  | .killCounterExpiry => 0
  | .waitConditionMet => 0
  | .waitWatchdogExpiry => 0
  | .cancelNotice => 0
  | .cancelAck => 0
  | .cancelDoneReport => 0
  | .retireNotice => 0
  | .retireAckComplete => 0
  | .messageArrival => 0
  | .slabMessage => 0
  | .rstArrival => 0
  | .ratomArrival => 0
  | .ratomReply => 0
  | .tdecArrival => 0
  | .spawnArrival => 0
  | .istoreArrival => 0
  | .getRequestArrival => 0
  | .getReplyArrival => 0
  | .putChunkArrival => 0
  | .performanceAck => 0
  | .copyComplete => 0
  | .copyFaultEnd => 0
  | .farRequest => 0
  | .translationWalkDone => 0
  | .farReplyArrival => 0
  | .edgePortSlot => 0
  | .shootAgentAck => 0
  | .shootTimeout => 0
  | .pageInDone => 0
  | .pageOutDone => 0
  | .lineZeroed => 0
  | .streamElementFetch => 0
  | .tensorCommandPerform => 0
  | .kstepFire => 0
  | .kstepComplete => 0
  | .tdrainPerform => 0
  | .folioOpComplete => 0
  | .combineToken => 0
  | .renormNotice => 0
  | .segmentMarker => 0
  | .barrierArrival => 0
  | .barrierDecrement => 0
  | .barrierReleaseNotice => 0
  | .lineRelease => 0
  | .linePhaseReport => 0
  | .routerFlitArrival => 0
  | .linkGroup => 0
  | .linkDead => 0
  | .deadRouter => 0
  | .peerFrame => 0
  | .peerPortDown => 0
  | .cxlLinkDown => 0
  | .cxlLinkRetrain => 0
  | .correctableError => 0
  | .faultTaken => 0
  | .faultReply => 0
  | .stewardException => 0
  | .unallocatedEncoding => 0
  | .peerPortUp => 0
  | .cxlLinkReturned => 0
  | .ideIntegrityFailure => 0
  | .ideKmKeyExchange => 0
  | .signedConfiguration => 0

/-- A field's bits at their place in the instruction. -/
def placed {n : Nat} (x : BitVec n) (lo : Nat) : Nat := x.toNat * 2 ^ lo

/-- The fixed fields of an instruction with its operand fields. -/
def joinBits (fixed : Nat) (fs : List Nat) : Nat := fs.foldl (· + ·) fixed

/-- The bits of an instruction, from its format and fixed fields (R200 to R203, R289); 0 for a step that has no encoding. -/
def Instr.bits : Instr → Nat
  | .add d a b => joinBits 0x1 [placed d 8, placed a 13, placed b 18]
  | .sub d a b => joinBits 0x800001 [placed d 8, placed a 13, placed b 18]
  | .adds d a b => joinBits 0x1000001 [placed d 8, placed a 13, placed b 18]
  | .subs d a b => joinBits 0x1800001 [placed d 8, placed a 13, placed b 18]
  | .and d a b => joinBits 0x2000001 [placed d 8, placed a 13, placed b 18]
  | .or d a b => joinBits 0x2800001 [placed d 8, placed a 13, placed b 18]
  | .xor d a b => joinBits 0x3000001 [placed d 8, placed a 13, placed b 18]
  | .andn d a b => joinBits 0x3800001 [placed d 8, placed a 13, placed b 18]
  | .orn d a b => joinBits 0x4000001 [placed d 8, placed a 13, placed b 18]
  | .slt d a b => joinBits 0x4800001 [placed d 8, placed a 13, placed b 18]
  | .sltu d a b => joinBits 0x5000001 [placed d 8, placed a 13, placed b 18]
  | .min d a b => joinBits 0x5800001 [placed d 8, placed a 13, placed b 18]
  | .max d a b => joinBits 0x6000001 [placed d 8, placed a 13, placed b 18]
  | .minu d a b => joinBits 0x6800001 [placed d 8, placed a 13, placed b 18]
  | .maxu d a b => joinBits 0x7000001 [placed d 8, placed a 13, placed b 18]
  | .shl d a b => joinBits 0x3 [placed d 8, placed a 13, placed b 18]
  | .shr d a b => joinBits 0x800003 [placed d 8, placed a 13, placed b 18]
  | .sra d a b => joinBits 0x1000003 [placed d 8, placed a 13, placed b 18]
  | .rot d a b => joinBits 0x1800003 [placed d 8, placed a 13, placed b 18]
  | .clz d a => joinBits 0x2000003 [placed d 8, placed a 13]
  | .ctz d a => joinBits 0x2800003 [placed d 8, placed a 13]
  | .popc d a => joinBits 0x3000003 [placed d 8, placed a 13]
  | .brev d a => joinBits 0x3800003 [placed d 8, placed a 13]
  | .mul d a b => joinBits 0x5 [placed d 8, placed a 13, placed b 18]
  | .mulh d a b => joinBits 0x800005 [placed d 8, placed a 13, placed b 18]
  | .mulhu d a b => joinBits 0x1000005 [placed d 8, placed a 13, placed b 18]
  | .div d a b => joinBits 0x1800005 [placed d 8, placed a 13, placed b 18]
  | .divu d a b => joinBits 0x2000005 [placed d 8, placed a 13, placed b 18]
  | .rem d a b => joinBits 0x2800005 [placed d 8, placed a 13, placed b 18]
  | .remu d a b => joinBits 0x3000005 [placed d 8, placed a 13, placed b 18]
  | .fshl d a b c => joinBits 0x7 [placed d 8, placed a 13, placed b 18, placed c 23]
  | .fshr d a b c => joinBits 0x10000007 [placed d 8, placed a 13, placed b 18, placed c 23]
  | .crcw d a b => joinBits 0x9 [placed d 8, placed a 13, placed b 18]
  | .addi d a i => joinBits 0x21 [placed d 8, placed a 13, placed i 18]
  | .andi d a i => joinBits 0x23 [placed d 8, placed a 13, placed i 18]
  | .ori d a i => joinBits 0x25 [placed d 8, placed a 13, placed i 18]
  | .xori d a i => joinBits 0x27 [placed d 8, placed a 13, placed i 18]
  | .slti d a i => joinBits 0x29 [placed d 8, placed a 13, placed i 18]
  | .sltiu d a i => joinBits 0x2B [placed d 8, placed a 13, placed i 18]
  | .shli d a n => joinBits 0x2D [placed d 8, placed a 13, placed n 18]
  | .shri d a n => joinBits 0x2F [placed d 8, placed a 13, placed n 18]
  | .srai d a n => joinBits 0x31 [placed d 8, placed a 13, placed n 18]
  | .roti d a n => joinBits 0x33 [placed d 8, placed a 13, placed n 18]
  | .li d i => joinBits 0x35 [placed d 8, placed i 13]
  | .lui d i => joinBits 0x37 [placed d 8, placed i 13]
  | .bfx d a w p => joinBits 0x39 [placed d 8, placed a 13, placed w 23, placed p 18]
  | .bfi d a w p => joinBits 0x3B [placed d 8, placed a 13, placed w 23, placed p 18]
  | .lut3 d a b t => joinBits 0x3D [placed d 8, placed a 13, placed b 18, placed t 23]
  | .beq o t x => joinBits 0x41 [placed o 18, placed t 13, placed x 8]
  | .bne o t x => joinBits 0x43 [placed o 18, placed t 13, placed x 8]
  | .blt o t x => joinBits 0x45 [placed o 18, placed t 13, placed x 8]
  | .bge o t x => joinBits 0x47 [placed o 18, placed t 13, placed x 8]
  | .bltu o t x => joinBits 0x49 [placed o 18, placed t 13, placed x 8]
  | .bgeu o t x => joinBits 0x4B [placed o 18, placed t 13, placed x 8]
  | .jal d i => joinBits 0x4D [placed d 8, placed i 13]
  | .jalr d a i => joinBits 0x4F [placed d 8, placed a 13, placed i 18]
  | .loop a l k => joinBits 0x51 [placed a 13, placed l 18, placed k 8]
  | .loopi c l k => joinBits 0x53 [placed c 13, placed l 25, placed k 8]
  | .nop => joinBits 0x55 []
  | .done => joinBits 0x800055 []
  | .doneG => joinBits 0x1000055 []
  | .yield => joinBits 0x1800055 []
  | .cancelchk => joinBits 0x2000055 []
  | .mask => joinBits 0x2800055 []
  | .unmask => joinBits 0x3000055 []
  | .fence x => joinBits 0x8000055 [placed x 23]
  | .mfc d n => joinBits 0x57 [placed d 8, placed n 18]
  | .mtc a n => joinBits 0x59 [placed a 13, placed n 18]
  | .trap c => joinBits 0x5B [placed c 18]
  | .sleep m => joinBits 0x5D [placed m 18]
  | .ldb d a i => joinBits 0x61 [placed d 8, placed a 13, placed i 18]
  | .ldbu d a i => joinBits 0x63 [placed d 8, placed a 13, placed i 18]
  | .ldh d a i => joinBits 0x65 [placed d 8, placed a 13, placed i 18]
  | .ldhu d a i => joinBits 0x67 [placed d 8, placed a 13, placed i 18]
  | .ldw d a i => joinBits 0x69 [placed d 8, placed a 13, placed i 18]
  | .ldd d a i => joinBits 0x6B [placed d 8, placed a 13, placed i 18]
  | .stb d a i => joinBits 0x6D [placed d 8, placed a 13, placed i 18]
  | .sth d a i => joinBits 0x6F [placed d 8, placed a 13, placed i 18]
  | .stw d a i => joinBits 0x71 [placed d 8, placed a 13, placed i 18]
  | .std d a i => joinBits 0x73 [placed d 8, placed a 13, placed i 18]
  | .vld d a i => joinBits 0x75 [placed d 8, placed a 13, placed i 18]
  | .vst d a i => joinBits 0x77 [placed d 8, placed a 13, placed i 18]
  | .vldt d a i => joinBits 0x79 [placed d 8, placed a 13, placed i 18]
  | .ldbit d a w => joinBits 0x7B [placed d 8, placed a 13, placed w 18]
  | .stbit d a w => joinBits 0x7D [placed d 8, placed a 13, placed w 18]
  | .ldp d a b w => joinBits 0x7F [placed d 8, placed a 13, placed b 18, placed w 23]
  | .atom d a b o => joinBits 0x2000007F [placed d 8, placed a 13, placed b 18, placed o 23]
  | .atomD d a b o => joinBits 0x2800007F [placed d 8, placed a 13, placed b 18, placed o 23]
  | .alloc a k => joinBits 0x4000007F [placed a 13, placed k 18]
  | .free a => joinBits 0x4080007F [placed a 13]
  | .pin a => joinBits 0x4100007F [placed a 13]
  | .vaddF d a b f r => joinBits 0x81 [placed d 8, placed a 13, placed b 18, placed f 30, placed r 28]
  | .vsubF d a b f r => joinBits 0x83 [placed d 8, placed a 13, placed b 18, placed f 30, placed r 28]
  | .vmulF d a b f r => joinBits 0x85 [placed d 8, placed a 13, placed b 18, placed f 30, placed r 28]
  | .vfma d a b c f r => joinBits 0x87 [placed d 8, placed a 13, placed b 18, placed c 23, placed f 30, placed r 28]
  | .vmin d a b f => joinBits 0x89 [placed d 8, placed a 13, placed b 18, placed f 30]
  | .vmax d a b f => joinBits 0x10000089 [placed d 8, placed a 13, placed b 18, placed f 30]
  | .vabs d a f => joinBits 0x20000089 [placed d 8, placed a 13, placed f 30]
  | .vneg d a f => joinBits 0x30000089 [placed d 8, placed a 13, placed f 30]
  | .vaddI d a b w => joinBits 0x8B [placed d 8, placed a 13, placed b 18, placed w 30]
  | .vsubI d a b w => joinBits 0x1000008B [placed d 8, placed a 13, placed b 18, placed w 30]
  | .vadds d a b w => joinBits 0x2000008B [placed d 8, placed a 13, placed b 18, placed w 30]
  | .vsubs d a b w => joinBits 0x3000008B [placed d 8, placed a 13, placed b 18, placed w 30]
  | .vmulI d a b w => joinBits 0x8D [placed d 8, placed a 13, placed b 18, placed w 30]
  | .vmulh d a b w => joinBits 0x1000008D [placed d 8, placed a 13, placed b 18, placed w 30]
  | .vmulhu d a b w => joinBits 0x2000008D [placed d 8, placed a 13, placed b 18, placed w 30]
  | .vshl d a b w => joinBits 0x8F [placed d 8, placed a 13, placed b 18, placed w 30]
  | .vshr d a b w => joinBits 0x1000008F [placed d 8, placed a 13, placed b 18, placed w 30]
  | .vsra d a b w => joinBits 0x2000008F [placed d 8, placed a 13, placed b 18, placed w 30]
  | .vrot d a b w => joinBits 0x3000008F [placed d 8, placed a 13, placed b 18, placed w 30]
  | .vcmp d a b t p => joinBits 0x91 [placed d 8, placed a 13, placed b 18, placed t 30, placed p 28]
  | .vsel d a b c w => joinBits 0x93 [placed d 8, placed a 13, placed b 18, placed c 23, placed w 30]
  | .vshuf d a b c w => joinBits 0x95 [placed d 8, placed a 13, placed b 18, placed c 23, placed w 30]
  | .vred d a k r => joinBits 0x97 [placed d 8, placed a 13, placed k 30, placed r 28]
  | .vamax d a b f => joinBits 0x99 [placed d 8, placed a 13, placed b 18, placed f 30]
  | .rqacc d a k r => joinBits 0x9B [placed d 8, placed a 13, placed k 30, placed r 28]
  | .vlut3 d a b t => joinBits 0x9D [placed d 8, placed a 13, placed b 18, placed t 23]
  | .vmov d a => joinBits 0x9F [placed d 8, placed a 13]
  | .vbcast d a => joinBits 0x1000009F [placed d 8, placed a 13]
  | .vext d a b => joinBits 0x2000009F [placed d 8, placed a 13, placed b 18]
  | .vins d a b => joinBits 0x3000009F [placed d 8, placed a 13, placed b 18]
  | .kset d a => joinBits 0x4000009F [placed d 8, placed a 13]
  | .kget d a => joinBits 0x5000009F [placed d 8, placed a 13]
  | .tcfg f => joinBits 0xA1 [placed f 23]
  | .tarm d a => joinBits 0xA3 [placed d 8, placed a 13]
  | .tzero d => joinBits 0xA5 [placed d 8]
  | .tdrain d a n => joinBits 0xA7 [placed d 8, placed a 13, placed n 23]
  | .tfeed d a => joinBits 0xA9 [placed d 8, placed a 13]
  | .strmCfg d a => joinBits 0xB1 [placed d 8, placed a 13]
  | .strmBind d a b f => joinBits 0x8000B1 [placed d 8, placed a 13, placed b 18, placed f 27]
  | .strmStop d => joinBits 0x10000B1 [placed d 8]
  | .strmSync => joinBits 0x18000B1 []
  | .get d a b => joinBits 0xB3 [placed d 8, placed a 13, placed b 18]
  | .getFar d a b => joinBits 0x8000B3 [placed d 8, placed a 13, placed b 18]
  | .getLoc d a b => joinBits 0x10000B3 [placed d 8, placed a 13, placed b 18]
  | .put d a b x r => joinBits 0xB5 [placed d 8, placed a 13, placed b 18, placed x 28, placed r 27]
  | .putFar d a b x r => joinBits 0x8000B5 [placed d 8, placed a 13, placed b 18, placed x 28, placed r 27]
  | .wmcfg d a b => joinBits 0xB7 [placed d 8, placed a 13, placed b 18]
  | .sfence => joinBits 0xB9 []
  | .fenceFar => joinBits 0x8000B9 []
  | .send d a b c x r => joinBits 0xC1 [placed d 8, placed a 13, placed b 18, placed c 23, placed x 28, placed r 27]
  | .sendm d a b c x r => joinBits 0xC3 [placed d 8, placed a 13, placed b 18, placed c 23, placed x 28, placed r 27]
  | .rst d a b x r => joinBits 0xC5 [placed d 8, placed a 13, placed b 18, placed x 28, placed r 27]
  | .rstDw d a b x r => joinBits 0x8000C5 [placed d 8, placed a 13, placed b 18, placed x 28, placed r 27]
  | .rstV d a b x r => joinBits 0x10000C5 [placed d 8, placed a 13, placed b 18, placed x 28, placed r 27]
  | .ratom d a b x r o => joinBits 0xC7 [placed d 8, placed a 13, placed b 18, placed x 28, placed r 27, placed o 23]
  | .ratomD d a b x r o => joinBits 0x400000C7 [placed d 8, placed a 13, placed b 18, placed x 28, placed r 27, placed o 23]
  | .recv d => joinBits 0xC9 [placed d 8]
  | .recvM a b => joinBits 0x8000C9 [placed a 13, placed b 18]
  | .recvSel d a => joinBits 0x10000C9 [placed d 8, placed a 13]
  | .tnew d a b => joinBits 0xCB [placed d 8, placed a 13, placed b 18]
  | .tdec d a b => joinBits 0xCD [placed d 8, placed a 13, placed b 18]
  | .spawn d a b => joinBits 0xCF [placed d 8, placed a 13, placed b 18]
  | .istore d a b => joinBits 0xD1 [placed d 8, placed a 13, placed b 18]
  | .istoreM d a b => joinBits 0x8000D1 [placed d 8, placed a 13, placed b 18]
  | .trigArm d a b n => joinBits 0xD3 [placed d 8, placed a 13, placed b 18, placed n 27]
  | .trigClr d => joinBits 0x8000D3 [placed d 8]
  | .cntset d a b => joinBits 0xD5 [placed d 8, placed a 13, placed b 18]
  | .cntsetV d a => joinBits 0x80000D5 [placed d 8, placed a 13]
  | .cntrd d a => joinBits 0x8000D5 [placed d 8, placed a 13]
  | .barJoin d a b => joinBits 0xD7 [placed d 8, placed a 13, placed b 18]
  | .barJoinX a => joinBits 0x80000D7 [placed a 13]
  | .barLine d a => joinBits 0x8000D7 [placed d 8, placed a 13]
  | .barArrive a => joinBits 0x10000D7 [placed a 13]
  | .barWait a => joinBits 0x18000D7 [placed a 13]
  | .scopeOpen d => joinBits 0xD9 [placed d 8]
  | .scopeClose => joinBits 0x8000D9 []
  | .cancel d a => joinBits 0x10000D9 [placed d 8, placed a 13]
  | .combCfg a b => joinBits 0xDB [placed a 13, placed b 18]
  | .combCfgRoot d a b => joinBits 0x8000DB [placed d 8, placed a 13, placed b 18]
  | .folioLoad a => joinBits 0xDD [placed a 13]
  | .folioRun d a => joinBits 0x8000DD [placed d 8, placed a 13]
  | .cvtRne d a b x f t => joinBits 0xE1 [placed d 8, placed a 13, placed b 18, placed x 31, placed f 27, placed t 23]
  | .cvtRtz d a b f t => joinBits 0xE3 [placed d 8, placed a 13, placed b 18, placed f 27, placed t 23]
  | .cvtRdn d a b f t => joinBits 0xE5 [placed d 8, placed a 13, placed b 18, placed f 27, placed t 23]
  | .cvtRup d a b f t => joinBits 0xE7 [placed d 8, placed a 13, placed b 18, placed f 27, placed t 23]
  | .cvts d a b f => joinBits 0xE9 [placed d 8, placed a 13, placed b 18, placed f 23]
  | .bkpack d a b x r k e => joinBits 0xEB [placed d 8, placed a 13, placed b 18, placed x 31, placed r 29, placed k 25, placed e 23]
  | .bkunpack d a b x r k e => joinBits 0xED [placed d 8, placed a 13, placed b 18, placed x 31, placed r 29, placed k 25, placed e 23]
  | .migr d a b => joinBits 0xF1 [placed d 8, placed a 13, placed b 18]
  | .migrG d a b => joinBits 0x8000F1 [placed d 8, placed a 13, placed b 18]
  | .mapwrSlot d a b p => joinBits 0xF3 [placed d 8, placed a 13, placed b 18, placed p 27]
  | .mapwrDetour d a b p => joinBits 0x8000F3 [placed d 8, placed a 13, placed b 18, placed p 27]
  | .mapwrOwnership d a b p => joinBits 0x10000F3 [placed d 8, placed a 13, placed b 18, placed p 27]
  | .mapwrDistbound d a b p => joinBits 0x18000F3 [placed d 8, placed a 13, placed b 18, placed p 27]
  | .maprd d a => joinBits 0xF5 [placed d 8, placed a 13]
  | .shoot d a b => joinBits 0xF7 [placed d 8, placed a 13, placed b 18]
  | .almset d a b => joinBits 0xF9 [placed d 8, placed a 13, placed b 18]
  | .archive d a b => joinBits 0xFB [placed d 8, placed a 13, placed b 18]
  | .tileoff d a => joinBits 0x8000FB [placed d 8, placed a 13]
  | .eret => joinBits 0xFD []
  | .eccrd d a => joinBits 0x8000FD [placed d 8, placed a 13]
  | .mov a b => joinBits 0x2 [placed a 6, placed b 11]
  | .addCompact a b => joinBits 0x4 [placed a 6, placed b 11]
  | .subCompact a b => joinBits 0x6 [placed a 6, placed b 11]
  | .andCompact a b => joinBits 0x8 [placed a 6, placed b 11]
  | .orCompact a b => joinBits 0xA [placed a 6, placed b 11]
  | .xorCompact a b => joinBits 0xC [placed a 6, placed b 11]
  | .addi5 a i => joinBits 0xE [placed a 6, placed i 11]
  | .shliCompact a n => joinBits 0x10 [placed a 6, placed n 11]
  | .shriCompact a n => joinBits 0x12 [placed a 6, placed n 11]
  | .sraiCompact a n => joinBits 0x14 [placed a 6, placed n 11]
  | .li5 a i => joinBits 0x16 [placed a 6, placed i 11]
  | .beqz a o => joinBits 0x18 [placed a 6, placed o 11]
  | .bnez a o => joinBits 0x1A [placed a 6, placed o 11]
  | .ldwCompact a b => joinBits 0x1C [placed a 6, placed b 11]
  | .stwCompact a b => joinBits 0x1E [placed a 6, placed b 11]
  | .jr a => joinBits 0x20 [placed a 6]
  | .doneCompact => joinBits 0x22 []
  | .doneGCompact => joinBits 0x62 []
  | .nopCompact => joinBits 0x24 []
  | .cancelchkCompact => joinBits 0x26 []
  | .vauxValid => 0
  | .vauxLost => 0
  | .pwrenAsserted => 0
  | .powerOnStepEnd => 0
  | .powerOnStepLimit => 0
  | .startTimeWrite => 0
  | .pwrenDeasserted => 0
  | .resetNAsserted => 0
  | .attestationRequest => 0
  | .managementRegisterWrite => 0
  | .sensorSample => 0
  | .fieldThermalCheck => 0
  | .thermalPause => 0
  | .thermalResume => 0
  | .almanacSlotBoundary => 0
  | .frameStart => 0
  | .scrub => 0
  | .epochTick => 0
  | .timeExchange => 0
  | .transitTableCheck => 0
  | .stewardHeartbeat => 0
  | .partnerLost => 0
  | .shadeRotation => 0
  | .migrationHalt => 0
  | .migrationFreezeDone => 0
  | .migrationCopyLanded => 0
  | .migrationResume => 0
  | .migrationAbort => 0
  | .forwardedArrival => 0
  | .endMarker => 0
  | .forwardingRetire => 0
  | .finalMarker => 0
  | .cataloguePublish => 0
  | .catalogueInvalidation => 0
  | .publishToken => 0
  | .publishStallTimeout => 0
  | .nameWalkDone => 0
  | .hostQueueExamine => 0
  | .hostQueueRestart => 0
  | .cmpidxWrite => 0
  | .hostWindowWrite => 0
  | .launch => 0
  | .hostMessage => 0
  | .withdrawLaunch => 0
  | .hostCancel => 0
  | .createCarrel => 0
  | .destroyCarrel => 0
  | .archiveRequest => 0
  | .restoreRequest => 0
  | .gangPlace => 0
  | .gangLoad => 0
  | .stewardControlWrite => 0
  | .startMessage => 0
  | .gangRetire => 0
  | .completionNoticeWrite => 0
  | .taskDispatch => 0
  | .agingPromotion => 0
  | .boostNotice => 0
  | .urgentRequest => 0
  | .urgentAccept => 0
  | .urgentOverrun => 0
  | .maskWindowTimeout => 0
  | .killCounterExpiry => 0
  | .waitConditionMet => 0
  | .waitWatchdogExpiry => 0
  | .cancelNotice => 0
  | .cancelAck => 0
  | .cancelDoneReport => 0
  | .retireNotice => 0
  | .retireAckComplete => 0
  | .messageArrival => 0
  | .slabMessage => 0
  | .rstArrival => 0
  | .ratomArrival => 0
  | .ratomReply => 0
  | .tdecArrival => 0
  | .spawnArrival => 0
  | .istoreArrival => 0
  | .getRequestArrival => 0
  | .getReplyArrival => 0
  | .putChunkArrival => 0
  | .performanceAck => 0
  | .copyComplete => 0
  | .copyFaultEnd => 0
  | .farRequest => 0
  | .translationWalkDone => 0
  | .farReplyArrival => 0
  | .edgePortSlot => 0
  | .shootAgentAck => 0
  | .shootTimeout => 0
  | .pageInDone => 0
  | .pageOutDone => 0
  | .lineZeroed => 0
  | .streamElementFetch => 0
  | .tensorCommandPerform => 0
  | .kstepFire => 0
  | .kstepComplete => 0
  | .tdrainPerform => 0
  | .folioOpComplete => 0
  | .combineToken => 0
  | .renormNotice => 0
  | .segmentMarker => 0
  | .barrierArrival => 0
  | .barrierDecrement => 0
  | .barrierReleaseNotice => 0
  | .lineRelease => 0
  | .linePhaseReport => 0
  | .routerFlitArrival => 0
  | .linkGroup => 0
  | .linkDead => 0
  | .deadRouter => 0
  | .peerFrame => 0
  | .peerPortDown => 0
  | .cxlLinkDown => 0
  | .cxlLinkRetrain => 0
  | .correctableError => 0
  | .faultTaken => 0
  | .faultReply => 0
  | .stewardException => 0
  | .unallocatedEncoding => 0
  | .peerPortUp => 0
  | .cxlLinkReturned => 0
  | .ideIntegrityFailure => 0
  | .ideKmKeyExchange => 0
  | .signedConfiguration => 0

/-- The parcels of an instruction, the first at the lower address (R199). -/
def encode (i : Instr) : List Parcel :=
  match i.parcels with
  | 0 => []
  | 1 => [BitVec.ofNat 16 i.bits]
  | _ => [BitVec.ofNat 16 i.bits, BitVec.ofNat 16 (i.bits / 65536)]

/-- The parcels of an instruction given by its bits as the opcode table numbers them: every bit above `nbits` is 0. -/
def tableParcels (nbits w : Nat) : List Parcel :=
  [BitVec.ofNat 16 (w % 2 ^ nbits), BitVec.ofNat 16 (w % 2 ^ nbits / 65536)]

/-- The instruction that the decoder reads from an instruction whose bits are `w`. -/
def decodeTableWord (nbits w : Nat) : Option Instr := (decode (tableParcels nbits w)).map (·.1)

end Sys2Proof
end

