-- ==== Sys2Proof/Config.lean ====
section
/-!
DEFINITION. What an implementation fixes, and the free values: constants without a body, so that nothing can evaluate them.
-/

namespace Sys2Proof.Config

/-- The free clk that pass before a read of c.time, beyond the clk the model counts (R168; log entry 7). -/
opaque freeDelay : Nat → Nat

/-- The signature of an attestation report (R198; log entry 7): a free value of the report's contents. -/
opaque attestSignature : List (BitVec 8) → List (BitVec 8)

/-- The fixed hash of (source name, destination name) that picks a peer port (R182; log entry 7). -/
opaque peerHash : Word → Word → Nat

/-- The delays in ns of a time exchange's flits (R169; log entry 7): free values, indexed by the model's counter. -/
opaque exchangeDelay : Nat → Nat

/-- The bytes of an archive's areas whose layout the spec does not give (R186; log entry 7), indexed by the model's counter. -/
opaque archiveByte : Nat → Nat → BitVec 8

/-- SHA-384 (R198; log entry 7). -/
opaque sha384 : List (BitVec 8) → List (BitVec 8)

/-- The two Genesh images of the package's flash (R197; log entry 7): 0 bank A, 1 bank B; each its bytes, its security version and its signature; and whether a
signature verifies against the fused key. -/
opaque flash : Nat → List (BitVec 8) × BitVec 8 × List (BitVec 8)
opaque verifies : List (BitVec 8) → List (BitVec 8) → Bool

/-- The width and rate to which an edge port trains (R171; log entry 7). -/
opaque training : Nat → Nat

/-- The hops of a detour that the stewards install at boot round a tile (R194; log entry 7): by the router's operand and the link. -/
opaque detourHops : Nat → Nat → List (BitVec 2)

/-- Of the eight fields of a port's side, the one nearest to an edge port (R13, R377; log entry 7), and to a peer port (R14, R397). -/
opaque portField : Nat → Nat
opaque peerField : Nat → Nat

/-- The place of an agent along the outermost row or column of its field (R12, R13; log entry 7): 0 to 47 edge agents, from 48 on peer ports. -/
opaque agentPlace : Nat → Nat

/-- Transit messages that a destination can hold a receive credit for beyond the first (R149), and messages that a hold buffer takes beyond the first
(R69; log entry 7). -/
opaque transitCredits : Nat
opaque holdRoom : Nat

/-- How many slots of a resource of R258 beyond the first Genesh's default grants to a carrel (R149; log entry 7). -/
opaque grantSlots : Nat → Nat → Nat

/-- The frames beyond the first that a peer port may have sent on a logical channel for credits not yet returned (R182; log entry 7). -/
opaque peerCredits : Nat

/-- The peer ports installed at creation that lead from a carrel wafer towards another (R182; log entry 7). -/
opaque peerList : Nat → Nat → List Nat

/-- The capacities in bytes of the devices that a downstream port enumerates (R179; log entry 7). -/
opaque deviceBytes : Nat → List Nat

/-- This wafer's ID in the wafer lists of R180 (log entry 7). -/
opaque waferId : BitVec 16

/-- The fused security version (R195; log entry 2). -/
def svn : BitVec 8 := 0

/-- The frame of the almanac in ns (R146). -/
def frameNs : Nat := 998644

/-- The rate of a field's time counter in 2^-32 ns per clk at the nominal 1.05 GHz clock (R168; log entry 6):
floor(2^32 × 1000 / 1050). -/
def nominalRate : Nat := 4090445043

/-- The instant kill and urgent limits of R35, R50, R52, R53 in clk. -/
def haltLimit : Nat := 157
def urgentLimit : Nat := 256
def urgentDuty : Nat := 1792
def urgentWindow : Nat := 4096
def maskLimit : Nat := 256
/-- Clk of waiting after which a ready entry ages (R48), and of one unit of the wait limit (R361). -/
def agingClk : Nat := 65536
def watchdogUnit : Nat := 65536
/-- Clk between epochs of the page map (R76). -/
def epochClk : Nat := 4096
/-- Clk after which a SHOOT is forced (R378) and after which a publish is broadcast again (R379). -/
def shootLimit : Nat := 2097152
def publishLimit : Nat := 65536

end Sys2Proof.Config
end

