-- ==== Sys2Proof/Machine/Wire.lean ====
section
/-!
DEFINITION. What passes between tiles, stewards, routers and edge agents: physical coordinates (R7), the parts of message headers (R142),
operations (R290) and combine tokens (R150, R153), and the flits in which a message travels. The bits of flits are in Machine/Fabric.lean.
-/

namespace Sys2Proof

/-- A physical coordinate of the wafer (R7). -/
structure Phys where
  px : Nat
  py : Nat
deriving DecidableEq, Repr

/-- A link of a router, or its local port (R139). -/
inductive Dir where
  | lcl | west | north | east | south
deriving DecidableEq, Repr

/-- The two execution levels (R30). -/
inductive Level where
  | normal | urgent
deriving DecidableEq, Repr

/-- The block formats (R105). -/
inductive BkFmt where
  | bk8 | bk6 | bk4
deriving DecidableEq, Repr

/-- The element types of a combining route (R150). -/
inductive CombType where
  | fp32 | bf16 | int32 | int64 | blk (f : BkFmt)
deriving DecidableEq, Repr

/-- A partial block in flight (R153): absent (R151), finite with biased exponent `x` and 32 partial elements, overrange with 32 signs,
or error with its origin; each that is present with its COARSE bit (R158: some shift on its way discarded a 1 bit). -/
inductive PBlock where
  | absent
  | finite (x : Nat) (p : List Int) (coarse : Bool)
  | over (signs : List Bool) (coarse : Bool)
  | err (origin : BitVec 14) (coarse : Bool)
deriving DecidableEq, Repr

/-- The data of a combine token: a 16-byte element (R150), an element absent in every lane (R151), or a partial block (R153). -/
inductive TokData where
  | lanes (data : VWord)
  | absent
  | blk (p : PBlock)
deriving DecidableEq, Repr

/-- A combine token (R150): the route and the index of its tag, its NV, OF, UF, NX flags, and its data. -/
structure CombTok where
  route : BitVec 8
  idx : Nat
  flags : BitVec 4
  data : TokData
deriving DecidableEq, Repr

namespace Machine

/-- A fault record as its raiser gives it (R336): code, kind, level of origin, agent, c.faddr and c.finfo. -/
structure FaultRec where
  code : BitVec 8
  precise : Bool := false
  hard : Bool := false
  urgent : Bool := false
  agent : BitVec 3 := 0
  addr : Word := 0
  info : Word := 0
deriving DecidableEq, Repr

/-- What a far request is for: a chunk of a copy at an offset (R302), a far-window LDP's word (R268), an element of a pattern (R90), 256 bytes of a
page at an offset (R79), each by its number; or nothing any more, its residency gone. -/
inductive FarFor where
  | copy (id off : Nat) | word (id : Nat) | elem (id : Nat) | page (id off : Nat) | gone
deriving DecidableEq, Repr

end Machine

/-- The part of a message header that the issuer's network interface writes (R142). -/
structure Hdr where
  dst : Word
  src : Word
  scope : Word
  cls : BitVec 4
  prio : BitVec 2
  urgent : Bool
  carrel : BitVec 11
deriving DecidableEq, Repr

/-- How a remote operation ended at its destination: performed, refused for an address or an uncorrectable word or because no
residency is bound there (R375, R346), or dropped under a covering notice (R37); or on its way: refused by a router that is cut off (R387), for want of a path to
a wafer (R398), or at an unmapped name of another wafer (R374). -/
inductive AckKind where
  | performed | refused | uncorrectable | unbound | dropped | unreachable | noPath | unmapped
deriving DecidableEq, Repr

/-- The operations of R142 that pass between residencies (R290), with the fields their operation flits carry. A copy, a RATOM and a
barrier arrival carry the number under which the issuer keeps them; an invalidation the field, the generation and the tile that it is for, and a migration's copy the tile
that it comes from. `off` of a GET request counts the bytes that its source has read. A decrement
says whether a cancel notice sent it, and a release which withdrawn scope's decrement completed the generation (log entry 60). -/
inductive Body where
  | send (tag : Word) (payload : List Byte)
  | rst (addr : Nat) (data : List Byte) (cnt : Option (BitVec 4))
  | ratom (addr : Nat) (op : Nat) (wide : Bool) (reg : BitVec 5) (mark : Nat) (operand cmp : DWord)
  | ratomReply (reg : BitVec 5) (wide : Bool) (mark : Nat) (old : DWord) (how : AckKind)
  | tdec (addr : Nat) (amount : Word)
  | spawn (addr : Nat) (word arg : Word)
  | istore (first : Nat) (parcels : List Parcel)
  | getReq (addr len copy dst off : Nat)
  | getReply (copy off : Nat) (data : List Byte)
  | putChunk (copy addr : Nat) (data : List Byte) (wm : Option (BitVec 2)) (cnt : Option (BitVec 4)) (last : Bool)
      (folioTag : Option (BitVec 8))
  | ack (cls : BitVec 2) (op : Nat) (how : AckKind) (addr : Nat) (copy : Option Nat)
  | combine (t : CombTok)
  | renorm (route : BitVec 8) (seg x : Nat)
  | marker (route : BitVec 8) (seg run : Nat)
  | barArrive (addr : Nat)
  | barReply (home : Word) (addr : Nat) (gen : BitVec 8)
  | barDec (addr : Nat) (notice : Bool)
  | barRelease (home : Word) (addr : Nat) (gen : BitVec 8) (cause : Option Word)
  | cancelNotice (scope : Word)
  | cancelAck (scope total : Word)
  | retireNotice (scope : Word)
  | retireAck (scope : Word)
  | lineReport (line : BitVec 2)
  | lineRelease (line : BitVec 2)
  | boostCount (cls : BitVec 2) (home : Word) (addr : Nat)
  | boostLine (cls : BitVec 2) (line : BitVec 2)
  | control (tilename gang rank stage : Word) (pw : List (BitVec 2 × Nat × Word)) (pin : Bool)
  | start (gang : Word) (arg : Word)
  | invalidate (fx fy : Nat) (gen : BitVec 16) (tile : Phys)
  | migCopy (src : Phys)
  | endMarker (ch : BitVec 2)
  | finalMarker
  | farReq (use : Machine.FarFor) (va len : Nat) (write : Bool) (data : List Byte)
  | farReply (use : Machine.FarFor) (len : Nat) (write : Bool) (bad : Option Machine.FaultRec) (data : List Byte)
deriving DecidableEq, Repr

/-- The way of a message through the fabric, fixed as it is sent (R63, R140, R142): its number, the coordinates of the network interfaces at its two
ends, its virtual channel and lane, the flags of its header, the flits sent so far, those that the far end has still to take, whether one has been discarded, and of a
transit message the almanac slot, counted over the frames, at which the run that admitted it ends (R149, R386). -/
structure Way where
  id : Nat
  src : Phys
  dst : Phys
  vc : BitVec 3
  stw : Bool := false
  fwd : Bool := false
  lane : BitVec 2 := 0
  sent : Nat := 0
  left : Nat
  lost : Bool := false
  runEnd : Nat := 0
deriving DecidableEq, Repr

/-- A message in flight. The issuer's network interface keeps with it whether an armed slot issued it, and whether at the urgent level
(R336, R369 0x5C); an acknowledgement brings both back. `dest` is the coordinate by which a steward, an edge agent or a tile names the far end, where it does
so (R70, R86, R251), and `origin` that of the network interface that sent it. `way` is its way while its flits travel; then `place` is the coordinate at which it has arrived whole, with a number that counts
arrivals, and `fwd` says that a forwarding entry has sent it there (R69); `orphan` says that the residency which issued it has been retired (R56), so that no
acknowledgement is counted. -/
structure Packet where
  hdr : Hdr
  body : Body
  armed : Bool := false
  urg : Bool := false
  dest : Option Phys := none
  origin : Phys := { px := 0, py := 0 }
  way : Option Way := none
  place : Option (Phys × Nat) := none
  fwd : Bool := false
  orphan : Bool := false
deriving DecidableEq, Repr

/-- What an urgent handler sent to its own residency: an agent's fault of it belongs to that level (R335). -/
def Packet.ownUrgent (p : Packet) : Bool := p.urg && p.hdr.src == p.hdr.dst

/-- The scope whose withdrawal under a cancel notice a packet reports (log entry 60). -/
def Packet.cause (p : Packet) : Option Word := match p.body with
  | .barDec _ true => some p.hdr.scope
  | _ => none

/-- A message header (R142). -/
structure FlitHdr where
  dst : Phys
  vc : BitVec 3
  carrel : BitVec 11
  op : BitVec 5
  cls : BitVec 4 := 0
  prio : BitVec 2 := 0
  urgent : Bool := false
  len : BitVec 6 := 1
  stw : Bool := false
  lane : BitVec 2 := 0
  fwd : Bool := false
  lch : BitVec 2 := 0
  reserved : BitVec 4 := 0
  scope : Word := 0
  src : Word := 0
deriving DecidableEq, Repr

/-- A flit in a router: number `i` of message `msg`, 0 its header; what the message's header says; the hops of a detour that it has still to take
(R144); and the clk since which it stands at the head of its buffer (R141). Every flit is kept with its message's header, which a router remembers from the
flit that brought it (log entry 18). -/
structure Flit where
  msg : Nat
  i : Nat
  hdr : FlitHdr
  hops : List (BitVec 2) := []
  since : Nat := 0
deriving DecidableEq, Repr

/-- The operation code of R142 that carries a body. -/
def Body.op : Body → Nat
  | .send _ _ => 0x00
  | .rst _ _ _ => 0x01
  | .ratom _ _ _ _ _ _ _ => 0x02
  | .ratomReply _ _ _ _ _ => 0x03
  | .tdec _ _ => 0x04
  | .spawn _ _ _ => 0x05
  | .istore _ _ => 0x06
  | .getReq _ _ _ _ _ => 0x07
  | .getReply _ _ _ => 0x08
  | .putChunk _ _ _ _ _ _ _ => 0x09
  | .ack _ _ _ _ _ => 0x0A
  | .combine _ => 0x0B
  | .renorm _ _ _ => 0x0C
  | .marker _ _ _ => 0x0D
  | .barArrive _ => 0x0E
  | .barReply _ _ _ => 0x0A
  | .barDec _ _ => 0x0F
  | .barRelease _ _ _ _ => 0x10
  | .cancelNotice _ => 0x11
  | .cancelAck _ _ => 0x12
  | .retireNotice _ => 0x13
  | .retireAck _ => 0x12
  | .lineReport _ => 0x17
  | .lineRelease _ => 0x10
  | .boostCount _ _ _ => 0x14
  | .boostLine _ _ => 0x14
  | .control _ _ _ _ _ _ => 0x17
  | .start _ _ => 0x00
  | .invalidate _ _ _ _ => 0x15
  | .migCopy _ => 0x1A
  | .endMarker _ => 0x16
  | .finalMarker => 0x16
  | .farReq _ _ _ _ _ => 0x18
  | .farReply _ _ _ _ _ => 0x19

end Sys2Proof
end

