-- ==== Sys2Proof/Machine/State.lean ====
section
/-!
DEFINITION. The state of the machine as plain data: every register, queue and table that the spec gives the device, from one
tile's registers (R23, R204 to R208) to its field (R6, R60, R146), carrels (R17), wafer edge (R171 to R188) and package (R192).
-/

namespace Sys2Proof.Machine

/-- Memory as (address, byte) pairs in canonical form: addresses strictly rising, no entry 0 (what an unlisted byte reads as). -/
abbrev Memory := List Host.Cell

/-- The canonical form above a bound: every address at or above `lo`, strictly rising, and no byte 0. -/
def Memory.wfFrom : Nat → Memory → Bool
  | _, [] => true
  | lo, (a, b) :: m => decide (lo ≤ a) && decide (b ≠ 0) && Memory.wfFrom (a + 1) m

/-- The canonical form of memory. -/
def Memory.wf (m : Memory) : Bool := Memory.wfFrom 0 m

/-- One bank of registers (R204, R205). -/
structure Bank where
  s : Vector Word 32 := Vector.replicate 32 0
  v : Vector VWord 16 := Vector.replicate 16 0
  k : Vector (BitVec 16) 8 := Vector.replicate 8 0
deriving DecidableEq, Repr

/-- The state of an accumulator output (R115). -/
inductive OutState where
  | finite | infinite (neg : Bool) | error (origin : BitVec 14)
deriving DecidableEq, Repr

/-- One accumulator output (R112). -/
structure Output where
  st : OutState := .finite
  acc : Word := 0
  inner : Int := 0
  tag : Int := 0
  fmt : BkFmt := .bk8
  n : Nat := 0
deriving DecidableEq, Repr

/-- An accumulator tile and its promotion interval (R111, R112, R291). -/
structure Accum where
  outs : Vector Output 64 := Vector.replicate 64 {}
  p : Nat := 256
deriving DecidableEq, Repr

/-- An open hardware loop (R239): its body [start, stop), the killable flag and c.lc of its level. -/
structure Loop where
  start : Nat
  stop : Nat
  kill : Bool
  left : Word
deriving DecidableEq, Repr

/-- What runs at a level (R27, R244): nothing, a START, a task with its record's address, or a message's handler. -/
inductive Work where
  | none | start | task (rec : Word) | msg (id : Nat) | boot
deriving DecidableEq, Repr

/-- A receive cursor (R304): a class, the number of the current message, and an offset. -/
structure Cursor where
  cls : BitVec 4 := 0
  cur : Option Nat := none
  off : Nat := 0
deriving DecidableEq, Repr

/-- What a level holds of its own and the halt state saves (R51): the pc, the registers of the running work, the open loops with the
innermost first, the kill counter, the receive cursor, and the number of the work (R36 tells what a work made from what earlier works of
its scope made). -/
structure Ctx where
  pc : Pc := 0x20
  cls : BitVec 4 := 0
  tag : Word := 0
  src : Word := 0
  scope : Word := 0
  prio : BitVec 2 := 3
  loops : List Loop := []
  kill : Option Nat := none
  cursor : Cursor := {}
  work : Work := .none
  own : Nat := 0
deriving DecidableEq, Repr

/-- The states of R24 that R24 does not overlay with Urgent, Migrating or Faulted. -/
inductive Phase where
  | unbound | loading | idle | running | waiting | finished
deriving DecidableEq, Repr

/-- A waiting instruction (R357, R361): its reason, the address or name involved, the clk it has waited, and the names of its rectangle that
have been walked and need no second look (R374). -/
structure Wait where
  reason : Nat
  addr : Word
  clk : Nat
  seen : List Word := []
deriving DecidableEq, Repr

/-- The spill copy of a page (R79, R373): none, on its way to the spill slot, there, or lost. -/
inductive Spill where
  | absent | writing | held | lost
deriving DecidableEq, Repr

/-- The transfer of a page to or from its spill slot (R79): its number, its direction, the bytes asked for and those answered, the cause that has
failed it, and the frame taken for a page that comes in. -/
structure PageIo where
  id : Nat
  out : Bool
  sent : Nat := 0
  done : Nat := 0
  bad : Option Word := none
  frame : Option Nat := none
deriving DecidableEq, Repr

/-- A page map entry (R76) with its spill copy, whether a page-in runs, its transfer (R79), the lines (R77) not yet zeroed or read out, and the local
addresses of the words that were uncorrectable as it was paged out (R346). -/
structure Page where
  k : Nat
  vbase : Nat
  pbase : Nat
  resident : Bool := true
  pinned : Bool := false
  used : Bool := false
  dirty : Bool := false
  stamp : BitVec 16 := 0
  spill : Spill := .absent
  pagingIn : Bool := false
  failed : Option Word := none
  io : Option PageIo := none
  unzeroed : List Nat := []
  bad : List Nat := []
deriving DecidableEq, Repr

/-- An entry of a ready ring (R46): a task record or an activation, with its scope, the class of its ring, its wait, where aging has raised it
(R48) the class that it was pushed with, and its place among the 256 of its ring. -/
structure Entry where
  work : Work
  prio : BitVec 2
  scope : Word
  age : Nat := 0
  native : Option (BitVec 2) := none
  slot : Nat := 0
deriving DecidableEq, Repr

/-- A message in the receive queue (R304), or a held urgent header (R49), with the granules of the queue that hold its payload and the number of
them that have been freed; `dead` says that its class was not enabled when it was performed (R359). -/
structure Msg where
  id : Nat
  cls : BitVec 4
  prio : BitVec 2
  urgent : Bool
  tag : Word
  src : Word
  scope : Word
  payload : List Byte
  freed : Nat := 0
  grans : List Nat := []
  dead : Bool := false
deriving DecidableEq, Repr

/-- An entry of the scope table (R32). -/
structure ScopeEntry where
  scope : Word
  kids : BitVec 16
deriving DecidableEq, Repr

/-- The barrier of a membership entry (R38). -/
inductive BarId where
  | count (home : Word) (addr : Nat) | line (n : BitVec 2)
deriving DecidableEq, Repr

/-- A barrier membership entry (R38, R54, R165). `cause` is the scope of the withdrawal under a notice that brought the latest release, if one did, and
`freed` that of the release that ended the entry's last arrival (R331; log entry 60). -/
structure Member where
  bar : BarId
  scope : Word
  arrived : Bool := false
  pending : Bool := false
  g : Option (BitVec 8) := none
  release : Option (BitVec 8) := none
  phase : Bool := false
  boost : Option (BitVec 2) := none
  cause : Option Word := none
  freed : Option Word := none
deriving DecidableEq, Repr

/-- An action descriptor (R162). -/
structure Action where
  kind : BitVec 2
  rel : Bool
  cls : BitVec 4
  prio : BitVec 2
  urgent : Bool
  tok : Reg
  dcnt : Option (BitVec 4)
  name : Word
  laddr : Word
  raddr : Word
  length : Word
  tag : Word
deriving DecidableEq, Repr

/-- An armed slot (R162, R163), or the operation of one that has fired and waits for a copy slot or a release. -/
structure Armed where
  slot : BitVec 4
  cnt : BitVec 4
  threshold : Word
  act : Action
  scope : Word
  urgent : Bool
  mark : Option Nat
  own : Nat := 0
deriving DecidableEq, Repr

/-- A receive counter: its count and its selector (R161). -/
structure Counter where
  count : Word := 0
  mode : BitVec 3 := 0
  cls : BitVec 4 := 0
deriving DecidableEq, Repr

/-- A watermark channel (R94): the range, and the granules W copies have written. -/
structure Watermark where
  on : Bool := false
  lo : Nat := 0
  hi : Nat := 0
  written : List Nat := []
deriving DecidableEq, Repr

/-- A parameter window (R85): kind 0 unbound, 1 far, 2 local. -/
structure Window where
  kind : BitVec 2 := 0
  base : Nat := 0
  length : Word := 0
deriving DecidableEq, Repr

/-- The kinds of copy (R301). -/
inductive CopyKind where
  | get | getFar | getLoc | put | putFar
deriving DecidableEq, Repr

/-- An issued chunk that is not yet written: waiting to leave for its entry port, or sent (R86, R148, R302). -/
inductive ChunkState where
  | queued | sent
deriving DecidableEq, Repr

/-- A copy slot (R89, R302). `issued` counts the bytes whose chunks have been issued and `landed` those written at the destination;
`ended` carries the fault that ends it (R370), and `armed` says that an armed slot fired it (R393). -/
structure Copy where
  slot : Nat
  id : Nat
  kind : CopyKind
  src : Nat
  dst : Nat
  name : Word
  length : Nat
  wm : Option (BitVec 2)
  cen : Option (BitVec 4)
  dcnt : Option (BitVec 4)
  prio : BitVec 2
  scope : Word
  urgent : Bool
  mark : Option Nat
  issued : Nat := 0
  landed : Nat := 0
  pend : List (Nat × Nat × ChunkState) := []
  got : List (Nat × List Byte) := []
  ended : Option FaultRec := none
  folio : Option Nat := none
  ftag : Option (BitVec 8) := none
  own : Nat := 0
  armed : Bool := false
deriving DecidableEq, Repr

/-- A pattern record (R90): per dimension count − 1, origin, bound and stride. -/
structure PatRec where
  base : Nat
  space : Nat
  bounded : Bool
  fill : Word
  dims : List (Nat × Int × Nat × Int)
deriving DecidableEq, Repr

/-- A running pattern (R90, R91): the elements produced so far, whether it has been stopped by a fault, and its scope and level. -/
structure Pattern where
  pat : PatRec
  next : Nat := 0
  stopped : Bool := false
  scope : Word
  own : Nat := 0
deriving DecidableEq, Repr

/-- A stream register in stream mode (R91): its pattern and its buffer. -/
structure StreamReg where
  n : BitVec 2
  pat : Pattern
  buf : List VWord := []
deriving DecidableEq, Repr

/-- A slab (R111): eight blocks of data with their sidecars. -/
structure Slab where
  blocks : List (Nat × Word)
deriving DecidableEq, Repr

/-- What fills a tensor operand FIFO (R298). -/
inductive Bind where
  | unbound
  | loc (data side : Pattern)
  | fabric (cls : BitVec 4) (hi : BitVec 16) (next : BitVec 16) (scope : Word)
deriving DecidableEq, Repr

/-- A tensor operand FIFO (R92): of a fabric binding the slabs it holds, each with its sequence number (R299); of a local binding the
elements read ahead of the k-steps, which cut them into slabs by the format of their TFEED (R113, R298), and whether a read after them has met a
fault (R341); and the work that bound it. -/
structure Fifo where
  bind : Bind := .unbound
  slabs : List (BitVec 16 × Slab) := []
  data : List (Option VWord) := []
  side : List (Option VWord) := []
  failed : Bool := false
  own : Nat := 0
deriving DecidableEq, Repr

/-- A drain descriptor (R296). -/
structure DrainDesc where
  target : Nat
  fmt : Nat
  rm : BitVec 2
  sr : Bool
  rsen : Bool
  csen : Bool
  stride : Nat
  side : Nat
  rs : Nat
  cs : Nat
deriving DecidableEq, Repr

/-- The operation of a tensor command (R291). -/
inductive TensorOp where
  | tcfg (f : BkFmt) | tarm (n : BitVec 2) (p : Nat) | tzero (n : BitVec 2) | tfeed (n : BitVec 2) (left : Nat)
  | tdrain (n : BitVec 2) (d : DrainDesc) (adv : List Word) (mark : Option Nat)
  | bind (tb : Bool) (b : Bind) | stop (tb : Bool)
deriving DecidableEq, Repr

/-- An entry of the tensor command queue. -/
structure TensorCmd where
  op : TensorOp
  scope : Word
  own : Nat := 0
deriving DecidableEq, Repr

/-- A k-step that has fired (R295): its slabs and accumulator. -/
structure KStep where
  n : BitVec 2
  a : Slab
  b : Slab
  fmt : BkFmt
deriving DecidableEq, Repr

/-- What the stream engine holds of a folio record (R160). -/
structure FolioRec where
  kind : Nat
  far : Bool
  farw : Bool
  deps : Nat
  succ : List Nat
deriving DecidableEq, Repr

/-- A folio replay (R160): per record its count and whether issued or complete, the bases, token, scope and level, and the tag and length of
each recv and rotate as its record gave them at issue. -/
structure Replay where
  bases : Vector Word 4
  counts : List Nat
  issued : List Nat := []
  completed : List Nat := []
  recvs : List (Nat × BitVec 8 × Nat) := []
  failed : Bool := false
  urgent : Bool := false
  mark : Option Nat
  scope : Word
  own : Nat := 0
deriving DecidableEq, Repr

/-- A combining entry (R150) with its run-time state (R151 to R158): the local index, the tokens buffered per input, the markers received
and the run exponents of the next two segments, the exponents that renorm notices named by segment, the local elements not yet emitted
(folio record, index, data, sidecar), and at the root its count, place in it, completion record, token, target, generator and what the
record will hold. -/
structure CombEntry where
  valid : Bool := false
  route : BitVec 8 := 0
  inputs : BitVec 5 := 0
  out : BitVec 3 := 0
  type : BitVec 3 := 0
  rm : BitVec 2 := 0
  sr : Bool := false
  carrel : BitVec 11 := 0
  local_ : Nat := 0
  bufs : List (Dir × CombTok) := []
  markers : Nat := 0
  run : Nat := 0
  runNext : Nat := 0
  grown : List (Nat × Nat) := []
  gated : List (Nat × Nat × Nat × Word) := []
  rootCount : Option Nat := none
  rootDone : Nat := 0
  record : Nat := 0
  mark : Option Nat := none
  dest : Option (Nat × Nat) := none
  gen : Word := 0
  coarse : Bool := false
  flags : BitVec 4 := 0
  bkov : Bool := false
  tally : List Nat := []
deriving DecidableEq, Repr

/-- A scoreboard mark (R93): the bank and register, whether a pair, the number of the operation that will write it, and whether that operation is one
that no kill clears (R36 lists no CANCEL, COMB.CFG.ROOT or steward's operation). -/
structure Mark where
  id : Nat
  level : Level
  reg : Reg
  pair : Bool
  scope : Word
  own : Nat := 0
  plain : Bool := false
deriving DecidableEq, Repr

/-- A name cache entry (R64). -/
structure NameEntry where
  name : Word
  phys : Phys
  gen : BitVec 16
  xr : Bool
  used : Bool := false
deriving DecidableEq, Repr

/-- A router's ownership map entry (R145). -/
structure Owner where
  carrel : BitVec 11 := 0
  valid : Bool := false
deriving DecidableEq, Repr

/-- A detour entry (R144, R254). -/
structure Detour where
  valid : Bool := false
  link : BitVec 2 := 0
  hops : List (BitVec 2) := []
deriving DecidableEq, Repr

/-- A group of four flits on a link (R143): its sequence number, each flit with the input buffer that it left and the hops that it has still to take
across the link, none for an idle flit, and the 512 payload bits. -/
structure Group where
  seq : BitVec 5
  flits : List (Option (Dir × Flit × List (BitVec 2)))
  bits : BitVec 512
deriving DecidableEq, Repr

/-- A link of a router (R139, R143, R385). Of its output: the sequence number of the next group, the groups kept and not acknowledged, those on the wires,
the rounds of retransmission, the clk up to which the output is taken, and the message that holds each virtual channel and lane. Of its input: the
sequence number expected, whether a group has been discarded since the last one accepted, and the flits accepted that the router has still to take. -/
structure Link where
  dead : Bool := false
  next : BitVec 5 := 0
  unacked : List Group := []
  wires : List (BitVec 5) := []
  rounds : Nat := 0
  taken : Nat := 0
  locks : List (BitVec 3 × BitVec 2 × Nat) := []
  expect : BitVec 5 := 0
  bad : Bool := false
  accepted : List Flit := []
deriving DecidableEq, Repr

/-- The router of a tile (R139 to R145), with the flits it has discarded for a reserved header, for ownership, and as a router turned off
(R390) and the combine tokens it has discarded (R391). -/
structure Router where
  own : Vector Owner 5 := Vector.replicate 5 {}
  detours : Vector Detour 8 := Vector.replicate 8 {}
  links : Vector Link 4 := Vector.replicate 4 {}
  off : Bool := false
  dead : Bool := false
  reserved : Nat := 0
  ownership : Nat := 0
  stray : Nat := 0
  tokens : Nat := 0
  bufs : List (Dir × Flit) := []
deriving DecidableEq, Repr

/-- The step of a migration in progress (R68). -/
inductive MigStep where
  | requested | halted | frozen | copied | published
deriving DecidableEq, Repr

/-- A migration (R68): the tile it leaves and the tile it goes to, its step, the token of the MIGR that asked for it, the rotation slot that did, and the place of
the MIGR among those issued (R253). -/
structure Migration where
  src : Phys
  dst : Phys
  step : MigStep
  mark : Option (Phys × Nat)
  rotation : Option Nat
  order : Option Nat := none
deriving DecidableEq, Repr

/-- A forwarding entry (R69, R70): the new tile, whether the publish has completed, the channels whose merged end marker has come, the routers that have
passed the drain wave of a channel on, and the edge agents that owe far replies to requests from the old tile. -/
structure Forward where
  dst : Phys
  published : Bool := false
  markers : List (BitVec 2) := []
  passed : List (BitVec 2 × Phys) := []
  agents : List Nat := []
deriving DecidableEq, Repr

/-- A steward exception held in the queue of R365. -/
structure Exn where
  cause : BitVec 16
  addr : Word
  info : Word
  next : Option Pc := none
deriving DecidableEq, Repr

/-- The registers that say what residency is bound here and where (R18, R20, R59, R67, R72). -/
structure Ident where
  name : Word := 0
  gen : BitVec 16 := 0
  gang : BitVec 16 := 0
  rank : BitVec 20 := 0
  stage : BitVec 8 := 0
  carrel : BitVec 11 := 0
  hops : BitVec 10 := 13
  spare : Bool := false
  temp : BitVec 16 := 0
  pin : Bool := false
deriving DecidableEq, Repr

/-- The scalar core and vector unit (R11, R51, R204, R208): the two banks, what the running level holds of its own, the halt state of
the normal level while the urgent level runs, the number of works begun, the state of R24, and the registers both levels share. -/
structure Core where
  normal : Bank := {}
  shadow : Bank := {}
  level : Level := .normal
  cur : Ctx := {}
  halt : Option Ctx := none
  works : Nat := 0
  phase : Phase := .unbound
  wait : Option Wait := none
  tdz : Bool := false
  mko : Bool := false
  tstat : BitVec 10 := 0
  trapen : BitVec 12 := 0
  seed : Word := 0
  timeh : Word := 0
  latch : BitVec 8 := 0
  mask : Option Nat := none
  maskPages : List Nat := []
  urgentClk : Nat := 0
  urgentPast : List (Nat × Nat) := []
deriving DecidableEq, Repr

/-- What stops a residency (R24, R336, R338, R362): the faulted level, a reply held for the urgent level's DONE (R342), the fault
registers with the time of the fault (R340), faults pending for a boundary (R335), and the overlays archived and off. -/
structure Stop where
  faulted : Option Level := none
  reply : Option (BitVec 2) := none
  fcause : Word := 0
  fpc : Pc := 0
  faddr : Word := 0
  finfo : Word := 0
  at_ : Nat := 0
  pend : List FaultRec := []
  archived : Bool := false
  off : Bool := false
deriving DecidableEq, Repr

/-- A store of the queue (R118, R264): bytes at an address, or the `w` low bits of a number at a bit address (R82, R267). -/
inductive StoreOp where
  | bytes (a : Nat) (bs : List Byte)
  | bits (ba w x : Nat)
deriving DecidableEq, Repr

/-- The local view, its store queue, oldest first (R118), its page map and the free frames of the 96 KiB of data SRAM that pages take (R73 to R81), the instruction store, the windows (R85), and the integrity state
(R261, R345 to R347): words whose check bits fail, the counters of ECCRD, the words with an error that the next read corrects, and the corrections still to be reported. -/
structure View where
  mem : Memory := []
  stores : List StoreOp := []
  ist : Memory := []
  pages : List Page := []
  frames : List (Nat × Nat) := [(4, 0), (3, 0x10000), (2, 0x14000), (2, 0x15000)]
  epoch : BitVec 16 := 0
  epochClk : Nat := 0
  spill : Nat := 0
  pw : Vector Window 8 := Vector.replicate 8 {}
  bad : List Nat := []
  badIst : List Nat := []
  ce : Nat := 0
  ice : Nat := 0
  ue : Nat := 0
  ceAddr : BitVec 15 := 0
  soft : List (Bool × Nat) := []
  fixed : List (Bool × Nat) := []
deriving DecidableEq, Repr

/-- The task unit (R28, R165: `withdrawn` gives for a count barrier here the scope of the latest decrement of its generation that a cancel notice sent, R331; R32, R34, R38, R46, R49, R161, R162, R304); `fires` holds the operations of fired slots that wait to be issued, in the
order in which they fired (R163, R313). -/
structure Tasks where
  rings : List Entry := []
  overflow : List Entry := []
  queue : List Msg := []
  urgents : List Msg := []
  nextMsg : Nat := 0
  cnt : Vector Counter 16 := Vector.replicate 16 {}
  armed : List Armed := []
  fires : List Armed := []
  scopes : List ScopeEntry := []
  members : Vector (Option Member) 4 := Vector.replicate 4 none
  linePhase : BitVec 4 := 0
  cancels : List Word := []
  drops : List (Word × Nat) := []
  withdrawn : List (Nat × Word) := []
  retiring : Option (Word × Bool) := none
deriving DecidableEq, Repr

/-- A far-window LDP that waits (R268): its number, its address, whether its request has been sent, the word once it has arrived, or the fault that
ends it. -/
structure FarWord where
  id : Nat
  va : Nat
  sent : Bool := false
  word : Option Word := none
  fail : Option FaultRec := none
deriving DecidableEq, Repr

/-- A far element that a stream register (0 to 3) or a plane of an operand binding (4, 5 data of TA, TB; 6, 7 their sidecars) waits for (R86): its
number, its address, whether its request has been sent, its bytes once they have arrived, or the fault that ends it. -/
structure FarRead where
  id : Nat
  who : Nat
  va : Nat
  sent : Bool := false
  data : Option (List Byte) := none
  fail : Option FaultRec := none
deriving DecidableEq, Repr

/-- The stream engine (R89 to R95, R159, R319). `serves` holds the GET requests it has accepted and reads for other residencies (R302). -/
structure Streams where
  copies : List Copy := []
  serves : List Packet := []
  regs : List StreamReg := []
  wm : Vector Watermark 4 := Vector.replicate 4 {}
  folio : Option (Nat × List FolioRec) := none
  replay : Option Replay := none
  ftags : List (BitVec 8 × Nat) := []
  farWord : Option FarWord := none
  farReads : List FarRead := []
deriving DecidableEq, Repr

/-- The tensor unit (R111, R291, R295). -/
structure Tensor where
  acc : Vector Accum 4 := Vector.replicate 4 {}
  ta : Fifo := {}
  tb : Fifo := {}
  cmds : List TensorCmd := []
  fmt : BkFmt := .bk8
  kstep : Option KStep := none
deriving DecidableEq, Repr

/-- The network interface (R64, R68 to R70, R93, R123). `xr` is the bit of the residency's own group (R64). -/
structure NetIf where
  marks : List Mark := []
  nextId : Nat := 0
  acks : Vector Nat 4 := Vector.replicate 4 0
  names : List NameEntry := []
  walks : List Word := []
  unmapped : List Word := []
  mig : Option Migration := none
  fwd : Option Forward := none
  xr : Bool := false
  holding : Bool := false
  heldCancels : List Word := []
deriving DecidableEq, Repr

/-- What a steward tile adds (R208, R252, R365). -/
structure Steward where
  sepc : Pc := 0
  scause : BitVec 16 := 0
  active : Bool := false
  exns : List Exn := []
deriving DecidableEq, Repr

/-- A tile and the residency bound to it (R11, R23). -/
structure Tile where
  phys : Phys
  id : Ident := {}
  core : Core := {}
  stop : Stop := {}
  view : View := {}
  task : Tasks := {}
  strm : Streams := {}
  tens : Tensor := {}
  net : NetIf := {}
  router : Router := {}
  comb : Vector CombEntry 16 := Vector.replicate 16 {}
  stw : Steward := {}
deriving DecidableEq, Repr

/-- A slot of a catalogue group entry (R60): the 64-bit word. -/
abbrev CatSlot := BitVec 64

/-- A catalogue group entry (R60). -/
structure GroupEntry where
  a : CatSlot
  b : CatSlot
deriving DecidableEq, Repr

/-- A publish in progress (R61, R379): its generation, the names invalidated, the tiles still to acknowledge, the clk since its
broadcast, the broadcasts made, the tokens of the MAPWR.P or the republish that wait for it, the residencies it lands, and a tile of each nonet that a group leaves for a
spare (R382). -/
structure Publish where
  gen : BitVec 16
  names : List (BitVec 11 × Word) := []
  missing : List Phys := []
  clk : Nat := 0
  rounds : Nat := 0
  stalled : Bool := false
  marks : List (Phys × Nat) := []
  moves : List Phys := []
  left : List Phys := []
deriving DecidableEq, Repr

/-- A change that a publish makes to a group's slot: a member at another position of its nonet (R67, R253), or the group on a spare (R382). -/
inductive SlotChange where
  | place (g m p : Nat)
  | spare (g : Nat) (n : Nat × Nat)
deriving DecidableEq, Repr

/-- A publish that waits its turn (R61): the slots it writes, the token of the instruction that asked for it, the rotation slot, counted
from time 0, whose shared publish it is (R68), the new tiles of the residencies it lands, and the place among those issued of the MIGR that asked for it (R253). -/
structure PubReq where
  slots : List SlotChange
  mark : Option (Phys × Nat)
  rotation : Option Nat := none
  moves : List Phys := []
  order : Option Nat := none
deriving DecidableEq, Repr

/-- A clock field with its stewards' tables (R6, R12). `cycled` says that its transit tables are written for every frame of a cycle (R149); `walked` gives the clk at which each walker lane last started a walk (R148), `detoured` the routers
whose detours have changed since the last publish (R140), and `did` numbers the works that the current almanac slot has had (R146); `history`
holds the fault records: the tile, the cause and the time (R12, R348). -/
structure Field where
  fx : Nat
  fy : Nat
  pll : Nat := 1050
  clk : Nat := 0
  time : Nat := 0
  rate : Nat := Config.nominalRate
  skew : BitVec 16 := 0xFFFF
  failedEx : Nat := 0
  pathDelay : Nat := 0
  aligned : Bool := true
  genWord : BitVec 16 := 0
  cat : List (Nat × GroupEntry) := []
  bounds : List (BitVec 11 × BitVec 10 × Bool) := []
  publish : Option Publish := none
  queued : List PubReq := []
  almanac : List (Nat × Nat × BitVec 16) := []
  almNext : List (Nat × Nat × BitVec 16) := []
  frame : Nat := 0
  slot : Nat := 0
  cycled : Bool := false
  defects : List Phys := []
  paused : Bool := false
  stewardsLost : List Bool := []
  heartMiss : Nat := 0
  heartMissMirror : Nat := 0
  scrub : Nat := 0
  did : List Nat := []
  walked : List (Nat × Nat) := []
  detoured : List Phys := []
  history : List (Phys × Nat × Nat) := []
deriving DecidableEq, Repr

/-- A launch message as R42 lays it out, with the host's tag. -/
structure Launch where
  stage : BitVec 8
  pin : Bool
  w : Nat
  h : Nat
  scope : Word
  tag : Word
  image : Nat
  parcels : Nat
  arg : Word
  pw : List (Nat × Nat × Word)
  reservedBits : Bool
deriving DecidableEq, Repr

/-- The states of a gang (R22). -/
inductive GangState where
  | loading | running | done | ended (status : Nat)
deriving DecidableEq, Repr

/-- A gang (R20, R22). `wafer` is the carrel wafer on which it stands (R44), and `led` says that its home steward is of this wafer. -/
structure Gang where
  num : Nat
  x : Nat
  y : Nat
  scope : Word
  fresh : Bool
  launch : Launch
  state : GangState := .loading
  count : Nat := 0
  start : Nat := 0
  wafer : Nat := 0
  led : Bool := true
deriving DecidableEq, Repr

/-- A cancel or a retire in progress (R34, R32): the scope, the tiles still to acknowledge, the total, who asked, the completion message, without its
end time, that waits for it (R332), the carrel's other wafers that have not answered, and the one to answer (R184), the name at which the carrel's reduction tree adds up, and the
acknowledgements that are on their way there (R39). -/
structure Sweep where
  scope : Word
  missing : List Phys
  total : Word := 0
  token : Option (Phys × Nat) := none
  host : Bool := false
  reported : Bool := false
  note : Option (List Byte) := none
  abroad : List Nat := []
  origin : Option Nat := none
  root : Word := 0
  coming : Nat := 0
deriving DecidableEq, Repr

/-- A host queue's control block (R174) with the payloads forwarded to the home steward and not yet acted on, and the port's slot in which it last forwarded one,
with the number forwarded in it (R176). -/
structure HostQueue where
  off : Nat := 0
  slots : Nat := 256
  port : Nat := 0
  rdidx : Nat := 0
  lap : BitVec 16 := 1
  status : BitVec 2 := 0
  cmpidx : Word := 0
  fwd : List (List Byte) := []
  slot : Nat := 0
  used : Nat := 0
deriving DecidableEq, Repr

/-- A completion ring (R178): slots, index and lap, the notices that wait, the payloads and the stamps written, and whether the stamp of a payload is due. -/
structure Ring where
  base : Nat := 0
  slots : Nat := 64
  idx : Nat := 0
  lap : BitVec 16 := 1
  waiting : List (List Byte) := []
  written : List (Nat × List Byte) := []
  stamps : List (Nat × BitVec 16) := []
  due : Bool := false
deriving DecidableEq, Repr

/-- What an archive wrote (R186): the residencies by carrel-relative position; and the bytes of the host queue's ring (R187). -/
structure Archive where
  tiles : List (Nat × Nat × Tile)
  ring : List Byte := []
deriving DecidableEq, Repr

/-- The states of a carrel (R19), with the creation that waits for its other wafers (R180), the archive in progress of R187 and the destruction whose completion
notices are still to be written; the port is that of the management queue that asked. -/
inductive CarrelState where
  | creating (port : Nat) | active | archiving (keep : Bool) (mark : Option (Phys × Nat)) (port : Nat) | archived | destroying (port : Nat)
deriving DecidableEq, Repr

/-- A carrel (R17, R180). `sizes` are the widths and heights of its parts, in carrel-wafer order, where it spans wafers (R184). An archived carrel has no number on the wafer: its `num` is 2048 or above, and `was` is the one it had. -/
structure Carrel where
  num : Nat
  was : Nat := 0
  state : CarrelState := .active
  key : Word := 0
  nw : Nat := 1
  k : Nat := 0
  ox : Nat := 0
  oy : Nat := 0
  w : Nat := 32
  h : Nat := 16
  root : Nat := 0
  spill : Nat := 0
  archive : Nat := 0
  ports : List Nat := []
  extents : List (Nat × Nat × BitVec 2) := []
  wlist : List Nat := []
  msix : BitVec 8 := 0xFF
  queue : HostQueue := {}
  ring : Ring := {}
  held : List Launch := []
  gangs : List Gang := []
  kids : BitVec 16 := 0
  sweeps : List Sweep := []
  retires : List Sweep := []
  listed : List Word := []
  lw : Nat := 0
  linePhase : BitVec 4 := 0
  lineWaves : List (BitVec 2 × List Phys) := []
  reports : List (BitVec 2 × Nat) := []
  image : Option Archive := none
  hops : BitVec 10 := 13
  spare : Bool := false
  peers : List (Nat × List Nat) := []
  pathless : List Nat := []
  sizes : List (Nat × Nat) := []
deriving DecidableEq, Repr

/-- The power states of R192. -/
inductive Power where
  | off | aux | boot | run
deriving DecidableEq, Repr

/-- A translation cache entry (R87). -/
structure Tlb where
  carrel : BitVec 11
  va : Nat
  size : Nat
  phys : Nat
  write : Bool
deriving DecidableEq, Repr

/-- A request in a port's private queue (R148): the coordinate that it came from, to which its reply goes (R70), its residency's name, what it is for, its range and, for a
write, its bytes; once it is translated its physical address, with the offset and the physical address of the bytes past a 4 KiB boundary that it crosses, or
its fault; the almanac slot, counted over the frames, in which the port admitted it; and whether the link of
the memory went down with it under way (R377). -/
structure FarReq where
  tile : Phys
  name : Word
  use : FarFor
  len : Nat
  va : Nat
  carrel : BitVec 11
  write : Bool
  data : List Byte := []
  phys : Option Nat := none
  more : Option (Nat × Nat) := none
  admitted : Option Nat := none
  failed : Option FaultRec := none
  torn : Bool := false
deriving DecidableEq, Repr

/-- An edge port (R13, R171, R377), with the almanac slot in which it last admitted requests and the number that it admitted then (R148), the memory devices in
its space, each its base and its bytes (R179), and the lanes and GT/s to which it has trained (R171). -/
structure EdgePort where
  num : Nat
  slot : Nat := 0
  used : Nat := 0
  upstream : Bool := false
  up : Bool := true
  secure : Bool := true
  forced : Bool := false
  tlb : List Tlb := []
  reqs : List FarReq := []
  devices : List (Nat × Nat) := [(0, 0x20000000000)]
  width : Nat := 16
  rate : Nat := 64
deriving DecidableEq, Repr

/-- A SHOOT outstanding (R88, R257, R378). -/
structure Shoot where
  id : Nat
  carrel : BitVec 11
  lo : Nat
  hi : Nat
  missing : List Nat
  steward : Phys
  mark : Option Nat
  clk : Nat := 0
deriving DecidableEq, Repr

/-- A frame that a peer port keeps for replay (R182): its bytes, its number, and the message of its four flits, which it may end. -/
structure Frame where
  bytes : List Byte
  seq : BitVec 16
  msg : Packet
  flits : List (BitVec 128)
  last : Bool
deriving DecidableEq, Repr

/-- A Trabeind port (R14, R182, R397): the number expected and the next to send, whether a frame has been dropped, the replays of the oldest frame kept, the frames kept,
those that a dead port has left to it, the message being sent with the frames still to go, what it relays for other wafers, the messages received whose names
are to be resolved (R183), and by logical channel the credits used and those owed to the far side. -/
structure PeerPort where
  num : Nat
  up : Bool := true
  expect : BitVec 16 := 0
  sent : BitVec 16 := 0
  bad : Bool := false
  replays : Nat := 0
  buf : List Frame := []
  late : List Frame := []
  cur : Option (Packet × List (List (BitVec 128))) := none
  relay : List Packet := []
  waiting : List Packet := []
  used : List Nat := [0, 0, 0, 0]
  owed : List Nat := [0, 0, 0, 0]
deriving DecidableEq, Repr

/-- A launch window (R173). -/
structure LaunchWindow where
  en : Bool := false
  base : Nat := 0
deriving DecidableEq, Repr

/-- The wafer's edge and package (R171 to R198). `stuck` lists the tiles whose segment of a barrier line is stuck, and whether high (R394). -/
structure Wafer where
  power : Power := .aux
  step : Nat := 0
  failed : Bool := false
  bank : Bool := false
  ready : Bool := false
  startTime : BitVec 64 := 0
  reports : List (List Byte) := []
  windows : List (Nat × Nat × LaunchWindow) := []
  far : Memory := []
  edge : List (Nat × Memory) := []
  ports : List EdgePort := []
  shoots : List Shoot := []
  peers : List PeerPort := []
  mqueues : List (Nat × HostQueue) := []
  mrings : List (Nat × Ring) := []
  deadLinks : List (Phys × Dir) := []
  policy : Nat × Nat := (3, 3600000000000)
  fuses : List (Phys × BitVec 2) := []
  strapped : List Nat := [0]
  image : List Byte := []
  parent : Option Nat := none
  stuck : List (Phys × BitVec 2 × Bool) := []
  msi : List (Nat × BitVec 8) := []
deriving DecidableEq, Repr

/-- What a step of another agent is given (log entry 4): a packet in flight, a direction, numbers (a port, a carrel, an address), a word,
bytes of the host, and a condition. The meaning of each step says which it reads. -/
structure Input where
  pkt : Option Packet := none
  dir : Dir := .lcl
  n : Nat := 0
  m : Nat := 0
  k : Nat := 0
  j : Nat := 0
  word : Word := 0
  ok : Bool := false
  bytes : List Byte := []
deriving DecidableEq, Repr

/-- What moves next (log entry 4): an event at a tile, an issue of a tile's core
with the stores that its queue performs meanwhile, a stretch of clk, the next chunk of a tile's copy,
an error that appears in a word of a tile's SRAM, or a tile's segment of a barrier line that sticks low or high, or is whole again (R394). The list is the environment's choice among the outcomes of R5. -/
inductive Sched where
  | event (p : Phys) (e : Instr) (x : Input)
  | issue (p : Phys) (k : Nat)
  | delay (n : Nat)
  | chunk (p : Phys) (slot : Nat)
  | upset (p : Phys) (ist hard : Bool) (w : Nat)
  | stick (p : Phys) (n : BitVec 2) (v : Option Bool)
deriving DecidableEq, Repr

/-- A reason for which the model itself stops. -/
inductive Fault where
  /-- Raised by no step: the machine has no stop of its own, every fault of the spec being a next state. Safe. -/
  | unreachable
deriving DecidableEq, Repr

/-- A reason for which the model refuses. -/
inductive Refusal where
  /-- Raised by `exec` for an instruction that has no meaning yet; it names the instruction. Safe. -/
  | notModelled (mnemonic : String)
deriving DecidableEq, Repr

/-- The whole machine: the tile in focus and the other tiles that have left their state after power-on, the fields, the carrels, the
wafer, the operations in flight, the environment's schedule (log entry 4), the index of the next free value (log entry 7) and the number of messages sent and
arrived.
A tile or a field that no list names holds what it held after power-on (log entry 5). -/
structure State where
  tile : Tile
  rest : List Tile := []
  flds : List Field := []
  carrels : List Carrel := []
  wafer : Wafer := {}
  net : List Packet := []
  sched : List Sched := []
  inp : Input := {}
  free : Nat := 0
  serial : Nat := 0
deriving DecidableEq, Repr

/-- The machine right after reset (R192, R193): the package in Aux, the tile in focus (0, 3) Unbound with its registers as R207 and
R204 give them, its pc at the first parcel after the handler table (log entry 3), and every memory empty. -/
def State.reset : State :=
  { tile := { phys := { px := 0, py := 3 } } }

end Sys2Proof.Machine
end

