-- ==== Sys2Proof/Machine/Arith.lean ====
section
/-!
DEFINITION. Floating-point arithmetic on exact values (R97 to R103). A finite value is (−1)^neg × m × 2^e with m a natural number;
an operation computes the exact result and rounds it once.
-/

namespace Sys2Proof.Machine

/-- A floating-point format (R99). `ieee` is false for E4M3, which has no infinity and one NaN per sign. -/
structure Fmt where
  ebits : Nat
  fbits : Nat
  bias : Int
  ieee : Bool
deriving DecidableEq, Repr

def Fmt.fp32 : Fmt := ⟨8, 23, 127, true⟩
def Fmt.fp16 : Fmt := ⟨5, 10, 15, true⟩
def Fmt.bf16 : Fmt := ⟨8, 7, 127, true⟩
def Fmt.e5m2 : Fmt := ⟨5, 2, 15, true⟩
def Fmt.e4m3 : Fmt := ⟨4, 3, 7, false⟩

/-- Width of a format in bits. -/
def Fmt.width (f : Fmt) : Nat := 1 + f.ebits + f.fbits

/-- The sign bit of a format. -/
def Fmt.signBit (f : Fmt) (neg : Bool) : Nat := if neg then 2 ^ (f.ebits + f.fbits) else 0

/-- The bits of +∞ (of the first NaN pattern's exponent in E4M3). -/
def Fmt.infBits (f : Fmt) : Nat := (2 ^ f.ebits - 1) * 2 ^ f.fbits

/-- The bits of the largest finite magnitude (R99). -/
def Fmt.maxBits (f : Fmt) : Nat := if f.ieee then f.infBits - 1 else 2 ^ (f.ebits + f.fbits) - 2

/-- The canonical NaN (R100). -/
def Fmt.canonNaN (f : Fmt) : Nat := if f.ieee then f.infBits + 2 ^ (f.fbits - 1) else 2 ^ (f.ebits + f.fbits) - 1

/-- The sticky flags of c.tstat (R104). -/
abbrev Flags := BitVec 10
def flNV : Flags := 1
def flOF : Flags := 2
def flUF : Flags := 4
def flNX : Flags := 8
def flACOV : Flags := 16
def flAERR : Flags := 32
def flSCLO : Flags := 64
def flSCZ : Flags := 128
def flSCNF : Flags := 256
def flBKOV : Flags := 512

/-- A rounding mode (R97): the four of rm, and stochastic rounding with the advance it consumes (R98). -/
inductive Mode where
  | rne | rtz | rdn | rup | sr (u : Word)
deriving DecidableEq, Repr

/-- The mode that a rounding field names (R97). -/
def Mode.ofRm (rm : BitVec 2) : Mode :=
  match rm.toNat with
  | 0 => .rne
  | 1 => .rtz
  | 2 => .rdn
  | _ => .rup

/-- A value: a NaN with its sign and fraction, an infinity, or a finite value. -/
inductive FVal where
  | nan (neg : Bool) (frac : Nat)
  | inf (neg : Bool)
  | fin (neg : Bool) (m : Nat) (e : Int)
deriving DecidableEq, Repr

/-- The value that bits denote in a format (R99). -/
def Fmt.value (f : Fmt) (x : Nat) : FVal :=
  let neg := decide (x / 2 ^ (f.ebits + f.fbits) % 2 = 1)
  let ex := x / 2 ^ f.fbits % 2 ^ f.ebits
  let fr := x % 2 ^ f.fbits
  if f.ieee && ex == 2 ^ f.ebits - 1 then (if fr = 0 then .inf neg else .nan neg fr)
  else if !f.ieee && x % 2 ^ (f.ebits + f.fbits) == 2 ^ (f.ebits + f.fbits) - 1 then .nan neg fr
  else if ex = 0 then .fin neg fr (1 - f.bias - f.fbits)
  else .fin neg (fr + 2 ^ f.fbits) (ex - f.bias - f.fbits)

/-- A NaN is signalling when its fraction's top bit is 0 (R99); E4M3's are quiet. -/
def Fmt.signalling (f : Fmt) (frac : Nat) : Bool := f.ieee && frac / 2 ^ (f.fbits - 1) % 2 == 0

/-- A NaN of one format as a NaN of another (R100): the sign, the top fraction bits that fit, the quiet bit set. R100 says so of a narrower format; in a wider
one the fraction stands at the top, with zeros below it, E4M3's NaN as its three fraction bits do (log entry 85). -/
def Fmt.nanFrom (f g : Fmt) (neg : Bool) (frac : Nat) : Nat :=
  if g.ieee then
    let fr := if f.fbits ≤ g.fbits then frac * 2 ^ (g.fbits - f.fbits) else frac / 2 ^ (f.fbits - g.fbits)
    g.signBit neg + g.infBits + (fr ||| 2 ^ (g.fbits - 1)) % 2 ^ g.fbits
  else g.signBit neg + g.canonNaN

/-- `q(y, sign, mode)` of R97 for y = n + r / 2^k with r < 2^k: whether the magnitude is rounded up. -/
def roundsUp (mode : Mode) (neg : Bool) (n r k : Nat) : Bool :=
  match mode with
  | .rne => decide (2 ^ k < 2 * r) || (decide (2 ^ k = 2 * r) && n % 2 == 1)
  | .rtz => false
  | .rdn => neg && decide (0 < r)
  | .rup => !neg && decide (0 < r)
  | .sr u => decide (u.toNat * 2 ^ k < r * 2 ^ 32)

/-- m × 2^e in units of 2^q, rounded (R97), and whether it was inexact. -/
def roundAt (mode : Mode) (neg : Bool) (m : Nat) (e q : Int) : Nat × Bool :=
  if q ≤ e then (m * 2 ^ (e - q).toNat, false)
  else
    let k := (q - e).toNat
    let n := m / 2 ^ k
    let r := m % 2 ^ k
    (if roundsUp mode neg n r k then n + 1 else n, decide (0 < r))

/-- The result of an overflow (R101). -/
def Fmt.overflow (f : Fmt) (mode : Mode) (neg : Bool) : Nat :=
  f.signBit neg +
    (if !f.ieee then f.maxBits
     else match mode with
      | .rne => f.infBits
      | .rtz => f.maxBits
      | .rdn => if neg then f.infBits else f.maxBits
      | .rup => if neg then f.maxBits else f.infBits
      | .sr _ => f.infBits)

/-- Round (−1)^neg × m × 2^e into a format (R97, R101), with the flags raised. A zero keeps its sign. -/
def Fmt.round (f : Fmt) (mode : Mode) (neg : Bool) (m : Nat) (e : Int) : Nat × Flags :=
  if m = 0 then (f.signBit neg, 0)
  else
    let top : Int := (Nat.log2 m : Nat) + e
    let emin : Int := 1 - f.bias
    let ex := if top < emin then emin else top
    let (n, inexact) := roundAt mode neg m e (ex - f.fbits)
    let b := (ex - emin).toNat * 2 ^ f.fbits + n
    if f.maxBits < b then (f.overflow mode neg, flOF ||| flNX)
    else
      let (u, _) := roundAt mode neg m e (top - f.fbits)
      let tiny := decide (top + 1 < emin) || (decide (top < emin) && decide (u < 2 ^ (f.fbits + 1)))
      (f.signBit neg + b, if inexact then (if tiny then flUF ||| flNX else flNX) else 0)

/-- An exact sum of finite values: (neg, m, e); an exact zero takes its sign from R272's rule. -/
def exactAdd (mode : Mode) (na : Bool) (ma : Nat) (ea : Int) (nb : Bool) (mb : Nat) (eb : Int) : Bool × Nat × Int :=
  let e := min ea eb
  let x : Int := (ma * 2 ^ (ea - e).toNat : Nat)
  let y : Int := (mb * 2 ^ (eb - e).toNat : Nat)
  let t := (if na then -x else x) + (if nb then -y else y)
  if t = 0 then
    (if ma = 0 ∧ mb = 0 ∧ na = nb then na else decide (mode = .rdn), 0, 0)
  else (decide (t < 0), t.natAbs, e)

/-- Flag of a signalling NaN operand (R100). -/
def Fmt.snanFlag (f : Fmt) : FVal → Flags
  | .nan _ fr => if f.signalling fr then flNV else 0
  | _ => 0

/-- The first NaN operand, quieted (R100). -/
def Fmt.firstNaN (f : Fmt) : List FVal → Option Nat
  | [] => none
  | .nan neg fr :: _ => some (f.nanFrom f neg fr)
  | _ :: vs => Fmt.firstNaN f vs

/-- x + y rounded once (R272, R100, R101). -/
def Fmt.addV (f : Fmt) (mode : Mode) (x y : FVal) : Nat × Flags :=
  let sn := f.snanFlag x ||| f.snanFlag y
  match f.firstNaN [x, y] with
  | some b => (b, sn)
  | none =>
    match x, y with
    | .inf a, .inf b => if a = b then (f.signBit a + f.infBits, 0) else (f.canonNaN, flNV)
    | .inf a, _ => (f.signBit a + f.infBits, 0)
    | _, .inf b => (f.signBit b + f.infBits, 0)
    | .fin na ma ea, .fin nb mb eb =>
      let (n, m, e) := exactAdd mode na ma ea nb mb eb
      f.round mode n m e
    | _, _ => (f.canonNaN, sn)

/-- A value with its sign inverted. -/
def FVal.neg : FVal → FVal
  | .nan n f => .nan n f
  | .inf n => .inf (!n)
  | .fin n m e => .fin (!n) m e

/-- x + y on bits. -/
def Fmt.add (f : Fmt) (mode : Mode) (x y : Nat) : Nat × Flags := f.addV mode (f.value x) (f.value y)

/-- x − y on bits. -/
def Fmt.sub (f : Fmt) (mode : Mode) (x y : Nat) : Nat × Flags := f.addV mode (f.value x) (f.value y).neg

/-- The exact product of two values that are not NaNs; none for 0 × ∞. -/
def FVal.mul : FVal → FVal → Option FVal
  | .inf a, .inf b => some (.inf (a != b))
  | .inf a, .fin b m _ => if m = 0 then none else some (.inf (a != b))
  | .fin a m _, .inf b => if m = 0 then none else some (.inf (a != b))
  | .fin a m e, .fin b n g => some (.fin (a != b) (m * n) (e + g))
  | x, _ => some x

/-- x × y on bits (R272). -/
def Fmt.mul (f : Fmt) (mode : Mode) (x y : Nat) : Nat × Flags :=
  let (a, b) := (f.value x, f.value y)
  let sn := f.snanFlag a ||| f.snanFlag b
  match f.firstNaN [a, b] with
  | some r => (r, sn)
  | none =>
    match a.mul b with
    | none => (f.canonNaN, flNV)
    | some (.fin n m e) => f.round mode n m e
    | some (.inf n) => (f.signBit n + f.infBits, 0)
    | some (.nan _ _) => (f.canonNaN, sn)

/-- x × y + z on bits, one rounding of the exact value (R272). A product 0 × ∞ sets NV even when z is a NaN. -/
def Fmt.fma (f : Fmt) (mode : Mode) (x y z : Nat) : Nat × Flags :=
  let (a, b, c) := (f.value x, f.value y, f.value z)
  let sn := f.snanFlag a ||| f.snanFlag b ||| f.snanFlag c
  match f.firstNaN [a, b] with
  | some r => (r, sn)
  | none =>
    match a.mul b with
    | none => (match f.firstNaN [c] with
      | some r => (r, flNV)
      | none => (f.canonNaN, flNV))
    | some p => f.addV mode p c

/-- Order of two values that are not NaNs, −0 below +0 (R273): whether x comes before y. -/
def FVal.before : FVal → FVal → Bool
  | .inf a, .inf b => a && !b
  | .inf a, _ => a
  | _, .inf b => !b
  | .fin na ma ea, .fin nb mb eb =>
    if na != nb then na
    else
      let e := min ea eb
      let x := ma * 2 ^ (ea - e).toNat
      let y := mb * 2 ^ (eb - e).toNat
      if na then decide (y < x) else decide (x < y)
  | _, _ => false

/-- Whether two values that are not NaNs are numerically equal: −0 equals +0 (R275). -/
def FVal.equal (x y : FVal) : Bool :=
  match x, y with
  | .inf a, .inf b => a == b
  | .fin na ma ea, .fin nb mb eb =>
    if ma = 0 ∧ mb = 0 then true
    else na == nb && ma * 2 ^ (ea - min ea eb).toNat == mb * 2 ^ (eb - min ea eb).toNat
  | _, _ => false

def FVal.isNaN : FVal → Bool
  | .nan _ _ => true
  | _ => false

def FVal.isZero : FVal → Bool
  | .fin _ m _ => m == 0
  | _ => false

/-- The smaller of two lanes, or the larger (R273). -/
def Fmt.minMax (f : Fmt) (mx : Bool) (x y : Nat) : Nat × Flags :=
  let (a, b) := (f.value x, f.value y)
  let sn := f.snanFlag a ||| f.snanFlag b
  match f.firstNaN [a, b] with
  | some r => (r, sn)
  | none => (if mx then (if a.before b then y else x) else (if b.before a then y else x), 0)

/-- The magnitude of a lane, or its negation (R273): a NaN is quieted with its sign as the operation leaves it. -/
def Fmt.signOp (f : Fmt) (abs : Bool) (x : Nat) : Nat × Flags :=
  let top := 2 ^ (f.ebits + f.fbits)
  let y := if abs then x % top else if x / top % 2 = 1 then x % top else x % top + top
  match f.value y with
  | .nan n fr => (f.nanFrom f n fr, if f.signalling fr then flNV else 0)
  | _ => (y, 0)

/-- A comparison of FP32 lanes (R275): 0 EQ, 1 LT, 2 LE, 3 UN. -/
def Fmt.compare (f : Fmt) (p : Nat) (x y : Nat) : Bool × Flags :=
  let (a, b) := (f.value x, f.value y)
  let sn := f.snanFlag a ||| f.snanFlag b
  if a.isNaN || b.isNaN then (p == 3, if p = 1 ∨ p = 2 then flNV else sn)
  else
    (match p with
     | 0 => a.equal b
     | 1 => a.before b && !a.equal b
     | 2 => a.before b || a.equal b
     | _ => false, 0)

/-- A value rounded into a format (R100, R101, R102). An infinite value gives the largest finite one in E4M3, and
sets OF alone, as R101 names no other flag for it (log entry 52). -/
def Fmt.convert (src f : Fmt) (mode : Mode) (v : FVal) : Nat × Flags :=
  match v with
  | .nan neg fr => (src.nanFrom f neg fr, if src.signalling fr then flNV else 0)
  | .inf neg => if f.ieee then (f.signBit neg + f.infBits, 0) else (f.signBit neg + f.maxBits, flOF)
  | .fin neg m e => f.round mode neg m e

/-- A value times 2^k (R102). -/
def FVal.scale (v : FVal) (k : Int) : FVal :=
  match v with
  | .fin n m e => .fin n m (e + k)
  | v => v

/-- A value rounded to a signed integer of `w` bits (R102): beyond the range it saturates and sets NV, a NaN gives 0 and sets NV. -/
def toIntW (w : Nat) (mode : Mode) (v : FVal) : Nat × Flags :=
  let lo : Int := -(2 ^ (w - 1) : Nat)
  let hi : Int := (2 ^ (w - 1) : Nat) - 1
  let pack (x : Int) : Nat := (x % (2 ^ w : Nat)).toNat
  match v with
  | .nan _ _ => (0, flNV)
  | .inf neg => (pack (if neg then lo else hi), flNV)
  | .fin neg m e =>
    let (n, inexact) := roundAt mode neg m e 0
    let x : Int := if neg then -(n : Int) else n
    if x < lo then (pack lo, flNV) else if hi < x then (pack hi, flNV)
    else (pack x, if inexact then flNX else 0)

/-- One advance of a generator (R98): the value it yields and leaves. -/
def advance (x : Word) : Word :=
  let x := if x = 0 then 0x6D2B79F5#32 else x
  let x := x ^^^ (x <<< 13)
  let x := x ^^^ (x >>> 17)
  x ^^^ (x <<< 5)

/-- `n` advances of a generator: the values in order, and the state it is left in. -/
def advances : Nat → Word → List Word × Word
  | 0, x => ([], x)
  | n + 1, x =>
    let y := advance x
    let (ys, z) := advances n y
    (y :: ys, z)

/-- compute_scale of R103: amax is an FP32 lane, maxfin the largest finite value of the FP8 format as m × 2^e. -/
def computeScale (amax : Nat) (f : Fmt) (prev : Int) : Int × Flags :=
  match Fmt.fp32.value (amax % 2 ^ 31) with
  | .nan _ _ => (prev, flSCNF)
  | .inf _ => (prev, flSCNF)
  | .fin _ m e =>
    if m = 0 then (prev, flSCZ)
    else
      match f.value f.maxBits with
      | .fin _ mm me =>
        let l : Int := (Nat.log2 m : Nat) + e - ((Nat.log2 mm : Nat) + me)
        let fits (s : Int) : Bool :=
          let d := min (e - s) me
          decide (m * 2 ^ (e - s - d).toNat ≤ mm * 2 ^ (me - d).toNat)
        let s := if fits l then l else l + 1
        if s < -128 then (-128, flSCLO) else (s, 0)
      | _ => (prev, 0)

end Sys2Proof.Machine
end

