-- ==== Sys2Proof/Machine/Memory.lean ====
section
/-!
DEFINITION. Reading and writing memory held in canonical form (Memory.wf), and little-endian values (R96).
-/

namespace Sys2Proof.Machine

/-- The byte at an address; a byte that nothing has written reads 0 (R193 step 4, R77). -/
def Memory.read : Memory → Nat → Byte
  | [], _ => 0
  | (x, b) :: m, a => if a < x then 0 else if a = x then b else Memory.read m a

/-- Write one byte, keeping the canonical form. -/
def Memory.write : Memory → Nat → Byte → Memory
  | [], a, v => if v = 0 then [] else [(a, v)]
  | (x, b) :: m, a, v =>
    if a < x then (if v = 0 then (x, b) :: m else (a, v) :: (x, b) :: m)
    else if a = x then (if v = 0 then m else (a, v) :: m)
    else (x, b) :: Memory.write m a v

/-- The `n` bytes from an address upward. -/
def Memory.bytes (m : Memory) (a : Nat) : Nat → List Byte
  | 0 => []
  | n + 1 => m.read a :: Memory.bytes m (a + 1) n

/-- Write bytes at ascending addresses. -/
def Memory.writeBytes (m : Memory) (a : Nat) : List Byte → Memory
  | [] => m
  | b :: bs => Memory.writeBytes (m.write a b) (a + 1) bs

/-- The little-endian number that bytes form (R96). -/
def leNat : List Byte → Nat
  | [] => 0
  | b :: bs => b.toNat + 256 * leNat bs

/-- The `n` little-endian bytes of a number (R96). -/
def natBytes : Nat → Nat → List Byte
  | 0, _ => []
  | n + 1, x => BitVec.ofNat 8 x :: natBytes n (x / 256)

/-- `mem_local(addr, n)` of R222, as a number. -/
def Memory.getN (m : Memory) (a n : Nat) : Nat := leNat (m.bytes a n)

/-- `set_mem_local(addr, n, x)` of R222. -/
def Memory.setN (m : Memory) (a n x : Nat) : Memory := m.writeBytes a (natBytes n x)

/-- A 32-bit word of memory. -/
def Memory.word (m : Memory) (a : Nat) : Word := BitVec.ofNat 32 (m.getN a 4)

/-- A 16-byte row of memory; byte a + i in bits [8i + 7 : 8i] (R206). -/
def Memory.row (m : Memory) (a : Nat) : VWord := BitVec.ofNat 128 (m.getN a 16)

/-- A parcel of an instruction store, which is held as a memory of bytes (R73). -/
def Memory.parcel (m : Memory) (p : Nat) : Parcel := BitVec.ofNat 16 (m.getN (2 * p) 2)

/-- Write parcels from parcel address `p` upward. -/
def Memory.setParcels (m : Memory) (p : Nat) : List Parcel → Memory
  | [] => m
  | x :: xs => Memory.setParcels (m.setN (2 * p) 2 x.toNat) (p + 1) xs

/-- Remove every entry of the bytes from `a` to `a + n − 1`: they read 0. -/
def Memory.clear (m : Memory) (a n : Nat) : Memory := m.filter fun c => decide (c.1 < a) || decide (a + n ≤ c.1)

end Sys2Proof.Machine
end

