-- ==== Sys2Proof/Machine/Tiles.lean ====
section
/-!
DEFINITION. Tiles, fields and carrels by place and by name: the tile in focus and the others (log entry 5), the field map (R65), the
catalogue (R60 to R62), logical names (R58, R183) and scopes (R31).
-/

namespace Sys2Proof

/-- The field of a coordinate (R7). -/
def Phys.field (p : Phys) : Nat × Nat := (p.px / 144, p.py / 132)

/-- A coordinate within its field (R7). -/
def Phys.loc (p : Phys) : Nat × Nat := (p.px % 144, p.py % 132)

/-- The nonet of a coordinate and the position in it (R8, R60). -/
def Phys.nonet (p : Phys) : Nat × Nat := (p.px % 144 / 3, p.py % 132 / 3)
def Phys.pos (p : Phys) : Nat := p.px % 144 % 3 + 3 * (p.py % 132 % 3)

/-- A tile from its field, nonet and position (R60). -/
def Phys.ofNonet (f n : Nat × Nat) (pos : Nat) : Phys :=
  { px := 144 * f.1 + 3 * n.1 + pos % 3, py := 132 * f.2 + 3 * n.2 + pos / 3 }

/-- A steward tile (R9): c.flags.STW is 1 there (R208). -/
def Phys.steward (p : Phys) : Bool := p.loc == (0, 0) || p.loc == (143, 131)

/-- A coordinate on the wafer (R7). -/
def Phys.onWafer (p : Phys) : Bool := decide (p.px < 1152) && decide (p.py < 1056)

/-- A physical operand (R251). -/
def Phys.ofOperand (w : Word) : Phys := { px := w.toNat % 2048, py := w.toNat / 2048 % 2048 }
def Phys.operand (p : Phys) : Word := BitVec.ofNat 32 (p.px + 2048 * p.py)

end Sys2Proof

namespace Sys2Proof.Machine

/-- The neighbour across a link, by the code of R254: 0 west, 1 north, 2 east, 3 south. -/
def physOver (p : Phys) (n : Nat) : Option Phys :=
  let q : Phys := (match n % 4 with
    | 0 => { p with px := p.px - 1 }
    | 1 => { p with py := p.py + 1 }
    | 2 => { p with px := p.px + 1 }
    | _ => { p with py := p.py - 1 })
  if q != p && Phys.onWafer q then some q else none

/- Tiles. -/

/-- A tile as power-on leaves it (R193 step 4, R76, R204). -/
def Tile.fresh (p : Phys) : Tile := { phys := p }

/-- The tiles the state lists. -/
def State.tiles (s : State) : List Tile := s.tile :: s.rest

/-- The tile at a physical coordinate. -/
def State.tileAt (s : State) (p : Phys) : Tile :=
  if s.tile.phys = p then s.tile else (s.rest.find? (·.phys = p)).getD (Tile.fresh p)

/-- Replace a tile of a list, or list it. -/
def putTile (t : Tile) : List Tile → List Tile
  | [] => [t]
  | u :: us => if u.phys = t.phys then t :: us else u :: putTile t us

/-- Replace the tile at t's coordinate. -/
def State.setTile (s : State) (t : Tile) : State :=
  if s.tile.phys = t.phys then { s with tile := t } else { s with rest := putTile t s.rest }

/-- Change the tile at a coordinate. -/
def State.updTile (s : State) (p : Phys) (f : Tile → Tile) : State := s.setTile (f (s.tileAt p))

/-- Put the tile at a coordinate in focus. -/
def State.focus (s : State) (p : Phys) : State :=
  if s.tile.phys = p then s
  else { s with tile := s.tileAt p, rest := s.tile :: s.rest.filter (·.phys ≠ p) }

/-- Act at another tile and return the focus. -/
def State.at (s : State) (p : Phys) (f : State → State) : State := (f (s.focus p)).focus s.tile.phys

/-- Act at each tile of a list of coordinates in turn. -/
def State.atEach (s : State) (f : State → State) : List Phys → State
  | [] => s
  | p :: ps => State.atEach (s.at p f) f ps

/-- Change every listed tile. -/
def State.mapTiles (s : State) (f : Tile → Tile) : State := { s with tile := f s.tile, rest := s.rest.map f }

/- Fields. -/

/-- The steward tiles of a field: acting and mirror (R9, R12). -/
def actingSteward (f : Nat × Nat) : Phys := { px := 144 * f.1, py := 132 * f.2 }
def mirrorSteward (f : Nat × Nat) : Phys := { px := 144 * f.1 + 143, py := 132 * f.2 + 131 }

/-- The field at (fx, fy). -/
def State.fieldAt (s : State) (f : Nat × Nat) : Field :=
  (s.flds.find? fun g => g.fx == f.1 && g.fy == f.2).getD { fx := f.1, fy := f.2 }

/-- The steward that acts for a field: the mirror, once the acting steward is lost (R12, R367). -/
def State.stewardOf (s : State) (f : Nat × Nat) : Phys :=
  if (s.fieldAt f).stewardsLost.contains false then mirrorSteward f else actingSteward f

/-- Replace a field of a list, or list it. -/
def putField (g : Field) : List Field → List Field
  | [] => [g]
  | h :: hs => if h.fx = g.fx ∧ h.fy = g.fy then g :: hs else h :: putField g hs

def State.setField (s : State) (g : Field) : State := { s with flds := putField g s.flds }
def State.updField (s : State) (f : Nat × Nat) (h : Field → Field) : State := s.setField (h (s.fieldAt f))

/-- The field of the tile in focus. -/
def State.fld (s : State) : Field := s.fieldAt s.tile.phys.field
def State.updFld (s : State) (h : Field → Field) : State := s.updField s.tile.phys.field h

/-- The 64 fields' coordinates (R6). -/
def allFields : List (Nat × Nat) := (List.range 64).map fun i => (i % 8, i / 8)

/-- A field's global time in ns (R168). -/
def Field.ns (f : Field) : Nat := f.time / 2 ^ 32

/- The catalogue. -/

/-- The nonet of a group by the field map (R65); the group index is 32 × cy + cx (R254). -/
def fieldMap (g : Nat) : Nat × Nat :=
  let cx := g % 32
  let cy := g / 32
  let j := cx / 2
  let e := cx % 2
  let b := cy / 3
  if cy = 63 then (3 * j + e, 43)
  else match e, cy % 3 with
    | 0, 0 => (3 * j, 2 * b + 1)
    | 0, 1 => (3 * j, 2 * b + 2)
    | 0, _ => (3 * j + 1, 2 * b + 2)
    | _, 0 => (3 * j + 1, 2 * b + 1)
    | _, 1 => (3 * j + 2, 2 * b + 1)
    | _, _ => (3 * j + 2, 2 * b + 2)

/-- The positions of the members at bring-up (R65): 0, 1, 2, 5, 3, 6, 7, 8. -/
def bringUpPos : Nat := 0x87635210

/-- A slot from a nonet and positions (R60). -/
def mkSlot (n : Nat × Nat) (pos : Nat) (gen : BitVec 16) (spare xr : Bool) : CatSlot :=
  BitVec.ofNat 64 (n.1 + 64 * n.2 + 4096 * pos + 2 ^ 44 * gen.toNat + (if spare then 2 ^ 60 else 0) + if xr then 2 ^ 61 else 0)

def slotNonet (c : CatSlot) : Nat × Nat := (c.toNat % 64, c.toNat / 64 % 64)
def slotPos (c : CatSlot) (m : Nat) : Nat := c.toNat / 2 ^ (12 + 4 * m) % 16
def slotGen (c : CatSlot) : BitVec 16 := BitVec.ofNat 16 (c.toNat / 2 ^ 44)
def slotSpare (c : CatSlot) : Bool := c.toNat / 2 ^ 60 % 2 == 1
def slotXr (c : CatSlot) : Bool := c.toNat / 2 ^ 61 % 2 == 1

/-- Set member m's position of a slot. -/
def slotSetPos (c : CatSlot) (m p : Nat) : CatSlot :=
  BitVec.ofNat 64 (c.toNat - slotPos c m * 2 ^ (12 + 4 * m) + p % 16 * 2 ^ (12 + 4 * m))

/-- The slot with another generation. -/
def slotSetGen (c : CatSlot) (g : BitVec 16) : CatSlot :=
  BitVec.ofNat 64 (c.toNat - (slotGen c).toNat * 2 ^ 44 + g.toNat * 2 ^ 44)

/-- g is at or before G (R61). -/
def atOrBefore (g G : BitVec 16) : Bool := decide ((G - g).toNat < 2 ^ 15)

/-- The group entry of a field: the field map's, in both slots (log entry 77), if no publish has changed it (R65). -/
def Field.entry (f : Field) (g : Nat) : GroupEntry :=
  ((f.cat.find? (·.1 = g)).map (·.2)).getD
    { a := mkSlot (fieldMap g) bringUpPos 0 false false, b := mkSlot (fieldMap g) bringUpPos 0 false false }

/-- Replace a group entry. -/
def Field.setEntry (f : Field) (g : Nat) (e : GroupEntry) : Field :=
  { f with cat := (g, e) :: f.cat.filter (·.1 ≠ g) }

/-- read_entry of R62: with G, A and B read in one step the loop returns at its first pass. -/
def Field.readEntry (f : Field) (g : Nat) : CatSlot :=
  let e := f.entry g
  let okA := atOrBefore (slotGen e.a) f.genWord
  let okB := atOrBefore (slotGen e.b) f.genWord
  if okA && okB then (if atOrBefore (slotGen e.a) (slotGen e.b) then e.b else e.a) else if okA then e.a else e.b

/-- Write a slot in generation n (R61): into the slot that already holds n, else into the older one; of two of one age, as bring-up leaves them, into A (the
spec says neither what slot B holds then nor which goes first: the model's choice, log entry 77). -/
def Field.write (f : Field) (n : BitVec 16) (g : Nat) (c : CatSlot) : Field :=
  let e := f.entry g
  let c := slotSetGen c n
  if slotGen e.a = n then f.setEntry g { e with a := c }
  else if slotGen e.b = n then f.setEntry g { e with b := c }
  else if atOrBefore (slotGen e.a) (slotGen e.b) then f.setEntry g { e with a := c }
  else f.setEntry g { e with b := c }

/-- A staging write (R255): in generation G + 1. -/
def Field.stage (f : Field) (g : Nat) (c : CatSlot) : Field := f.write (f.genWord + 1) g c

/- Carrels and names. -/

def State.carrel (s : State) (c : Nat) : Option Carrel := s.carrels.find? (·.num = c)

def State.updCarrel (s : State) (c : Nat) (f : Carrel → Carrel) : State :=
  { s with carrels := s.carrels.map fun k => if k.num = c then f k else k }

/-- The carrel of the residency in focus. -/
def State.myCarrel (s : State) : Option Carrel := s.carrel s.tile.id.carrel.toNat

def Carrel.gang (c : Carrel) (g : Nat) : Option Gang := c.gangs.find? (·.num = g)
def Carrel.updGang (c : Carrel) (g : Nat) (f : Gang → Gang) : Carrel :=
  { c with gangs := c.gangs.map fun k => if k.num = g then f k else k }

/-- The fields of a logical name (R58). -/
def nameWafer (n : Word) : Nat := n.toNat / 2 ^ 20
def nameX (n : Word) : Nat := n.toNat % 1024
def nameY (n : Word) : Nat := n.toNat / 1024 % 1024
def mkName (w x y : Nat) : Word := BitVec.ofNat 32 (x + 1024 * y + 2 ^ 20 * w)

/-- The field, group and member of a carrel-relative position (R10, R254). -/
def Carrel.place (c : Carrel) (x y : Nat) : (Nat × Nat) × Nat × Nat :=
  let X := c.ox + x
  let Y := c.oy + y
  ((X / 128, Y / 128), 32 * (Y % 128 / 2) + X % 128 / 4, X % 4 + 4 * (Y % 2))

/-- The slot of a carrel-relative position, and the tile it names; none when the position is unmapped (0xF) (R60). -/
def State.slotOf (s : State) (c : Carrel) (x y : Nat) : CatSlot :=
  let (f, g, _) := c.place x y
  (s.fieldAt f).readEntry g

def State.locate (s : State) (c : Carrel) (x y : Nat) : Option Phys :=
  let (f, _, m) := c.place x y
  let e := s.slotOf c x y
  let p := slotPos e m
  if p < 9 then some (Phys.ofNonet f (slotNonet e) p) else none

/-- The width and height of a carrel's part on a carrel wafer (R184), and on the wafer that a name picks, counted round from this one (R183). -/
def Carrel.part (c : Carrel) (w : Nat) : Nat × Nat := if w = c.k then (c.w, c.h) else c.sizes.getD w (0, 0)
def Carrel.extent (c : Carrel) (n : Word) : Nat × Nat := c.part ((c.k + nameWafer n) % c.nw)

/-- A name inside the carrel: its X and Y lie below the carrel's width and height on the wafer that it names (R58, R183). With no carrel created, a name is
inside when it is the residency's own. -/
def State.nameInside (s : State) (n : Word) : Bool :=
  match s.myCarrel with
  | none => n == s.tile.id.name
  | some c => decide (nameWafer n < c.nw) && decide (nameX n < (c.extent n).1) && decide (nameY n < (c.extent n).2)

/-- The tile that a name on this wafer names now. -/
def State.resolve (s : State) (n : Word) : Option Phys :=
  if n = s.tile.id.name then some s.tile.phys
  else match s.myCarrel with
    | none => none
    | some c => if nameWafer n = 0 then s.locate c (nameX n) (nameY n) else none

/-- The tiles of a gang on this wafer, in rank order (R20). -/
def State.members (s : State) (c : Carrel) (g : Gang) : List (Nat × Phys) :=
  if g.wafer ≠ c.k then []
  else (List.range (g.launch.w * g.launch.h)).filterMap fun r =>
    (s.locate c (g.x + r % g.launch.w) (g.y + r / g.launch.w)).map (r, ·)

/-- The ranks to which a gang's load is sent, and the name of the member of a rank. -/
def State.ranks (s : State) (c : Carrel) (g : Gang) : List Nat :=
  if g.wafer = c.k then (s.members c g).map (·.1) else List.range (g.launch.w * g.launch.h)
def Carrel.memberName (c : Carrel) (g : Gang) (r : Nat) : Word :=
  mkName ((g.wafer + c.nw - c.k) % c.nw) (g.x + r % g.launch.w) (g.y + r / g.launch.w)

/-- The home steward's field of a carrel (R43). -/
def Carrel.home (c : Carrel) : Nat × Nat := (c.ox / 128, c.oy / 128)

/-- A residency of a carrel is bound on a tile; a steward is a residency of none (R9, R17). -/
def Tile.inCarrel (t : Tile) (c : Nat) : Bool := t.core.phase != .unbound && !t.phys.steward && t.id.carrel.toNat == c

/-- The coordinates of the listed tiles on which a residency of the carrel is bound. -/
def State.bound (s : State) (c : Nat) : List Phys := (s.tiles.filter (·.inCarrel c)).map (·.phys)

/- Scopes. -/

def scopeDepth (x : Word) : Nat := x.toNat / 2 ^ 28 % 8

/-- is_descendant(x, s) of R31. -/
def isDescendant (x s : Word) : Bool :=
  let d := scopeDepth s
  if scopeDepth x < d then false
  else x.toNat % 2 ^ 28 / 2 ^ (28 - 4 * d) == s.toNat % 2 ^ 28 / 2 ^ (28 - 4 * d)

/-- Covered by a cancel list (R35). -/
def covered (l : List Word) (x : Word) : Bool := l.any (isDescendant x)

/-- Child i of a scope, and the parent (R31, R32). -/
def childScope (x : Word) (i : Nat) : Word :=
  let d := scopeDepth x + 1
  BitVec.ofNat 32 (d * 2 ^ 28 + x.toNat % 2 ^ 28 + i * 2 ^ (28 - 4 * d))
def scopeIndex (x : Word) : Nat := x.toNat / 2 ^ (28 - 4 * scopeDepth x) % 16
def parentScope (x : Word) : Word :=
  let d := scopeDepth x
  BitVec.ofNat 32 ((d - 1) * 2 ^ 28 + x.toNat % 2 ^ 28 / 2 ^ (32 - 4 * d) * 2 ^ (32 - 4 * d))

/-- A well-formed scope of depth 1 to 7: bit 31 clear and no path level deeper than its depth (R354 reasons 5, 6). -/
def scopeWellFormed (x : Word) : Bool :=
  decide (x.toNat < 2 ^ 31) && decide (x.toNat % 2 ^ 28 % 2 ^ (28 - 4 * scopeDepth x) = 0)

/-- The notice of a scope joins a cancel list (R34). -/
def listScope (l : List Word) (x : Word) : List Word :=
  if l.any (isDescendant x) then l else l.filter (fun y => !isDescendant y x) ++ [x]

/-- The lowest clear bit of a 16-bit bitmap. -/
def lowestClear (b : BitVec 16) : Option Nat := (List.range 16).find? fun i => !b.getLsbD i

end Sys2Proof.Machine
end

