-- ==== Sys2Proof/Machine/Flags.lean ====
section
/-!
DEFINITION. The sticky flags (R104, R208), the event latch (R247) and the flag traps they raise (R343).
-/

namespace Sys2Proof.Machine

/-- Is the urgent level running. -/
def State.urgent (s : State) : Bool := decide (s.tile.core.level = .urgent)

/-- A steward tile is in focus (c.flags.STW, R208). -/
def State.onSteward (s : State) : Bool := s.tile.phys.steward

/-- The sticky flags of a tile as R343 counts them: c.tstat in [9:0], TDZ in [10], MKO in [11]. -/
def Core.sticky (c : Core) : BitVec 12 :=
  c.tstat.setWidth 12 ||| (if c.tdz then 0x400#12 else 0) ||| (if c.mko then 0x800#12 else 0)

/-- A flag trap of the bits given, for a level (R343). -/
def flagTrap (b : BitVec 12) (urgent : Bool) : FaultRec := { code := 0x91, urgent := urgent, info := b.setWidth 32 }

/-- Add a fault that waits for a boundary (R335). -/
def Tile.addPend (t : Tile) (f : FaultRec) : Tile := { t with stop.pend := t.stop.pend ++ [f] }

/-- Set sticky flags of a tile: every enabled bit that changes from 0 to 1 raises a flag trap of the level given (R343). -/
def Tile.setSticky (t : Tile) (b : BitVec 12) (urgent : Bool) : Tile :=
  let fresh := b &&& ~~~t.core.sticky &&& t.core.trapen
  let t := { t with core.tstat := t.core.tstat ||| b.setWidth 10,
                    core.tdz := t.core.tdz || b.getLsbD 10, core.mko := t.core.mko || b.getLsbD 11 }
  if fresh = 0 then t else t.addPend (flagTrap fresh urgent)

/-- OR flags into c.tstat for the running level (R271). -/
def State.orFlags (s : State) (f : Flags) : State :=
  { s with tile := s.tile.setSticky (f.setWidth 12) s.urgent }

/-- Set TDZ (R27), for the level given, or MKO (R53). -/
def Tile.setTdz (t : Tile) (urgent : Bool) : Tile := t.setSticky 0x400 urgent
def Tile.setMko (t : Tile) : Tile := t.setSticky 0x800 false

/-- Set an event latch bit (R247). -/
def Tile.latch (t : Tile) (b : Nat) : Tile := { t with core.latch := t.core.latch ||| BitVec.ofNat 8 (2 ^ b) }

end Sys2Proof.Machine
end

