-- ==== Sys2Proof/Machine/Operands.lean ====
section
/-!
DEFINITION. Every operand form: the register files of the running level (R204 to R206, R223), vector registers in stream mode (R91,
R271), token marks (R93), and the control registers (R207, R208, R249).
-/

namespace Sys2Proof.Machine

/- Scalar, vector and mask registers. -/

/-- The bank of the running level (R205). -/
def Core.bank (c : Core) : Bank := match c.level with
  | .normal => c.normal
  | .urgent => c.shadow

/-- Replace the bank of a level. -/
def Core.setBank (c : Core) (l : Level) (b : Bank) : Core := match l with
  | .normal => { c with normal := b }
  | .urgent => { c with shadow := b }

/-- s(n): 0 for s0 (R204, R222). -/
def Bank.sreg (b : Bank) (r : Reg) : Word := if r = 0 then 0 else b.s[r.toNat]

/-- set_s(n, x): discarded for s0 (R204, R222). -/
def Bank.setS (b : Bank) (r : Reg) (x : Word) : Bank := if r = 0 then b else { b with s := b.s.set r.toNat x }

/-- A v register by its field, whose values are 0 to 15 (R201). -/
def Bank.vreg (b : Bank) (r : Reg) : VWord := b.v[r.toNat % 16]
def Bank.setV (b : Bank) (r : Reg) (x : VWord) : Bank := { b with v := b.v.set (r.toNat % 16) x }

/-- A k register by its field, whose values are 0 to 7. -/
def Bank.kreg (b : Bank) (r : Reg) : BitVec 16 := b.k[r.toNat % 8]
def Bank.setK (b : Bank) (r : Reg) (x : BitVec 16) : Bank := { b with k := b.k.set (r.toNat % 8) x }

def State.bank (s : State) : Bank := s.tile.core.bank
def State.setBank (s : State) (b : Bank) : State := { s with tile.core := s.tile.core.setBank s.tile.core.level b }
def State.sr (s : State) (r : Reg) : Word := s.bank.sreg r
def State.setS (s : State) (r : Reg) (x : Word) : State := s.setBank (s.bank.setS r x)
def State.vr (s : State) (r : Reg) : VWord := s.bank.vreg r
def State.setV (s : State) (r : Reg) (x : VWord) : State := s.setBank (s.bank.setV r x)
def State.kr (s : State) (r : Reg) : BitVec 16 := s.bank.kreg r
def State.setK (s : State) (r : Reg) (x : BitVec 16) : State := s.setBank (s.bank.setK r x)

/-- An even pair, low word first (R223). -/
def State.pair (s : State) (r : Reg) : DWord := s.sr (r + 1) ++ s.sr r
def State.setPair (s : State) (r : Reg) (x : DWord) : State :=
  (s.setS r (x.setWidth 32)).setS (r + 1) ((x >>> 32).setWidth 32)

/- Stream mode. -/

/-- The v register n of the running level is in stream mode (R51, R91). -/
def State.streaming (s : State) (n : Nat) : Bool :=
  !s.urgent && decide (12 ≤ n) && s.tile.strm.regs.any fun r => r.n.toNat + 12 == n

/-- The number of elements of a pattern (R90). -/
def PatRec.total (p : PatRec) : Nat := p.dims.foldl (fun a d => a * (d.1 + 1)) 1

/-- A pattern has produced its last element or has been stopped (R91, R371). -/
def Pattern.ended (p : Pattern) : Bool := p.stopped || decide (p.pat.total ≤ p.next)

/-- The fill word in every lane (R90). -/
def fillRow (w : Word) : VWord := w ++ w ++ w ++ w

/-- Read a v register, popping an element of a stream (R91); none where the read must wait. -/
def State.popV (s : State) (r : Reg) : Option (VWord × State) :=
  if s.streaming r.toNat then
    match s.tile.strm.regs.find? fun x => x.n.toNat + 12 == r.toNat with
    | none => some (s.vr r, s)
    | some x =>
      match x.buf with
      | e :: es =>
        some (e, { s with tile.strm.regs := s.tile.strm.regs.map fun y => if y.n = x.n then { y with buf := es } else y })
      | [] => if x.pat.ended then some (fillRow x.pat.pat.fill, s) else none
  else some (s.vr r, s)

/-- Read v registers in operand order (R91, R271). -/
def State.popVs (s : State) : List Reg → Option (List VWord × State)
  | [] => some ([], s)
  | r :: rs =>
    match s.popV r with
    | none => none
    | some (x, s) =>
      match State.popVs s rs with
      | none => none
      | some (xs, s) => some (x :: xs, s)

/- Token marks. -/

/-- A scalar register of a level is marked (R93). -/
def Tile.marked (t : Tile) (l : Level) (r : Reg) : Bool :=
  t.net.marks.any fun m => m.level == l && (m.reg == r || (m.pair && m.reg + 1 == r)) && r != 0

/-- The first register of a list that the running level has marked. -/
def State.stalledOn (s : State) (rs : List Reg) : Option Reg := rs.find? (s.tile.marked s.tile.core.level)

/-- Mark a token register and take an operation number (R93); register 0 takes a number and no mark. -/
def State.mark (s : State) (r : Reg) (pair : Bool := false) : State × Option Nat :=
  let id := s.tile.net.nextId
  if r = 0 then ({ s with tile.net.nextId := id + 1 }, none)
  else
    let m : Mark := { id := id, level := s.tile.core.level, reg := r, pair := pair, scope := s.tile.core.cur.scope, own := s.tile.core.cur.own }
    ({ s with tile.net.nextId := id + 1, tile.net.marks := s.tile.net.marks ++ [m] }, some id)

/-- Write a token register by its operation number and clear the mark (R93); nothing where no mark has the number (R36, R308). -/
def Tile.writeToken (t : Tile) (id : Option Nat) (x : DWord) : Tile :=
  match id with
  | none => t
  | some n =>
    match t.net.marks.find? (·.id = n) with
    | none => t
    | some m =>
      let b := match m.level with
        | .normal => t.core.normal
        | .urgent => t.core.shadow
      let b := b.setS m.reg (x.setWidth 32)
      let b := if m.pair then b.setS (m.reg + 1) ((x >>> 32).setWidth 32) else b
      ({ t with core := t.core.setBank m.level b, net.marks := t.net.marks.filter (·.id ≠ n) }).latch 3

/-- Clear a mark; the register keeps its value (R36). -/
def Tile.clearMark (t : Tile) (id : Option Nat) : Tile :=
  match id with
  | none => t
  | some n => { t with net.marks := t.net.marks.filter (·.id ≠ n) }

/-- Write a token register at a tile. -/
def State.tokenAt (s : State) (p : Phys) (id : Option Nat) (x : Word) : State := s.updTile p (·.writeToken id (x.setWidth 64))

/- Control registers. -/

/-- The mark of a watermark channel (R94). -/
def leadGranules (w : List Nat) : Nat → Nat → Nat
  | 0, a => a
  | n + 1, a => if w.contains a then leadGranules w n (a + 16) else a
def Watermark.mark (w : Watermark) : Nat := leadGranules w.written ((w.hi - w.lo) / 16) w.lo

/-- The loop of level n: loops are held innermost first (R208). -/
def loopAt (ls : List Loop) (n : Nat) : Option Loop := ls.reverse[n]?

/-- c.flags (R208). -/
def State.flagsReg (s : State) : Word :=
  BitVec.ofNat 32 ((if s.tile.core.tdz then 1 else 0) + (if s.tile.core.mko then 2 else 0) + (if s.urgent then 4 else 0)
    + (if s.tile.core.mask.isSome then 8 else 0) + if s.onSteward then 16 else 0)

/-- A control register number that R207 lists. -/
def ctlListed (n : Nat) : Bool :=
  decide (n ≤ 0x0D) || (decide (0x10 ≤ n) && decide (n ≤ 0x15)) || (decide (0x18 ≤ n) && decide (n ≤ 0x1A))
    || (decide (0x20 ≤ n) && decide (n ≤ 0x33)) || (decide (0x38 ≤ n) && decide (n ≤ 0x43))
    || (decide (0x60 ≤ n) && decide (n ≤ 0x63))

/-- A register that only a steward tile may name (R207). -/
def ctlSteward (n : Nat) : Bool := decide (0x60 ≤ n) && decide (n ≤ 0x63)

/-- The value of every control register but c.time, by its number (R207, R208). -/
def State.ctl (s : State) (n : Nat) : Word :=
  let t := s.tile
  match n with
  | 0x00 => t.id.name
  | 0x01 => t.phys.operand
  | 0x02 => t.id.gen.setWidth 32
  | 0x03 => BitVec.ofNat 32 (t.id.gang.toNat + 65536 * (t.id.rank.toNat % 65536))
  | 0x04 => t.id.stage.setWidth 32
  | 0x05 => t.id.carrel.setWidth 32
  | 0x06 => BitVec.ofNat 32 (t.id.hops.toNat + if t.id.spare then 1024 else 0)
  | 0x07 => t.id.temp.setWidth 32
  | 0x08 => t.core.cur.cls.setWidth 32
  | 0x09 => t.core.cur.tag
  | 0x0A => t.core.cur.src
  | 0x0B => t.core.cur.scope
  | 0x0C => t.core.cur.prio.setWidth 32
  | 0x0D => t.id.rank.setWidth 32
  | 0x10 => ((loopAt t.core.cur.loops 0).map (·.left)).getD 0
  | 0x11 => ((loopAt t.core.cur.loops 1).map (·.left)).getD 0
  | 0x12 => s.flagsReg
  | 0x13 => t.core.tstat.setWidth 32
  | 0x14 => t.core.trapen.setWidth 32
  | 0x15 => t.core.seed
  | 0x19 => t.core.timeh
  | 0x1A => s.fld.skew.setWidth 32
  | 0x40 => t.stop.fcause
  | 0x41 => t.stop.fpc.setWidth 32
  | 0x42 => t.stop.faddr
  | 0x43 => t.stop.finfo
  | 0x60 => t.stw.sepc.setWidth 32
  | 0x61 => t.stw.scause.setWidth 32
  | 0x62 => BitVec.ofNat 32 (s.fld.slot % 4096 + 4096 * (s.fld.frame % 2 ^ 20))
  | 0x63 => BitVec.ofNat 32 (t.phys.field.1 + 8 * t.phys.field.2 + if t.phys.loc = (143, 131) then 64 else 0)
  | n =>
    if 0x20 ≤ n ∧ n ≤ 0x2F then t.task.cnt[(n - 0x20) % 16]'(Nat.mod_lt _ (by decide)) |>.count
    else if 0x30 ≤ n ∧ n ≤ 0x33 then
      let w := t.strm.wm[(n - 0x30) % 4]'(Nat.mod_lt _ (by decide))
      BitVec.ofNat 32 (w.mark + if w.on then 2 ^ 31 else 0)
    else if 0x38 ≤ n ∧ n ≤ 0x3F then
      let w := t.view.pw[(n - 0x38) % 8]'(Nat.mod_lt _ (by decide))
      if w.kind = 0 then 0 else w.length
    else 0

/-- MFC of c.time (R168): the field's time advances by a free delay (log entry 7), bits [63:32] are latched. -/
def State.readTime (s : State) : Word × State :=
  let s := s.updFld fun f => { f with time := f.time + f.rate * Config.freeDelay s.free, clk := f.clk + Config.freeDelay s.free }
  let ns := s.fld.ns
  (BitVec.ofNat 32 ns, { s with tile.core.timeh := BitVec.ofNat 32 (ns / 2 ^ 32), free := s.free + 1 })

/-- MTC (R249): writes by the access rules of R2 and R207; an RO register ignores the write. -/
def State.setCtl (s : State) (n : Nat) (x : Word) : State :=
  let c := s.tile.core
  let setLoop (i : Nat) : State :=
    let ls := c.cur.loops.reverse
    match ls[i]? with
    | none => s
    | some l => { s with tile.core.cur.loops := (ls.set i { l with left := x }).reverse }
  match n with
  | 0x10 => setLoop 0
  | 0x11 => setLoop 1
  | 0x12 => { s with tile.core.tdz := c.tdz && !x.getLsbD 0, tile.core.mko := c.mko && !x.getLsbD 1 }
  | 0x13 => { s with tile.core.tstat := c.tstat &&& ~~~(x.setWidth 10) }
  | 0x14 =>
    let en := x.setWidth 12
    let fresh := c.sticky &&& en &&& ~~~c.trapen
    let s := { s with tile.core.trapen := en }
    if fresh = 0 then s else { s with tile := s.tile.addPend (flagTrap fresh s.urgent) }
  | 0x15 => { s with tile.core.seed := x }
  | 0x60 => { s with tile.stw.sepc := x.setWidth 13 }
  | _ => s

end Sys2Proof.Machine
end

