-- ==== Sys2Proof/Machine/View.lean ====
section
/-!
DEFINITION. The local view: the page map and its frames (R73 to R80), the checks that come before every access (R263, R371), and the
accesses. Bytes are held by virtual address (log entry 8): a page keeps its bytes when it is paged out and in.
-/

namespace Sys2Proof.Machine

/-- Bytes of a page of size code k (R75). -/
def pageSize (k : Nat) : Nat := 256 * 4 ^ k

/-- The first address past the local view (R73). -/
def viewEnd : Nat := 0x18000

/-- A page map entry covers an address. -/
def Page.covers (p : Page) (a : Nat) : Bool := decide (p.vbase ≤ a) && decide (a < p.vbase + pageSize p.k)

def View.page (v : View) (a : Nat) : Option Page := v.pages.find? (·.covers a)

/-- The resident page in whose frame a word of the data SRAM lies. -/
def View.pageOfWord (v : View) (w : Nat) : Option Page :=
  v.pages.find? fun p => p.resident && decide (p.pbase ≤ 8 * w) && decide (8 * w < p.pbase + pageSize p.k)

/-- A word of the data SRAM belongs to what a residency takes with it (R68, R71): it lies in a resident page or in the hardware area. -/
def View.carries (v : View) (w : Nat) : Bool := (v.pageOfWord w).isSome || decide (0x16000 ≤ 8 * w)

/-- Change the entry that covers an address. -/
def View.updPage (v : View) (a : Nat) (f : Page → Page) : View :=
  { v with pages := v.pages.map fun p => if p.covers a then f p else p }

/- Frames (R77). -/

/-- The size code of the initial block that holds a physical address. -/
def initialCode (b : Nat) : Nat := if b < 0x10000 then 4 else if b < 0x14000 then 3 else 2

/-- The lowest free block of a size code. -/
def lowestFree (fr : List (Nat × Nat)) (k : Nat) : Option Nat :=
  (fr.filter (·.1 = k)).foldl (fun a x => match a with | none => some x.2 | some y => some (min x.2 y)) none

/-- frame_take(k) of R77: a free block of the size, else split the smallest larger block, the lowest first. -/
def frameTake (fr : List (Nat × Nat)) (k : Nat) : Nat → Option (Nat × List (Nat × Nat))
  | 0 => none
  | fuel + 1 =>
    match lowestFree fr k with
    | some b => some (b, fr.filter (· ≠ (k, b)))
    | none =>
      match (List.range 4).find? fun i => (lowestFree fr (k + 1 + i)).isSome with
      | none => none
      | some i =>
        match lowestFree fr (k + 1 + i) with
        | none => none
        | some b =>
          let q := pageSize (k + i)
          frameTake (fr.filter (· ≠ (k + 1 + i, b)) ++ [(k + i, b), (k + i, b + q), (k + i, b + 2 * q), (k + i, b + 3 * q)]) k fuel

/-- Return a block; four free buddies merge, never beyond the initial partition (R77). -/
def frameFree (fr : List (Nat × Nat)) (k b : Nat) : Nat → List (Nat × Nat)
  | 0 => fr ++ [(k, b)]
  | fuel + 1 =>
    let q := pageSize k
    let p := b - b % (4 * q)
    let bud := [(k, p), (k, p + q), (k, p + 2 * q), (k, p + 3 * q)]
    if k < initialCode b ∧ bud.all (fun x => x == (k, b) || fr.contains x) then
      frameFree (fr.filter fun x => !bud.contains x) (k + 1) p fuel
    else fr ++ [(k, b)]

/- Victims (R78). -/

/-- The iteration counts of element i of a pattern, dimension 0 innermost (R90). -/
def PatRec.counts : List (Nat × Int × Nat × Int) → Nat → List Nat
  | [], _ => []
  | d :: ds, i => i % (d.1 + 1) :: PatRec.counts ds (i / (d.1 + 1))

/-- Element i of a pattern: its address before any wrap, or none for a null element (R90). -/
def PatRec.at (p : PatRec) (i : Nat) : Option Int :=
  let cs := (p.dims.zip (PatRec.counts p.dims i)).map fun x => ((if p.bounded then x.1.2.1 + (x.2 : Int) else (x.2 : Int)), x.1)
  if p.bounded ∧ cs.any (fun c => decide (c.1 < 0) || decide ((c.2.2.2.1 : Int) ≤ c.1)) then none
  else some (cs.foldl (fun a c => a + c.1 * c.2.2.2.2) (p.base : Int))

/-- The base of a window with its low four bits 0 (R85). -/
def Window.start (w : Window) : Nat := w.base - w.base % 16

/-- The local address of the 16 bytes that element i of a pattern names, if it names any: in the view itself, or in the local parameter window that the
pattern names (R78, R90). A window's pattern names offsets, wrapped to 32 bits, and no byte outside its window. -/
def Tile.patAddr (t : Tile) (p : PatRec) (i : Nat) : Option Nat :=
  (p.at i).bind fun x =>
    let a := (wrap32 x).toNat
    if p.space = 0 then some a
    else if 8 ≤ p.space then
      let w := t.view.pw[(BitVec.ofNat 3 (p.space - 8)).toNat]
      if w.kind = 2 ∧ a + 16 ≤ 16 * w.length.toNat then some (w.start + a) else none
    else none

/-- A pattern names an address in [lo, hi), whether its element has been fetched or not: its pages are busy while it is bound (R78, R91). -/
def Tile.patNames (t : Tile) (p : PatRec) (lo hi : Nat) : Bool :=
  (List.range p.total).any fun i => (t.patAddr p i).any fun a => decide (a < hi) && decide (lo < a + 16)

/-- The patterns that are bound. -/
def Tile.boundPats (t : Tile) : List PatRec :=
  t.strm.regs.map (·.pat.pat) ++ [t.tens.ta, t.tens.tb].flatMap fun f => match f.bind with
    | .loc a b => [a.pat, b.pat]
    | _ => []

/-- The local ranges that copies and watermark channels name (R78). An LDP of a local window names its word only in the step that reads it. -/
def Tile.busyRanges (t : Tile) : List (Nat × Nat) :=
  (t.strm.copies.flatMap fun c => match c.kind with
    | .get | .getFar => [(c.dst, c.dst + c.length)]
    | .getLoc => [(c.src, c.src + c.length), (c.dst, c.dst + c.length)]
    | .put | .putFar => [(c.src, c.src + c.length)])
  ++ (t.strm.wm.toList.filter (·.on)).map fun w => (w.lo, w.hi)

/-- A busy page (R78). -/
def Tile.busy (t : Tile) (p : Page) : Bool :=
  (t.busyRanges.any fun r => decide (r.1 < p.vbase + pageSize p.k) && decide (p.vbase < r.2))
    || t.boundPats.any fun x => t.patNames x p.vbase (p.vbase + pageSize p.k)

/-- A page that may be chosen as a victim (R78). -/
def Tile.evictable (t : Tile) (p : Page) : Bool :=
  p.resident && !p.pinned && !t.busy p && !(t.core.mask.isSome && t.core.maskPages.contains p.vbase)

/-- The better victim: the larger (epoch − stamp), ties to the lower base. -/
def olderPage (e : BitVec 16) (p q : Page) : Bool :=
  decide ((e - q.stamp).toNat < (e - p.stamp).toNat) || (decide ((e - q.stamp) = (e - p.stamp)) && decide (p.vbase < q.vbase))

def Tile.victim (t : Tile) : Option Page :=
  (t.view.pages.filter t.evictable).foldl (fun a p => match a with
    | none => some p
    | some q => if olderPage t.view.epoch p q then some p else some q) none

/-- The local addresses of a page's uncorrectable words. -/
def View.badOf (v : View) (p : Page) : List Nat :=
  (v.bad.filter fun w => decide (p.pbase ≤ 8 * w) && decide (8 * w < p.pbase + pageSize p.k)).map fun w => p.vbase + (8 * w - p.pbase)

/-- page_out (R77, R79): the frame is released at once; a page that is clean keeps its spill copy, and one that must be written holds its bytes, and which of
them are uncorrectable, in the write until the spill slot has them. -/
def Tile.pageOut (t : Tile) (p : Page) : Tile :=
  { t with view.frames := frameFree t.view.frames p.k p.pbase 5,
           view.mem := if p.dirty ∨ p.spill = .absent then t.view.mem else t.view.mem.clear p.vbase (pageSize p.k),
           view.pages := t.view.pages.map fun q => if q.vbase = p.vbase then
             { q with resident := false, dirty := false, spill := if q.dirty ∨ q.spill = .absent then .writing else q.spill,
                      bad := if q.dirty ∨ q.spill = .absent then t.view.badOf q else [] } else q }

/-- The loop of R77: evict until a frame of size code k is free; the frame, or none when no victim is left. -/
def Tile.takeFrame (t : Tile) (k : Nat) : Nat → Option Nat × Tile
  | 0 => (none, t)
  | fuel + 1 =>
    match frameTake t.view.frames k 6 with
    | some (b, fr) => (some b, { t with view.frames := fr })
    | none =>
      match t.victim with
      | none => (none, t)
      | some p => Tile.takeFrame (t.pageOut p) k fuel

/- Checks (R263). -/

/-- What a check finds: the access may go on, or a fault, or a wait (R357 reasons 1 and 2). -/
inductive Chk where
  | ok
  | fault (f : FaultRec)
  | wait (reason : Nat) (addr : Word)
deriving DecidableEq, Repr

/-- A fault record of a local address (R369): write flag in finfo [0]. -/
def localFault (code : BitVec 8) (a : Nat) (write : Bool) : FaultRec :=
  { code := code, addr := BitVec.ofNat 32 a, info := if write then 1 else 0 }

/-- The physical word address of a local address in a resident page (R337). -/
def Page.wordAt (p : Page) (a : Nat) : Nat := (p.pbase + (a - p.vbase)) / 8

/-- The words of the pages that an access to [a, a + n) touches. -/
def touchedWords (a n : Nat) : List Nat := (List.range ((a + n - 1) / 8 - a / 8 + 1)).map fun i => 8 * (a / 8 + i)

/-- First byte of [a, a + n) in each 256-byte piece: every page has at least that size. -/
def pieces (a n : Nat) : List Nat :=
  (List.range ((a + n - 1) / 256 - a / 256 + 1)).map fun i => if i = 0 then a else 256 * (a / 256 + i)

/-- A line of 128 bytes that is not yet zeroed or still read out (R77). -/
def Page.lineBusy (p : Page) (a n : Nat) : Bool :=
  p.unzeroed.any fun l => decide (l < a + n) && decide (a < l + 128)

/-- The first address of an access whose page has a property. -/
def View.firstPiece (v : View) (a n : Nat) (f : Option Page → Bool) : Option Nat := (pieces a n).find? fun x => f (v.page x)

/-- A core load touches a byte that a configured channel has not passed (R94). -/
def Tile.belowMark (t : Tile) (a n : Nat) : Bool :=
  t.strm.wm.toList.any fun w => w.on && decide (w.mark < a + n) && decide (a < w.hi) && decide (w.mark < w.hi)

/-- The bound and map checks of R263 and R371, in that order over the whole range. -/
def View.mapCheck (v : View) (a n : Nat) (write : Bool) : Chk :=
  if viewEnd < a + n then .fault (localFault 0x40 (if viewEnd ≤ a then a else viewEnd) write)
  else match v.firstPiece a n (·.isNone) with
    | some x => .fault (localFault 0x41 x write)
    | none => .ok

/-- Code 0x48 for a page (R369, R373): the far cause that failed its page-in, or its lost spill copy. -/
def pageFault (p : Page) (a : Nat) : FaultRec :=
  { code := 0x48, addr := BitVec.ofNat 32 a,
    info := if p.spill = .lost then 0x4000 else p.failed.getD 0 }

/-- The whole check of a core access of [a, a + n) (R263): bound, map, residency, zeroing, watermarks, and for a read (a store of part
of a word reads it, R81) the words' check bits (R346). -/
def Tile.check (t : Tile) (a n : Nat) (write load : Bool) : Chk :=
  match t.view.mapCheck a n write with
  | .ok =>
    match t.view.firstPiece a n (fun p => match p with | some p => !p.resident | none => false) with
    | some x =>
      (match t.view.page x with
       | some p => if p.spill = .lost ∨ p.failed.isSome then .fault (pageFault p x) else .wait 1 (BitVec.ofNat 32 x)
       | none => .ok)
    | none =>
      if t.view.pages.any (·.lineBusy a n) then .wait 1 (BitVec.ofNat 32 a)
      else if load && t.belowMark a n then .wait 2 (BitVec.ofNat 32 a)
      else
        match (touchedWords a n).find? fun w =>
            (load || decide (w < a) || decide (a + n < w + 8)) &&
              (match t.view.page w with | some p => t.view.bad.contains (p.wordAt w) | none => false) with
        | some w => .fault { code := 0x80, hard := true, addr := BitVec.ofNat 32 w,
                             info := BitVec.ofNat 32 (((t.view.page w).map (·.wordAt w)).getD 0) }
        | none => .ok
  | c => c

/-- Start the page-in that a wait of reason 1 needs, and forget a failed one so that a retry attempts it again (R79, R373). -/
def Tile.startPageIn (t : Tile) (a : Nat) : Tile :=
  { t with view := t.view.updPage a fun p => if p.resident then p else { p with pagingIn := true } }

def Tile.forgetFailure (t : Tile) (a : Nat) : Tile :=
  { t with view := t.view.updPage a fun p => { p with failed := none } }

/- The local ends of agents' accesses. -/

/-- Every page of a local range is resident and no line of it is being zeroed. -/
def View.ready (v : View) (a n : Nat) : Bool :=
  (v.firstPiece a n fun p => match p with
    | some p => !p.resident
    | none => false).isNone && !v.pages.any (·.lineBusy a n)

/-- Begin the page-ins that a local range of an agent needs (R79, R302). -/
def Tile.wantPages (t : Tile) (a n : Nat) : Tile := (pieces a n).foldl (fun t x => t.startPageIn x) t

/-- The first word of a local range whose check bits fail (R346). -/
def View.badWord (v : View) (a n : Nat) : Option Nat :=
  if v.bad = [] then none
  else (touchedWords a n).find? fun w => match v.page w with
    | some p => v.bad.contains (p.wordAt w)
    | none => false

/-- The hard fault of a bad word that an agent read (R337). -/
def View.badFault (v : View) (w : Nat) (agent : BitVec 3) : FaultRec :=
  { code := 0x80, hard := true, agent := agent, addr := BitVec.ofNat 32 w,
    info := BitVec.ofNat 32 (((v.page w).map (·.wordAt w)).getD 0 + 2 ^ 14 * agent.toNat) }

/-- A page of a local range whose page-in has failed, or whose spill copy is lost (R373): the fault of an agent's access. -/
def View.deadPage (v : View) (a n : Nat) (agent : BitVec 3) : Option FaultRec :=
  (pieces a n).findSome? fun x => match v.page x with
    | some p => if !p.resident && (p.spill == .lost || p.failed.isSome) then some { pageFault p x with agent := agent } else none
    | none => none

/-- What an agent's access to [a, a + n) meets after the map check (R83, R302, R346, R373): nothing, a fault, or a wait for pages; a failure
is forgotten, so that the next access tries again. `reads` says that the words' check bits matter. -/
inductive Seek where
  | ok
  | fault (f : FaultRec) (t : Tile)
  | wait (t : Tile)

def Tile.seek (t : Tile) (a n : Nat) (reads : Bool) (agent : BitVec 3) : Seek :=
  match t.view.deadPage a n agent with
  | some f => .fault f (t.forgetFailure f.addr.toNat)
  | none =>
    if !t.view.ready a n then .wait (t.wantPages a n)
    else match (if reads then t.view.badWord a n else none) with
      | some w => .fault (t.view.badFault w agent) t
      | none => .ok

/-- A word that a read or scrubbing meets with a correctable error (R261, R347), of the instruction store or of data SRAM: it is written back, counted, its address kept,
and the correction is to be reported. -/
def View.correct (v : View) (ist : Bool) (w : Nat) : View :=
  if v.soft.contains (ist, w) then
    { v with soft := v.soft.erase (ist, w), ce := if ist then v.ce else v.ce + 1, ice := if ist then v.ice + 1 else v.ice,
             ceAddr := BitVec.ofNat 15 (w + if ist then 2 ^ 14 else 0), fixed := v.fixed ++ [(ist, w)] }
  else v

/-- The words that an access to local memory reads are corrected (R347): of a store those that it covers in part (R81). -/
def View.correctRead (v : View) (a n : Nat) (write : Bool) : View :=
  if v.soft = [] then v
  else ((touchedWords a n).filter fun w => !write || decide (w < a) || decide (a + n < w + 8)).foldl (fun v w => match v.page w with
    | some p => v.correct false (p.wordAt w)
    | none => v) v

/-- Note an access in the page map (R76) and, while a masked window is open, in its access set (R53); what it reads is corrected (R347). -/
def Tile.touch (t : Tile) (a n : Nat) (write core : Bool) : Tile :=
  let hit (p : Page) : Bool := decide (p.vbase < a + n) && decide (a < p.vbase + pageSize p.k)
  let ps := (t.view.pages.filter hit).map (·.vbase)
  { t with view := { t.view.correctRead a n write with
             pages := t.view.pages.map fun p => if hit p then { p with used := true, dirty := p.dirty || write } else p },
           core.maskPages := if core && t.core.mask.isSome && t.core.level = .normal
             then t.core.maskPages ++ ps.filter (fun b => !t.core.maskPages.contains b) else t.core.maskPages }

/-- Write bytes at a local address: whole aligned words get good check bits (R346, R347). -/
def Tile.store (t : Tile) (a : Nat) (bs : List Byte) : Tile :=
  let whole := (touchedWords a bs.length).filter fun w => decide (a ≤ w) && decide (w + 8 ≤ a + bs.length)
  let good := whole.filterMap fun w => (t.view.page w).map (·.wordAt w)
  { t with view.mem := t.view.mem.writeBytes a bs,
           view.bad := if t.view.bad = [] then [] else t.view.bad.filter fun w => !good.contains w,
           view.soft := if t.view.soft = [] then [] else t.view.soft.filter fun x => x.1 || !good.contains x.2 }

/- The store queue (R118). -/

/-- The first byte of a bit field and the number of bytes that it touches (R82). -/
def bitBytes (ba w : Nat) : Nat × Nat := (ba / 8, (ba + w - 1) / 8 - ba / 8 + 1)

/-- A number with `w` bits from bit `p` replaced by those of `x`. -/
def putBits (m p w x : Nat) : Nat := m - m / 2 ^ p % 2 ^ w * 2 ^ p + x % 2 ^ w * 2 ^ p

/-- A bit field stored: its bytes are read and written with every other bit as it is (R267). -/
def Memory.setBits (m : Memory) (ba w x : Nat) : Memory :=
  m.setN (bitBytes ba w).1 (bitBytes ba w).2 (putBits (m.getN (bitBytes ba w).1 (bitBytes ba w).2) (ba % 8) w x)

/-- A store of the queue applied to memory. -/
def StoreOp.apply (m : Memory) : StoreOp → Memory
  | .bytes a bs => m.writeBytes a bs
  | .bits ba w x => m.setBits ba w x

/-- Memory as the core's own loads see it: the store queue is forwarded. -/
def View.coreMem (v : View) : Memory := v.stores.foldl StoreOp.apply v.mem

/-- A store of the queue is performed; a bit field's read and its write are held together (R264). -/
def Tile.storeOp (t : Tile) : StoreOp → Tile
  | .bytes a bs => t.store a bs
  | .bits ba w x => { t with view.mem := t.view.mem.setBits ba w x }

/-- The oldest store of the queue is performed. -/
def Tile.drainOne (t : Tile) : Tile :=
  match t.view.stores with
  | [] => t
  | e :: r => ({ t with view.stores := r }).storeOp e

/-- Every store of a list is performed, oldest first. -/
def Tile.perform (t : Tile) : List StoreOp → Tile
  | [] => t
  | e :: r => Tile.perform (t.storeOp e) r

/-- The queue drains. -/
def Tile.drain (t : Tile) : Tile := ({ t with view.stores := [] }).perform t.view.stores

/-- A store enters the queue of four entries; a full one performs its oldest store first. -/
def Tile.queueStore (t : Tile) (e : StoreOp) : Tile :=
  let t := if 4 ≤ t.view.stores.length then t.drainOne else t
  { t with view.stores := t.view.stores ++ [e] }

/-- A core store of bytes. -/
def Tile.coreStore (t : Tile) (a : Nat) (bs : List Byte) : Tile := t.queueStore (.bytes a bs)

/-- A core store of a bit field (R267): other agents may see the two words of one that straddles apart (R264). -/
def Tile.coreStoreBits (t : Tile) (ba w x : Nat) : Tile :=
  let n := 64 - ba % 64
  if w ≤ n then t.queueStore (.bits ba w x) else (t.queueStore (.bits ba n x)).queueStore (.bits (ba + n) (w - n) (x / 2 ^ n))

/-- Write an n-byte number at a local address. -/
def Tile.storeN (t : Tile) (a n x : Nat) : Tile := t.store a (natBytes n x)

/-- The bound and map checks of a list of accesses, in order. -/
def View.mapCheckAll (v : View) : List (Nat × Nat × Bool × Bool) → Chk
  | [] => .ok
  | (a, n, w, _) :: xs =>
    match v.mapCheck a n w with
    | .ok => View.mapCheckAll v xs
    | c => c

/-- The whole checks of a list of accesses, in order. -/
def Tile.checkEach (t : Tile) : List (Nat × Nat × Bool × Bool) → Chk
  | [] => .ok
  | (a, n, w, l) :: xs =>
    match t.check a n w l with
    | .ok => Tile.checkEach t xs
    | c => c

/-- Check a list of accesses: every range lies in the view and is mapped before anything is waited for (R263, R353). Each access is
(address, bytes, write, load). -/
def Tile.checkAll (t : Tile) (l : List (Nat × Nat × Bool × Bool)) : Chk :=
  match t.view.mapCheckAll l with
  | .ok => t.checkEach l
  | c => c

/-- ALLOC's checks and frame loop (R77): a fault keeps the page-outs already made. -/
def Tile.alloc (t : Tile) (v k : Nat) : Option FaultRec × Tile :=
  let bad (r : Nat) : FaultRec := { code := 0x42, addr := BitVec.ofNat 32 v, info := BitVec.ofNat 32 r }
  let size := pageSize k
  if v % size ≠ 0 ∨ viewEnd < v + size then (some (bad 0), t)
  else if t.view.pages.any fun p => decide (p.vbase < v + size) && decide (v < p.vbase + pageSize p.k) then (some (bad 1), t)
  else if 64 ≤ t.view.pages.length then (some (bad 2), t)
  else
    match t.takeFrame k 65 with
    | (none, t) => (some (bad 3), t)
    | (some b, t) =>
      let p : Page := { k := k, vbase := v, pbase := b, stamp := t.view.epoch, unzeroed := (List.range (size / 128)).map fun i => v + 128 * i }
      (none, { t with view.pages := t.view.pages ++ [if size < 128 then { p with unzeroed := [v] } else p],
                      view.mem := t.view.mem.clear v size,
                      view.bad := t.view.bad.filter fun w => decide (8 * w < b) || decide (b + size ≤ 8 * w) })

/-- FREE of the page that covers an address (R80, R373). -/
def Tile.freePage (t : Tile) (p : Page) : Tile :=
  { t with view.pages := t.view.pages.filter (·.vbase ≠ p.vbase),
           view.frames := match (if p.resident then some p.pbase else p.io.bind (·.frame)) with
             | some b => frameFree t.view.frames p.k b 5
             | none => t.view.frames,
           view.mem := t.view.mem.clear p.vbase (pageSize p.k) }

/-- KiB that the pinned pages hold, and their bytes (R80). -/
def View.pinned (v : View) : Nat := (v.pages.filter (·.pinned)).foldl (fun a p => a + pageSize p.k) 0

/-- Zero the next line of the background work of R77, the lowest line of the first page that has one. -/
def zeroOne : List Page → List Page
  | [] => []
  | p :: ps => match p.unzeroed with
    | [] => p :: zeroOne ps
    | _ :: ls => { p with unzeroed := ls } :: ps

/-- An epoch tick (R76), one for every 4,096 clk: what has passed beyond them counts for the next. -/
def View.tick (v : View) : View :=
  let e := v.epoch + 1
  { v with epoch := e, epochClk := v.epochClk - Config.epochClk,
           pages := v.pages.map fun p => if p.used then { p with stamp := e, used := false } else p }

end Sys2Proof.Machine
end

