-- ==== Sys2Proof/Machine/Fabric.lean ====
section
/-!
DEFINITION. Messages on the fabric (R139, R140, R142, R290): where agents connect, channels, the bits of headers and flits, the way of a message, and its
arrival.
-/

namespace Sys2Proof

/-- A coordinate that names an edge agent or a peer port: beyond the core array (log entry 70). -/
def Phys.agent (p : Phys) : Bool := decide (1152 ≤ p.px)

end Sys2Proof

namespace Sys2Proof.Machine

/- Agents. -/

/-- The field nearest to a port of a side: 12 edge ports or 36 peer ports a side, south, east, north, west (R13, R14). -/
def sideField (side k : Nat) : Nat × Nat :=
  match side with
  | 0 => (k % 8, 0)
  | 1 => (7, k % 8)
  | 2 => (k % 8, 7)
  | _ => (0, k % 8)

/-- The field of an edge port, whose numbers R13 gives by side, and of a peer port, whose numbers by side the model takes in the same order (log
entry 71). -/
def edgeField (n : Nat) : Nat × Nat := sideField (n / 12) (Config.portField n)
def peerFieldOf (n : Nat) : Nat × Nat := sideField (n / 36) (Config.peerField n)

/-- The coordinates that name edge agent and peer port n (log entry 70). -/
def edgeAgent (n : Nat) : Phys := { px := 1152 + n, py := 0 }
def peerAgent (n : Nat) : Phys := { px := 1152 + n, py := 1 }

/-- The tile at place k of the outermost row or column of a field on a side. -/
def sideTile (side : Nat) (f : Nat × Nat) (k : Nat) : Phys :=
  match side with
  | 0 => { px := 144 * f.1 + k % 144, py := 0 }
  | 1 => { px := 1151, py := 132 * f.2 + k % 132 }
  | 2 => { px := 144 * f.1 + k % 144, py := 1055 }
  | _ => { px := 0, py := 132 * f.2 + k % 132 }

/-- The tile at whose router a coordinate's network interface connects. -/
def home (p : Phys) : Phys :=
  if !p.agent then p
  else
    let n := p.px - 1152
    if p.py = 0 then sideTile (n / 12) (edgeField n) (Config.agentPlace n) else sideTile (n / 36) (peerFieldOf n) (Config.agentPlace (48 + n))

/- Channels. -/

/-- The logical channel of an operation (R121): 0 request, 1 reply, 2 urgent, 3 control; 4 holds the tokens, notices and markers of
combining, which keep their order among themselves (R157, R388). -/
def pktChannel (p : Packet) : Nat :=
  match p.body with
  | .send _ _ => if p.hdr.urgent then 2 else 0
  | .ratomReply _ _ _ _ _ => 1
  | .getReply _ _ _ => 1
  | .ack _ _ _ _ _ => 1
  | .barReply _ _ _ => 1
  | .farReply _ _ _ _ _ => 1
  | .combine _ => 4
  | .renorm _ _ _ => 4
  | .marker _ _ _ => 4
  | .barRelease _ _ _ _ => 3
  | .cancelNotice _ => 3
  | .cancelAck _ _ => 3
  | .retireNotice _ => 3
  | .retireAck _ => 3
  | .lineReport _ => 3
  | .lineRelease _ => 3
  | .boostCount _ _ _ => 3
  | .boostLine _ _ => 3
  | .control _ _ _ _ _ _ => 3
  | .invalidate _ _ _ _ => 3
  | .migCopy _ => 3
  | .endMarker c => c.toNat
  | .finalMarker => 3
  | .start _ _ => 0
  | _ => 0

end Sys2Proof.Machine

namespace Sys2Proof

/-- The channel that a header names (R142): control for what a forwarding entry sends on (R69, R121); combine traffic goes as requests do (log entry 72). -/
def Packet.lch (p : Packet) (w : Way) : Nat := if w.fwd then 3 else if Machine.pktChannel p = 4 then 0 else Machine.pktChannel p

/- Bits (R142, R150, R153, R290). -/

/-- Data flits of an operation. -/
def Body.dataFlits : Body → Nat
  | .send _ bs => (bs.length + 15) / 16
  | .rst _ bs _ => bs.length / 16
  | .ratom _ op _ _ _ _ _ => if op = 9 then 1 else 0
  | .istore _ xs => (xs.length + 7) / 8
  | .getReply _ _ bs => (bs.length + 15) / 16
  | .putChunk _ _ bs _ _ _ _ => (bs.length + 15) / 16
  | .combine t => match t.data with
    | .blk _ => 6
    | _ => 1
  | .control _ _ _ _ pw _ => pw.length
  | .farReq _ _ _ _ bs => (bs.length + 15) / 16
  | .farReply _ _ _ _ bs => (bs.length + 15) / 16
  | _ => 0

/-- Flits of a message after its header (R142). -/
def Packet.len (p : Packet) : Nat := 1 + p.body.dataFlits

/-- A field of a flit: its value at a bit. -/
def at' (b x : Nat) : Nat := 2 ^ b * x
def flagBit (b : Nat) (x : Bool) : Nat := if x then 2 ^ b else 0

/-- A header's 128 bits (R142). -/
def FlitHdr.bits (h : FlitHdr) : BitVec 128 :=
  BitVec.ofNat 128 (h.dst.px % 2048 + at' 11 (h.dst.py % 2048) + at' 22 h.vc.toNat + at' 25 h.carrel.toNat + at' 36 h.op.toNat + at' 41 h.cls.toNat
    + at' 45 h.prio.toNat + flagBit 47 h.urgent + at' 48 h.len.toNat + flagBit 54 h.stw + at' 55 h.lane.toNat + flagBit 57 h.fwd + at' 58 h.lch.toNat
    + at' 60 h.reserved.toNat + at' 64 h.scope.toNat + at' 96 h.src.toNat)

/-- The header of a message on its way (R142). -/
def Packet.header (p : Packet) (w : Way) : FlitHdr :=
  { dst := w.dst, vc := w.vc, carrel := p.hdr.carrel, op := BitVec.ofNat 5 p.body.op, cls := p.hdr.cls, prio := p.hdr.prio, urgent := p.hdr.urgent,
    len := BitVec.ofNat 6 p.len, stw := w.stw, lane := w.lane, fwd := w.fwd, lch := BitVec.ofNat 2 (p.lch w), scope := p.hdr.scope, src := p.hdr.src }

/-- The class code, exponent or origin, and coarse bit of a partial block (R106, R153). -/
def PBlock.opBits : PBlock → Nat
  | .absent => at' 46 1
  | .finite x _ c => at' 32 (x % 2 ^ 14) + flagBit 62 c
  | .over _ c => at' 46 2 + flagBit 62 c
  | .err o c => at' 46 3 + at' 48 o.toNat + flagBit 62 c

/-- An operation flit (R150, R153, R290); of operations whose layout the spec does not give the bits are 0 (log entry 18). -/
def Body.opBits : Body → Nat
  | .send tag bs => tag.toNat + at' 32 (bs.length % 1024)
  | .rst a bs cnt => a % 2 ^ 32 + at' 32 (if bs.length = 4 then 0 else if bs.length = 8 then 1 else 2)
      + (match cnt with
         | some c => at' 34 1 + at' 35 c.toNat
         | none => 0) + if bs.length < 16 then at' 64 (Machine.leNat bs) else 0
  | .ratom a op wide reg _ x _ => a % 2 ^ 32 + at' 32 (op % 16) + flagBit 36 wide + at' 37 reg.toNat + at' 64 x.toNat
  | .ratomReply reg wide _ old _ => reg.toNat + flagBit 5 wide + at' 64 old.toNat
  | .tdec a n => a % 2 ^ 32 + at' 32 n.toNat
  | .spawn a w x => a % 2 ^ 32 + at' 32 w.toNat + at' 64 x.toNat
  | .istore a xs => a % 2 ^ 13 + at' 16 (xs.length % 512)
  | .getReq a len copy dst _ => a % 2 ^ 48 + at' 48 (len % 2 ^ 17) + at' 65 (copy % 16) + at' 96 (dst % 2 ^ 32)
  | .getReply copy off bs => off % 2 ^ 17 + at' 32 (bs.length % 512) + at' 65 (copy % 16)
  | .putChunk _ a bs wm cnt last tag => a % 2 ^ 32 + at' 32 (bs.length % 512)
      + (match wm with
         | some c => at' 41 1 + at' 42 c.toNat
         | none => 0)
      + (match cnt with
         | some c => at' 44 1 + at' 45 c.toNat
         | none => 0) + flagBit 49 last
      + match tag with
        | some x => at' 50 1 + at' 51 x.toNat
        | none => 0
  | .ack cls _ how _ _ => cls.toNat + flagBit 2 (how != .performed && how != .dropped) + flagBit 3 (how == .dropped)
      + flagBit 4 (how == .uncorrectable)
  | .combine t => t.route.toNat + at' 8 (t.idx % 2 ^ 24) + match t.data with
    | .lanes _ => at' 32 t.flags.toNat
    | .absent => at' 32 t.flags.toNat + at' 36 1
    | .blk p => p.opBits + at' 64 t.flags.toNat
  | _ => 0

/-- The 768 data bits of a partial block (R153). -/
def PBlock.dataBits : PBlock → Nat
  | .finite _ p _ => (List.range p.length).foldl (fun a i => a + at' (24 * i) ((p.getD i 0) % 2 ^ 24).toNat) 0
  | .over l _ => (List.range l.length).foldl (fun a i => a + flagBit (24 * i + 23) (l.getD i false)) 0
  | _ => 0

/-- Data flit k of an operation (R150, R153, R290). -/
def Body.dataBits (b : Body) (k : Nat) : Nat :=
  let of (bs : List Byte) : Nat := Machine.leNat ((bs.drop (16 * k)).take 16)
  match b with
  | .send _ bs => of bs
  | .rst _ bs _ => of bs
  | .ratom _ _ _ _ _ _ cmp => cmp.toNat
  | .istore _ xs => ((List.range 8).foldl (fun a i => a + at' (16 * i) (xs.getD (8 * k + i) 0).toNat) 0)
  | .getReply _ _ bs => of bs
  | .putChunk _ _ bs _ _ _ _ => of bs
  | .combine t => match t.data with
    | .lanes v => v.toNat
    | .absent => 0
    | .blk p => p.dataBits / 2 ^ (128 * k) % 2 ^ 128
  | .farReq _ _ _ _ bs => of bs
  | .farReply _ _ _ _ bs => of bs
  | _ => 0

/-- Flit i of a message. -/
def Packet.flitBits (p : Packet) (w : Way) (i : Nat) : BitVec 128 :=
  match i with
  | 0 => (p.header w).bits
  | 1 => BitVec.ofNat 128 p.body.opBits
  | k + 2 => BitVec.ofNat 128 (p.body.dataBits k)

end Sys2Proof

namespace Sys2Proof.Machine

/-- The CRC-16 of a group (R143): polynomial 0x8BB7 over its 512 payload bits, the highest first, from 0 (log entry 73), taken eight at a time. -/
def crc16 (x : BitVec 512) : BitVec 16 :=
  (List.range 64).foldl (fun c k => (List.range 8).foldl (fun c _ => if c.getLsbD 15 then (c <<< 1) ^^^ 0x8BB7 else c <<< 1)
    (c ^^^ ((x >>> (504 - 8 * k)).setWidth 8 : BitVec 8).setWidth 16 <<< 8)) 0

/- The way of a message. -/

/-- The egress of a name on another carrel wafer: the peer port of its list that the hash picks (R182, R183); where no port is listed (R398) the message
goes to peer port 0, at which it is refused (log entry 74). -/
def Carrel.egress (c : Carrel) (src n : Word) : Phys :=
  peerAgent (match (c.peers.find? (·.1 = nameWafer n)).map (·.2) with
    | none => 0
    | some l => l.getD (Config.peerHash src n % l.length) 0)

/-- Where a name leads from the network interface at a coordinate: the coordinate, and whether the route may leave the carrel's tiles (R63, R64, R140). The
name cache answers; where it does not, the catalogue does (an agent's own send waits for no walk; log entry 75). -/
def State.leads (s : State) (q : Phys) (p : Packet) : Option (Phys × Bool) :=
  match p.dest with
  | some d => some (d, d.agent || q.agent || d.steward)
  | none =>
    let t := s.tileAt q
    let n := p.hdr.dst
    let mine := t.inCarrel p.hdr.carrel.toNat
    if mine ∧ n = t.id.name then some (q, false)
    else match if mine then t.net.names.find? (·.name = n) else none with
      | some e => some (e.phys, e.xr || t.net.xr || e.phys.agent)
      | none =>
        (s.carrel p.hdr.carrel.toNat).bind fun c =>
          if nameWafer n ≠ 0 then some (c.egress p.hdr.src n, true)
          else (s.locate c (nameX n) (nameY n)).map fun d => (d, slotXr (s.slotOf c (nameX n) (nameY n)) || t.net.xr || q.agent)

/-- The virtual channel of a message (R140): steward traffic on control; what may leave the carrel's tiles, on transit; else the channel's own. -/
def vcOf (p : Packet) (stw out : Bool) : BitVec 3 :=
  if stw then 4 else if out then 3 else match pktChannel p with
    | 1 => 1
    | 2 => 2
    | 3 => 4
    | _ => 0

/-- The coordinate from which a message is sent: the tile in focus, or, for steward traffic that starts elsewhere, the steward that acts for the carrel's home
field (R12, R43, R142, R340). -/
def State.sender (s : State) (p : Packet) : Phys :=
  if p.hdr.src ≠ 0xFFFFFFFF ∨ s.onSteward then s.tile.phys
  else match s.carrel p.hdr.carrel.toNat with
    | some c => s.stewardOf c.home
    | none => s.stewardOf s.tile.phys.field

/-- Put a message in flight from the network interface at a coordinate towards another, on a route that may leave the carrel's tiles if `out`. -/
def State.sendTo (s : State) (q d : Phys) (out : Bool) (p : Packet) : State :=
  let stw := q.steward
  { s with
    net := s.net ++ [{ p with
      origin := q, way := some { id := s.serial, src := q, dst := d, vc := vcOf p stw out, stw := stw, left := p.len + 1 }, place := none, fwd := false }],
    serial := s.serial + 1 }

/-- Put a message in flight from the network interface at a coordinate; a name that leads nowhere goes nowhere. -/
def State.emitFrom (s : State) (q : Phys) (p : Packet) : State :=
  match s.leads q p with
  | none => s
  | some (d, out) => s.sendTo q d out p

/-- Put a message in flight. -/
def State.emit (s : State) (p : Packet) : State := s.emitFrom (s.sender p) p

/-- The message of a number, with its way. -/
def State.onWay (s : State) (m : Nat) : Option (Packet × Way) :=
  s.net.findSome? fun p => p.way.bind fun w => if w.id = m then some (p, w) else none

/-- The message of a flit is still under way. -/
def State.under (s : State) (x : Flit) : Bool := (s.onWay x.msg).isSome

/-- Replace a message in flight. -/
def State.putPacket (s : State) (p q : Packet) : State := { s with net := s.net.map fun x => if x = p then q else x }

/-- One more flit of a message has reached its end: the far network interface takes it, or a router discards it (`lost`). With the last one the message
has arrived, or, if any was lost, is gone. -/
def State.flitEnds (s : State) (m : Nat) (lost : Bool) : State :=
  match s.onWay m with
  | none => s
  | some (p, w) =>
    let w := { w with left := w.left - 1, lost := w.lost || lost }
    if 0 < w.left then s.putPacket p { p with way := some w }
    else if w.lost then { s with net := s.net.erase p }
    else { s.putPacket p { p with way := none, place := some (w.dst, s.serial), fwd := w.fwd } with serial := s.serial + 1 }

end Sys2Proof.Machine
end

