-- ==== Sys2Proof/Machine/Net.lean ====
section
/-!
DEFINITION. Operations in flight and what the task unit does with them: ready rings (R27, R28, R46), counters and armed slots (R161 to
R163), remote operations, their channels and acknowledgements (R121, R123, R290), and notices to the host (R178, R340).
-/

namespace Sys2Proof.Machine

/- Ready rings. -/

def Tile.ringCount (t : Tile) (c : BitVec 2) : Nat := (t.task.rings.filter (·.prio = c)).length

/-- A push finds room in its class's ring or in the overflow queue (R28). -/
def Tile.canPush (t : Tile) (c : BitVec 2) : Bool :=
  decide (t.ringCount c < 256) || decide (t.task.overflow.length < 16)

/-- The place that the next entry of a ring takes: the first free one after the youngest entry's (R46; the model's choice, log entry 92). -/
def ringPlace (rings : List Entry) (c : BitVec 2) : Nat :=
  let mine := rings.filter (·.prio = c)
  let tail := (mine.getLast?.map fun e => (e.slot + 1) % 256).getD 0
  ((List.range 256).find? fun k => mine.all (·.slot ≠ (tail + k) % 256)).elim tail fun k => (tail + k) % 256

/-- The physical word that holds an entry: the rings of 1 KiB stand in class order from 0x1_6000, each of 256 entries of 4 bytes (R46, R74). -/
def Entry.word (e : Entry) : Nat := 0x2C00 + 128 * e.prio.toNat + e.slot % 256 / 2

/-- The fault of the task unit at an uncorrectable word of the hardware area (R337). -/
def hardwareFault (w : Nat) (urg : Bool) : FaultRec :=
  { code := 0x80, hard := true, urgent := urg, agent := 5, addr := 0, info := BitVec.ofNat 32 (w + 2 ^ 14 * 5) }

/-- Push an entry (R28, R46), for a level; the latch bit is R247's. An entry is half a word: a push into an uncorrectable one meets it (R81, R337). -/
def Tile.push (t : Tile) (e : Entry) (urg : Bool := false) : Tile :=
  let e := { e with slot := ringPlace t.task.rings e.prio }
  if t.ringCount e.prio < 256 then
    if t.view.bad.contains e.word then t.addPend (hardwareFault e.word urg)
    else ({ t with task.rings := t.task.rings ++ [e] }).latch 1
  else if t.task.overflow.length < 16 then ({ t with task.overflow := t.task.overflow ++ [e] }).latch 1
  else t

/-- Overflowed pushes enter rings that have room, in the order they overflowed (R28). -/
def refillRings : List Entry → List Entry → List Entry × List Entry
  | rings, [] => (rings, [])
  | rings, e :: es =>
    if (rings.filter (·.prio = e.prio)).length < 256 then refillRings (rings ++ [{ e with age := 0, slot := ringPlace rings e.prio }]) es
    else
      let (r, o) := refillRings rings es
      (r, e :: o)

def Tile.refill (t : Tile) : Tile :=
  let (r, o) := refillRings t.task.rings t.task.overflow
  { t with task.rings := r, task.overflow := o }

/-- The ready-ring overflow fault of an agent (R360). -/
def overflowFault (addr : Word) (c : BitVec 2) (act own : Bool) : FaultRec :=
  { code := 0x10, agent := 5, addr := addr,
    info := BitVec.ofNat 32 (c.toNat + (if act then 4 else 0) + if own then 8 else 0) }

/-- A word of a task record (R27), and the scope that a record holds: its reserved bit is ignored (R3, R31). -/
def Tile.recWord (t : Tile) (a off : Nat) : Word := t.view.mem.word (a + off)
def recPrio (w : Word) : BitVec 2 := (w >>> 13).setWidth 2
def Tile.recScope (t : Tile) (a : Nat) : Word := t.recWord a 12 &&& 0x7FFFFFFF

/-- The entry and prio word of a task record as hardware writes it: [31:15] are 0 (R3, R27). -/
def entryWord (w : Word) : Word := w &&& 0x7FFF

/-- The push check of R27 for a record whose count has become 0, by an agent: a covered scope drops it, a full ring is R360's fault. `urg` says
that the residency's own urgent level sent the operation (R335). -/
def Tile.readyRecord (t : Tile) (a : Nat) (urg : Bool) : Tile :=
  match t.view.badWord a 16 with
  | some w => t.addPend { t.view.badFault w 5 with urgent := urg }
  | none =>
  let sc := t.recScope a
  let pr := recPrio (t.recWord a 4)
  if covered t.task.cancels sc then t
  else if t.canPush pr then t.push { work := .task (BitVec.ofNat 32 a), prio := pr, scope := sc } urg
  else t.addPend { overflowFault (BitVec.ofNat 32 a) pr false false with urgent := urg }

/-- A TDEC of an amount brings the count of the record at `a` to 0, whereupon the record is read (R27). -/
def Tile.completes (t : Tile) (a : Nat) (n : Word) : Bool := t.recWord a 0 != 0 && decide ((t.recWord a 0).toNat ≤ n.toNat)

/-- TDEC of amount n on the record at a (R27), for a level (R335, R343). -/
def Tile.tdec (t : Tile) (a : Nat) (n : Word) (urg : Bool) : Tile :=
  let c := t.recWord a 0
  if c = 0 then t.setTdz urg
  else
    let t := if c.toNat < n.toNat then t.setTdz urg else t
    let c' := if c.toNat < n.toNat then 0 else c - n
    let t := t.storeN a 4 c'.toNat
    if c' = 0 then t.readyRecord a urg else t

/- Sending. -/

/-- The residency named is a member of the issuer's gang (R125). -/
def State.inGang (s : State) (n : Word) : Bool :=
  n == s.tile.id.name ||
  match (s.myCarrel).bind (·.gang s.tile.id.gang.toNat) with
  | none => false
  | some g => decide (nameWafer n = 0) && decide (g.x ≤ nameX n) && decide (nameX n < g.x + g.launch.w)
      && decide (g.y ≤ nameY n) && decide (nameY n < g.y + g.launch.h)

/-- The class of outstanding acknowledgement of an operation to a name (R123, R290). -/
def State.ackClass (s : State) (n : Word) : BitVec 2 := if nameWafer n ≠ 0 then 2 else if s.inGang n then 0 else 1

/-- The header that the network interface of the tile in focus writes (R34, R142); src of steward traffic is 0xFFFF_FFFF (R208). -/
def State.hdr (s : State) (dst scope : Word) (cls : BitVec 4 := 0) (prio : BitVec 2 := 0) (urgent : Bool := false) : Hdr :=
  { dst := dst, src := if s.onSteward then 0xFFFFFFFF else s.tile.id.name, scope := scope, cls := cls, prio := prio, urgent := urgent, carrel := s.tile.id.carrel }

/-- The header of steward and host traffic: src 0xFFFF_FFFF, root scope (R45, R177, R340). -/
def stewardHdr (c : BitVec 11) (dst scope : Word) (cls : BitVec 4) (prio : BitVec 2) (urgent : Bool) : Hdr :=
  { dst := dst, src := 0xFFFFFFFF, scope := scope, cls := cls, prio := prio, urgent := urgent, carrel := c }

/-- Put a message in flight to the carrel's part on each of its other wafers (R184): the name (w, 0, 0) stands for the part on wafer w (log entry 61). -/
def State.toOthers (s : State) (c : Carrel) (src : Word) (x : Word) (b : Body) : State :=
  (List.range (c.nw - 1)).foldl (fun s i =>
    s.emit { hdr := { dst := mkName (i + 1) 0 0, src := src, scope := x, cls := 0, prio := 0, urgent := false, carrel := BitVec.ofNat 11 c.num },
             body := b }) s

/-- Add one to the outstanding acknowledgements of a class, or take one (R123). -/
def Tile.addAck (t : Tile) (c : BitVec 2) : Tile := { t with net.acks := t.net.acks.set c.toNat (t.net.acks[c.toNat] + 1) }
def Tile.subAck (t : Tile) (c : BitVec 2) : Tile := { t with net.acks := t.net.acks.set c.toNat (t.net.acks[c.toNat] - 1) }

/-- Issue a remote operation that will be acknowledged (R123); steward traffic has no acknowledgement. -/
def State.issueOp (s : State) (h : Hdr) (b : Body) (armed : Bool := false) (urg : Option Bool := none) : State :=
  { (s.emit { hdr := h, body := b, armed := armed, urg := urg.getD s.urgent }) with
    tile := if h.src = 0xFFFFFFFF then s.tile else s.tile.addAck (s.ackClass h.dst) }

/-- Every link of a router that leads to a router is dead (R389), or, with `off`, leads to a router that is off (R387; log entry 91). -/
def State.linksGone (s : State) (off : Bool) : Bool :=
  s.tile.router.links.toList.zipIdx.all fun x => x.1.dead || match physOver s.tile.phys x.2 with
    | none => true
    | some q => off && (s.tileAt q).router.off

/-- The router reaches no neighbour: it refuses what is addressed to its tile (R387, R389). -/
def State.cut (s : State) : Bool := s.tile.router.dead || s.linksGone true

/-- A packet reaches the tile in focus: it has arrived there whole; or it is addressed to its tile and the router there is cut off from every neighbour,
so that it is refused (R387). -/
def State.isHere (s : State) (p : Packet) : Bool :=
  p.place.map (·.1) == some s.tile.phys || (s.cut && p.way.map (·.dst) == some s.tile.phys)

/-- No operation of the same source, destination and channel is in flight before this one (R121). It is by this that a network interface holds what comes on
another virtual channel until the end marker of the old one has come (R140). -/
def oldestOn (p : Packet) : List Packet → Bool
  | [] => false
  | q :: qs =>
    if q = p then true
    else if q.hdr.src = p.hdr.src ∧ q.hdr.dst = p.hdr.dst ∧ q.hdr.carrel = p.hdr.carrel ∧ q.dest = p.dest ∧ pktChannel q = pktChannel p then false
    else oldestOn p qs

/-- Take a packet out of flight. -/
def State.unsend (s : State) (p : Packet) : State := { s with net := s.net.erase p }

/-- The residency in focus stands still for its migration: arrivals are held at the old tile from step 2 to step 5 (R68). -/
def Tile.frozen (t : Tile) : Bool := match t.net.mig with
  | some m => m.step == .halted || m.step == .frozen
  | none => false

/-- The residency is Migrating: halted, and not yet resumed (R24, R68). -/
def Tile.moving (t : Tile) : Bool := match t.net.mig with
  | some m => m.step != .requested
  | none => false

/-- The packet that an arrival is given, if it may be performed now: it has reached the tile in focus and is the oldest of its channel; the tile is
neither halted for a migration nor an old tile, and while direct arrivals are held only what a forwarding entry has sent is taken (R69). A residency
halted for an archive still takes arrivals (R187). -/
def State.arriving (s : State) : Option Packet :=
  match s.inp.pkt with
  | none => none
  | some p =>
    let n := s.tile.net
    if s.tile.frozen || n.fwd.isSome || (n.holding && !p.fwd) || (s.tile.stop.off && !s.cut) then none
    else if oldestOn p s.net && s.isHere p then some p else none

/-- The packet that a step is given, if it has reached the tile in focus as the oldest of its channel, whatever stands there: what the tile's network interface takes
itself. -/
def State.reached (s : State) : Option Packet := s.inp.pkt.filter fun p => oldestOn p s.net && s.isHere p

/-- A logical position lies in a gang's rectangle (R20). -/
def Gang.has (g : Gang) (n : Word) : Bool :=
  decide (nameWafer n = 0) && decide (g.x ≤ nameX n) && decide (nameX n < g.x + g.launch.w)
    && decide (g.y ≤ nameY n) && decide (nameY n < g.y + g.launch.h)

/-- The class that a packet's issuer counts its acknowledgement in (R123, R290), from the header alone. -/
def State.classOf (s : State) (p : Packet) : BitVec 2 :=
  if nameWafer p.hdr.dst ≠ 0 ∨ nameWafer p.hdr.src ≠ 0 then 2
  else if p.hdr.src = p.hdr.dst then 0
  else match s.carrel p.hdr.carrel.toNat with
    | none => 1
    | some c => if c.gangs.any fun g => g.wafer == c.k && g.has p.hdr.src && g.has p.hdr.dst then 0 else 1

/-- Put an answer to a packet in flight: from the tile in focus, or, where its router is cut off from every neighbour, from the network interface that sent the
packet, which gets the refusal of R387 without a way from here (log entry 94). -/
def State.answerFrom (s : State) (p x : Packet) : State := if s.cut then s.emitFrom p.origin x else s.emit x

/-- The acknowledgement of an operation (R123, R290), to its issuer; steward and host traffic has none. -/
def State.ackTo (s : State) (p : Packet) (how : AckKind) (addr : Nat) (copy : Option Nat := none) : State :=
  let x : Packet := { hdr := { dst := p.hdr.src, src := p.hdr.dst, scope := p.hdr.scope, cls := 0, prio := 0, urgent := false, carrel := p.hdr.carrel },
                      body := .ack (s.classOf p) p.body.op how addr copy, armed := p.armed, urg := p.urg }
  if p.hdr.src = 0xFFFFFFFF ∨ p.orphan then s else s.answerFrom p x

/- Outstanding work that a release waits for (R123, R125). -/

/-- A copy whose remote end lies in a scope: 0 residency, 1 gang, 2 carrel, 3 domain (R123, R125). -/
def State.copyIn (s : State) (sc : Nat) (c : Copy) : Bool :=
  match c.kind with
  | .getLoc => true
  | .getFar | .putFar => decide (2 ≤ sc)
  | _ => decide (3 ≤ sc) || (decide (2 ≤ sc) && decide (nameWafer c.name = 0)) || (decide (1 ≤ sc) && s.inGang c.name)
      || c.name == s.tile.id.name

/-- The wait of a release or fence of a scope is over (R123, R126). -/
def State.released (s : State) (sc : Nat) : Bool :=
  let a := s.tile.net.acks
  s.tile.view.stores.isEmpty && (decide (sc < 1) || decide (a[0] = 0)) && (decide (sc < 2) || (decide (a[1] = 0) && decide (a[3] = 0)))
    && (decide (sc < 3) || decide (a[2] = 0)) && s.tile.strm.copies.all fun c => !s.copyIn sc c

/-- A field has steward service (R368). -/
def Field.served (f : Field) : Bool := !(f.stewardsLost.contains false && f.stewardsLost.contains true)

/-- The least key of a work that a field does once in a frame; a lesser key is of one that it does once in a slot. -/
def frameKey : Nat := 2 ^ 20

/-- The key of what Genesh does with a port once in a frame (R377). -/
def portKey (n : Nat) : Nat := 2 ^ 23 + n

/- Host notices. -/

/-- Queue a notice for a carrel's completion ring (R178). -/
def State.notify (s : State) (c : Nat) (bs : List Byte) : State :=
  s.updCarrel c fun k => { k with ring.waiting := k.ring.waiting ++ [bs] }

/-- Replace what a list holds under a number, or list it. -/
def putAt {α : Type} (n : Nat) (x : α) : List (Nat × α) → List (Nat × α)
  | [] => [(n, x)]
  | y :: ys => if y.1 = n then (n, x) :: ys else y :: putAt n x ys

/-- The management completion ring of an upstream port (R178), at address 0 with 64 slots: the model's choice, log entry 105. -/
def State.mring (s : State) (p : Nat) : Ring := ((s.wafer.mrings.find? (·.1 = p)).map (·.2)).getD {}
def State.updMring (s : State) (p : Nat) (f : Ring → Ring) : State := { s with wafer.mrings := putAt p (f (s.mring p)) s.wafer.mrings }

/-- Queue a notice for the management completion ring of a port. -/
def State.notifyMgmt (s : State) (p : Nat) (bs : List Byte) : State := s.updMring p fun r => { r with waiting := r.waiting ++ [bs] }

/-- A notice of the layout of R178. -/
def plainNotice (kind code carrel : Nat) (arg : Word) (ns : Nat) : List Byte :=
  natBytes 4 (kind + 256 * code + 65536 * carrel) ++ natBytes 4 arg.toNat ++ natBytes 8 ns ++ natBytes 16 0

/-- A fault notice (R340). -/
def faultNotice (carrel : BitVec 11) (name : Word) (gang : BitVec 16) (stage : BitVec 8) (cause : Word) (ended : Bool) (pc : Pc)
    (addr info : Word) (ns : Nat) : List Byte :=
  natBytes 4 (0x82 + 256 * (cause.toNat % 256) + 65536 * carrel.toNat) ++ natBytes 4 name.toNat
    ++ natBytes 4 (gang.toNat + 65536 * stage.toNat + 2 ^ 24 * (cause.toNat / 2 ^ 24))
    ++ natBytes 4 (cause.toNat % 65536 + if ended then 65536 else 0) ++ natBytes 4 pc.toNat ++ natBytes 4 addr.toNat
    ++ natBytes 4 info.toNat ++ natBytes 4 ns

/-- A notice that only the host gets (codes 0x17, 0x18, 0x68 to 0x6C, 0x7C to 0x7F). -/
def hostOnly (carrel : Nat) (code : Nat) (addr info : Word) (ns : Nat) : List Byte :=
  faultNotice (BitVec.ofNat 11 carrel) 0xFFFFFFFF 0xFFFF 0 (BitVec.ofNat 32 code) false 0 addr info ns

/-- Post a host-only notice to every carrel that touches a field. -/
def Carrel.touches (c : Carrel) (f : Nat × Nat) : Bool :=
  decide (c.ox / 128 ≤ f.1) && decide (f.1 ≤ (c.ox + c.w - 1) / 128) && decide (c.oy / 128 ≤ f.2) && decide (f.2 ≤ (c.oy + c.h - 1) / 128)

def State.notifyField (s : State) (f : Nat × Nat) (code : Nat) (addr info : Word) : State :=
  { s with carrels := s.carrels.map fun c =>
      if c.touches f then { c with ring.waiting := c.ring.waiting ++ [hostOnly c.num code addr info (s.fieldAt f).ns] } else c }

def State.notifyAll (s : State) (code : Nat) (addr info : Word) : State :=
  { s with carrels := s.carrels.map fun c => { c with ring.waiting := c.ring.waiting ++ [hostOnly c.num code addr info s.fld.ns] } }

/- Steward exceptions of events (R252, R365). -/

/-- Hold a steward event at a steward tile: the queue of 64 drops a further cause 0xC0 (R365). -/
def Tile.stewardEvent (t : Tile) (e : Exn) : Tile :=
  if 64 ≤ t.stw.exns.length ∧ e.cause = 0xC0 then t else { t with stw.exns := t.stw.exns ++ [e] }

/-- Raise a steward event at the steward that acts for a field. -/
def State.stewardEvent (s : State) (f : Nat × Nat) (cause : Nat) (addr info : Word) : State :=
  s.updTile (s.stewardOf f) (·.stewardEvent { cause := BitVec.ofNat 16 cause, addr := addr, info := info })

/- Counters and armed slots. -/

/-- The firing condition of R163. -/
def slotDue (count threshold : Word) : Bool := decide ((count - threshold).toNat < 2 ^ 31)

/-- Free a slot: its entry is removed. -/
def Tile.dropArmed (t : Tile) (a : Armed) : Tile := { t with task.armed := t.task.armed.erase a }

/-- A free copy slot (R89). -/
def Tile.copySlot (t : Tile) : Option Nat := (List.range 16).find? fun i => t.strm.copies.all (·.slot ≠ i)

/-- The name cache entry of a name (R64). -/
def Tile.cached (t : Tile) (n : Word) : Option NameEntry := t.net.names.find? (·.name = n)

/-- A name cache entry that a send has used is the last that the cache will replace (R64). -/
def Tile.useName (t : Tile) (n : Word) : Tile :=
  match t.cached n with
  | none => t
  | some e => { t with net.names := { e with used := true } :: t.net.names.filter (·.name ≠ n) }

/-- Ask the walker for a name, once (R64). -/
def Tile.wantName (t : Tile) (n : Word) : Tile :=
  if t.net.walks.contains n then t else { t with net.walks := t.net.walks ++ [n] }

/-- The number under which a copy's chunks travel: its low four bits are the slot, the copy number of R290. -/
def copyId (next slot : Nat) : Nat := 16 * next + slot % 16

/-- The fired operation ends with a fault of its own (R393): its mark is cleared. -/
def State.fireLost (s : State) (a : Armed) (f : FaultRec) : State :=
  { s with tile := (s.tile.clearMark a.mark).addPend { f with urgent := a.urgent } }

/-- Issue a fired slot's operation once (R163, R313, R393), its local range checked as it is (R371); none while it must wait for a copy slot, its release, a page or a name walk, with the
state in which what it waits for has been asked for. A SEND of no bytes reads nothing. -/
def State.fire (s : State) (a : Armed) : State × Bool :=
  let d := a.act
  let bad (code : BitVec 8) : FaultRec := { code := code, agent := 5, addr := d.name, info := 0xFF }
  if d.rel && !s.released 2 then (s, false)
  else if d.kind = 3 then ({ s with tile := s.tile.writeToken a.mark (d.length.setWidth 64) }, true)
  else if !s.nameInside d.name then (s.fireLost a (bad 0x50), true)
  else if d.name ≠ s.tile.id.name ∧ s.tile.net.unmapped.contains d.name then
    ({ s with tile.net.unmapped := s.tile.net.unmapped.filter (· ≠ d.name) }.fireLost a (bad 0x51), true)
  else if d.name ≠ s.tile.id.name ∧ s.tile.net.names.all (·.name ≠ d.name) then ({ s with tile := s.tile.wantName d.name }, false)
  else
    let s := { s with tile := s.tile.useName d.name }
    match d.kind.toNat with
    | 0 =>
      let n := d.length.toNat
      match (if n = 0 then Chk.ok else s.tile.view.mapCheck d.laddr.toNat n false) with
      | .fault f => (s.fireLost a { f with agent := 5 }, true)
      | _ =>
      match (if n = 0 then Seek.ok else s.tile.seek d.laddr.toNat n true 5) with
      | .wait t => ({ s with tile := t }, false)
      | .fault f t => ({ s with tile := t }.fireLost a f, true)
      | .ok =>
      let s := s.issueOp (s.hdr d.name a.scope d.cls d.prio d.urgent)
        (.send d.tag (s.tile.view.coreMem.bytes d.laddr.toNat n)) true (some a.urgent)
      ({ s with tile := s.tile.writeToken a.mark (d.length.setWidth 64) }, true)
    | 1 =>
      match s.tile.copySlot with
      | none => (s, false)
      | some n =>
        match s.tile.view.mapCheck d.laddr.toNat d.length.toNat false with
        | .fault f => (s.fireLost a { f with agent := 5 }, true)
        | _ =>
        let c : Copy := { slot := n, id := copyId s.tile.net.nextId n, kind := .put, src := d.laddr.toNat, dst := d.raddr.toNat, name := d.name,
                          length := d.length.toNat, wm := none, cen := none, dcnt := d.dcnt, prio := 0, scope := a.scope,
                          urgent := a.urgent, mark := a.mark, own := a.own, armed := true }
        ({ s with tile.net.nextId := s.tile.net.nextId + 1, tile.strm.copies := s.tile.strm.copies ++ [c] }, true)
    | _ =>
      let s := s.issueOp (s.hdr d.name a.scope) (.tdec d.raddr.toNat d.length) true (some a.urgent)
      ({ s with tile := s.tile.writeToken a.mark (d.length.setWidth 64) }, true)

/-- Fired operations are issued in the order given, until one must wait: it and those after it stay (R163: a fired operation has a place in the
residency's issue stream; R313, R323). -/
def State.issueFires (s : State) : List Armed → State
  | [] => { s with tile.task.fires := [] }
  | a :: as =>
    match s.fire a with
    | (s, true) => State.issueFires s as
    | (s, false) => { s with tile.task.fires := a :: as }

/-- Fired operations that wait are tried again (R313), unless their residency is Migrating or archived. -/
def State.retryFires (s : State) : State :=
  if s.tile.task.fires = [] ∨ s.tile.moving ∨ s.tile.stop.archived then s else s.issueFires s.tile.task.fires

/-- Slots fire in ascending order: each is free at once (R163) and sets bit 5 of the latch (R247). A token write that is no release is made in the
fire; any other operation takes its place behind the fired ones that wait. -/
def State.fireAll (s : State) : List Armed → State
  | [] => s.retryFires
  | a :: as =>
    let t := (s.tile.dropArmed a).latch 5
    if a.act.kind = 3 ∧ !a.act.rel then State.fireAll { s with tile := t.writeToken a.mark (a.act.length.setWidth 64) } as
    else State.fireAll { s with tile := { t with task.fires := t.task.fires ++ [a] } } as

/-- Insert a slot in ascending order of number. -/
def insertArmed (a : Armed) : List Armed → List Armed
  | [] => [a]
  | b :: bs => if a.slot.toNat ≤ b.slot.toNat then a :: b :: bs else b :: insertArmed a bs

/-- Evaluate every slot of a counter (R163); a slot of a Migrating or archived residency waits. -/
def State.evalSlots (s : State) (n : BitVec 4) : State :=
  if s.tile.moving ∨ s.tile.stop.archived then s
  else
    let c := (s.tile.task.cnt[n.toNat]).count
    match s.tile.task.armed.filter fun a => a.cnt == n && slotDue c a.threshold with
    | [] => s
    | as => s.fireAll as

/-- Advance a counter by an amount (R161); the latch bit is R247's. -/
def State.advanceCnt (s : State) (n : BitVec 4) (x : Word) : State :=
  let c := s.tile.task.cnt[n.toNat]
  let t := { s.tile with task.cnt := s.tile.task.cnt.set n.toNat { c with count := c.count + x } }
  ({ s with tile := t.latch 2 }).evalSlots n

/-- Advance every counter whose selector counts an event (R161). -/
def State.advanceWhere (s : State) (f : Counter → Option Word) : State :=
  (List.range 16).foldl (fun s i => match f (s.tile.task.cnt[i % 16]'(Nat.mod_lt _ (by decide))) with
    | some x => s.advanceCnt (BitVec.ofNat 4 i) x
    | none => s) s

/-- A message of a class is performed: modes 1 and 2 (R161). -/
def State.countMessage (s : State) (cls : BitVec 4) (bytes : Nat) : State :=
  s.advanceWhere fun c => if c.cls = cls then (if c.mode = 1 then some (BitVec.ofNat 32 bytes) else if c.mode = 2 then some 1 else none) else none

/-- A copy of the residency completes: mode 4 (R161). -/
def State.countCopy (s : State) : State := s.advanceWhere fun c => if c.mode = 4 then some 1 else none

/-- Arriving bytes that name a counter: mode 3 (R161). -/
def State.countBytes (s : State) (n : Option (BitVec 4)) (bytes : Nat) : State :=
  match n with
  | none => s
  | some k => if (s.tile.task.cnt[k.toNat]).mode = 3 then s.advanceCnt k (BitVec.ofNat 32 bytes) else s

end Sys2Proof.Machine
end

