-- ==== Sys2Proof/Machine/Ops.lean ====
section
/-!
DEFINITION. The shared operations of the meanings: kills (R36), the end of work (R242), taking a fault (R335 to R344) and a steward
exception (R252, R365, R366), the completion of an instruction with its loop boundaries (R240, R241), and the issue of one with the
checks of R353.
-/

namespace Sys2Proof.Machine

/- Kills. -/

/-- Send the decrement of a withdrawn count-barrier entry that has not arrived (R38). `notice` says that a cancel notice withdraws it. -/
def State.withdrawMember (s : State) (m : Member) (notice : Bool := false) : State :=
  match m.bar with
  | .count home addr => if m.arrived then s else s.emit { hdr := s.hdr home m.scope, body := .barDec addr notice }
  | .line _ => s

/-- The entry's last arrival was released by the withdrawals of the very notice that now withdraws the entry: it is one that had arrived when the
notice was sent, and sends no decrement (R331, R333; log entry 60). -/
def Member.spent (m : Member) (f : Word → Bool) : Bool := (m.freed.map f).getD false

/-- Remove the membership entries whose scope a predicate picks, with the effects of withdrawal (R38). -/
def State.withdrawAll (s : State) (f : Word → Bool) (notice : Bool := false) : State :=
  (List.range 4).foldl (fun s i =>
    match s.tile.task.members[i % 4]'(Nat.mod_lt _ (by decide)) with
    | none => s
    | some m =>
      if f m.scope then
        let s := if notice && m.spent f then s else s.withdrawMember m notice
        { s with tile.task.members := s.tile.task.members.set (i % 4) none (Nat.mod_lt _ (by decide)) }
      else s) s

/-- A killed scope made the binding. -/
def Fifo.doomed (q : Fifo) (f : Word → Nat → Bool) : Bool :=
  match q.bind with
  | .unbound => false
  | .loc a _ => f a.scope q.own
  | .fabric _ _ _ sc => f sc q.own

/-- A binding that a killed scope made is stopped as by STRM.STOP (R320). -/
def Fifo.killed (q : Fifo) (f : Word → Nat → Bool) : Fifo := if q.doomed f then {} else q

/-- The token of a tensor command, if it is a TDRAIN. -/
def TensorCmd.token (c : TensorCmd) : Option Nat := match c.op with
  | .tdrain _ _ _ m => m
  | _ => none

/-- A command that a kill removes: steps and drains that have not fired (R320). -/
def TensorCmd.removable (c : TensorCmd) : Bool := match c.op with
  | .tfeed _ _ | .tdrain _ _ _ _ => true
  | _ => false

/-- A queued STRM.BIND of a killed scope: it is stopped as by STRM.STOP when its turn in the queue comes (R320). -/
def TensorCmd.killed (c : TensorCmd) (f : Word → Nat → Bool) : TensorCmd := match c.op with
  | .bind tb _ => if f c.scope c.own then { c with op := .stop tb } else c
  | _ => c

/-- The effects of a kill on what carries a killed scope (R36, R320): copies, patterns, bindings, commands, replay, slots, fired operations, marks.
The predicate picks them by their scope and by the work that made them. -/
def Tile.killObjects (t : Tile) (f : Word → Nat → Bool) : Tile :=
  let reg (b : Bank) : Bank :=
    t.strm.regs.foldl (fun b r => if f r.pat.scope r.pat.own then { b with v := b.v.set ((r.n.toNat + 12) % 16) 0 } else b) b
  { t with
    core.normal := reg t.core.normal,
    strm.copies := t.strm.copies.filter fun c => !f c.scope c.own,
    strm.regs := t.strm.regs.filter fun r => !f r.pat.scope r.pat.own,
    strm.farReads := t.strm.farReads.filter fun r => !(t.strm.regs.any (fun x => x.n.toNat == r.who && f x.pat.scope x.pat.own)
      || (r.who % 2 == 0 && decide (4 ≤ r.who) && t.tens.ta.doomed f) || (r.who % 2 == 1 && decide (4 ≤ r.who) && t.tens.tb.doomed f)),
    strm.replay := t.strm.replay.filter fun r => !f r.scope r.own,
    comb := if (t.strm.replay.filter fun r => f r.scope r.own).isSome then t.comb.map fun e => { e with gated := [] } else t.comb,
    tens.ta := t.tens.ta.killed f, tens.tb := t.tens.tb.killed f,
    tens.cmds := (t.tens.cmds.filter fun c => !(f c.scope c.own && c.removable)).map fun c => c.killed f,
    task.armed := t.task.armed.filter fun a => !f a.scope a.own,
    task.fires := t.task.fires.filter fun a => !f a.scope a.own,
    net.marks := t.net.marks.filter fun m => m.plain || !f m.scope m.own }

/-- Free the granules of the message that the ended work holds (R304). -/
def Tile.freeCursor (t : Tile) : Tile :=
  let drop (i : Option Nat) (q : List Msg) : List Msg := match i with
    | none => q
    | some n => q.filter (·.id ≠ n)
  { t with task.queue := drop t.core.cur.cursor.cur t.task.queue, core.cur.cursor := {} }

/-- The normal level's work ends (R242): its loops and masked window close and the residency is Idle. -/
def Tile.endWork (t : Tile) (ph : Phase) : Tile :=
  let t := t.freeCursor
  { t with core.cur.loops := [], core.cur.work := .none, core.cur.kill := none, core.mask := none, core.maskPages := [],
           core.wait := none, core.phase := ph, strm.farWord := none }

/-- Count work killed under the notices that cover it (R39). -/
def countDrop (x : Word) : List (Word × Nat) → List (Word × Nat)
  | [] => []
  | (s, n) :: ds => if isDescendant x s then (s, n + 1) :: ds else (s, n) :: countDrop x ds

/-- Drop the covered entries of the ready rings and the messages of dropped activations (R36, R29). -/
def Tile.dropEntries (t : Tile) (f : Word → Bool) : Tile :=
  let gone := (t.task.rings ++ t.task.overflow).filter fun e => f e.scope
  let ids := gone.filterMap fun e => match e.work with
    | .msg n => some n
    | _ => none
  let drops := gone.foldl (fun d e => countDrop e.scope d) t.task.drops
  ({ t with task.rings := t.task.rings.filter fun e => !f e.scope, task.overflow := t.task.overflow.filter fun e => !f e.scope,
            task.queue := t.task.queue.filter fun m => !ids.contains m.id, task.drops := drops }).refill

/-- The kill of the running normal-level work, with the killed scopes given (R36). -/
def State.kill (s : State) (f : Word → Bool) : State :=
  let sc := s.tile.core.cur.scope
  let t := (s.tile.dropEntries f).killObjects fun x _ => f x
  let t := { t with task.drops := countDrop sc t.task.drops }
  ({ s with tile := t.endWork .idle }).withdrawAll f

/-- The scopes that the cancel list covers. -/
def State.coveredBy (s : State) : Word → Bool := covered s.tile.task.cancels

/-- The kill of R35: the running work is covered by the cancel list. -/
def State.killCovered (s : State) : State := s.kill s.coveredBy

/-- The running work of the normal level is covered. -/
def State.workCovered (s : State) : Bool :=
  !s.urgent && (s.tile.core.phase == .running || s.tile.core.phase == .waiting) && s.coveredBy s.tile.core.cur.scope

/-- What the normal level holds of its own, running or halted (R51). -/
def Core.normalCtx (c : Core) : Ctx := match c.level with
  | .normal => c.cur
  | .urgent => c.halt.getD {}

/-- Change what the normal level holds of its own. -/
def Core.updNormal (c : Core) (f : Ctx → Ctx) : Core := match c.level with
  | .normal => { c with cur := f c.cur }
  | .urgent => { c with halt := c.halt.map f }

/-- The normal level has work that has begun and not ended. -/
def Core.busy (c : Core) : Bool := c.phase == .running || c.phase == .waiting

/-- What a work numbered `o` made is spared while that work runs or waits, at either level (R36: it is acted on when that work is killed, or ends). -/
def Core.spares (c : Core) (o : Nat) : Bool := (c.busy && c.normalCtx.own == o) || (c.level == .urgent && c.cur.own == o)

/-- Everything that carries a covered scope, and that no running or waiting work made, is acted on (R36, R37). -/
def State.sweepCovered (s : State) : State :=
  if s.tile.task.cancels = [] then s
  else { s with tile := s.tile.killObjects fun x o => s.coveredBy x && !s.tile.core.spares o }

/-- The entry of a handler table (R25): its parcel address and en. -/
def Tile.handler (t : Tile) (c : BitVec 4) : Pc × Bool :=
  let w := t.view.ist.getN (4 * c.toNat) 4
  (BitVec.ofNat 13 w, w / 8192 % 2 == 1)

/- The urgent level's end. -/

/-- The urgent handler ends (R51, R52): the normal level's registers and bank come back. -/
def State.urgentLeave (s : State) : State :=
  let c := s.tile.core
  let now := s.fld.clk
  let t := s.tile.freeCursor
  { s with tile := { t with
      core.level := .normal, core.cur := c.halt.getD {}, core.halt := none,
      core.urgentPast := (now - c.urgentClk, now) :: c.urgentPast, core.urgentClk := 0 } }.sweepCovered

/-- The normal level resumes in its prior state (R24); a covered instruction that waits there is at a kill point (R35, R364). -/
def State.urgentExit (s : State) : State :=
  let s := s.urgentLeave
  if s.workCovered && s.tile.core.phase == .waiting && s.tile.stop.faulted.isNone then s.killCovered else s

/- Faults. -/

/-- c.fcause as R336 lays it out. -/
def causeWord (f : FaultRec) (idle discarded : Bool) (extra seq : Nat) : Word :=
  BitVec.ofNat 32 (f.code.toNat + (if f.precise then 256 else 0) + (if f.hard then 512 else 0) + (if f.urgent then 1024 else 0)
    + (if idle then 2048 else 0) + (if discarded then 4096 else 0) + 8192 * f.agent.toNat + 65536 * extra + 2 ^ 24 * seq)

def causeExtra (w : Word) : Nat := w.toNat / 65536 % 256
def causeSeq (w : Word) : Nat := w.toNat / 2 ^ 24

/-- The fault's notice to the host, with the time of the fault (R340). -/
def State.hostFault (s : State) (cause : Word) (pc : Pc) (addr info : Word) (ended : Bool) (ns : Nat) : State :=
  let i := s.tile.id
  s.notify i.carrel.toNat (faultNotice i.carrel i.name i.gang i.stage cause ended pc addr info ns)

/-- A hard fault is counted at the tile (R261). -/
def State.countHard (s : State) (f : FaultRec) : State :=
  if f.hard && decide (f.code.toNat ≤ 0x82) then { s with tile.view.ue := s.tile.view.ue + 1 } else s

/-- A hard fault is counted at the tile and reported to the acting steward (R365 cause 0xC1), which records it (R12). -/
def State.noteHard (s : State) (f : FaultRec) : State :=
  let p := s.tile.phys
  let s := s.countHard f
  let s := s.updFld fun fl => { fl with history := fl.history ++ [(p, f.code.toNat, fl.ns)] }
  s.stewardEvent p.field (0xC1 + 256 * f.code.toNat) p.operand (BitVec.ofNat 32 (f.info.toNat % 2 ^ 14))

/-- A fault of a Faulted residency, or of a member of a gang that is being ended (R338, R344): it is counted as extra, and the host has its notice. -/
def State.countExtra (s : State) (f : FaultRec) (pc : Pc) (idle : Bool) : State :=
  let old := s.tile.stop.fcause
  let extra := min (causeExtra old + 1) 255
  let s := { s with tile.stop.fcause := BitVec.ofNat 32 (old.toNat % 65536 + 65536 * extra + 2 ^ 24 * causeSeq old) }
  s.hostFault (causeWord f idle false 0 (causeSeq old)) pc f.addr f.info false s.fld.ns

/-- The gang of the tile in focus, with its carrel. -/
def State.myGang (s : State) : Option (Carrel × Gang) :=
  (s.myCarrel).bind fun c => (c.gang s.tile.id.gang.toNat).map (c, ·)

/-- The fault receiver (R340): the member of rank 0, or of rank 1 when rank 0 faulted; none in a gang of one member. -/
def State.receiver (s : State) : Option (Word × Phys) :=
  (s.myGang).bind fun (c, g) =>
    let r := if s.tile.id.rank = 0 then 1 else 0
    if g.launch.w * g.launch.h ≤ r then none
    else
      let x := g.x + r % g.launch.w
      let y := g.y + r / g.launch.w
      (s.locate c x y).map fun p => (mkName 0 x y, p)

/-- A notice can be acted on (R344). -/
def State.receives (s : State) (p : Phys) : Bool :=
  let t := s.tileAt p
  t.stop.faulted.isNone && t.core.phase != .finished && (t.handler 14).2

/-- The faults that a member still holds for a boundary, as its gang is ended, are counted as extra (R344). -/
def State.spillFaults (s : State) : State :=
  s.tile.stop.pend.foldl (fun s f =>
    let idle := !s.urgent && !s.tile.core.busy
    (if f.hard then s.noteHard f else s).countExtra f (if idle then 0 else s.tile.core.cur.pc) idle) s

/-- End every member's work, with every scope killed (R344), and leave the member Finished. -/
def State.endMember (s : State) : State :=
  let s := s.spillFaults
  let s := if s.urgent then s.urgentLeave else s
  let s := s.kill fun _ => true
  { s with tile := { s.tile with core.phase := .finished, stop.faulted := none, stop.reply := none, stop.pend := [] } }

/-- End a gang faulted (R344): every member's work is killed and the retirement of R56 follows with status 2. -/
def State.endGang (s : State) : State :=
  match s.myGang with
  | none => s
  | some (c, g) =>
    let s := s.atEach State.endMember ((s.members c g).map (·.2))
    s.updCarrel c.num fun c => c.updGang g.num fun g => { g with state := .ended 2 }

/-- The notices of a recorded fault (R340, R344). -/
def State.sendNotice (s : State) : State :=
  let st := s.tile.stop
  let i := s.tile.id
  match s.receiver with
  | some (name, p) =>
    if s.receives p then
      let s := s.emit { hdr := stewardHdr i.carrel name 0 14 0 false,
                        body := .send 0 (faultNotice i.carrel i.name i.gang i.stage st.fcause false st.fpc st.faddr st.finfo st.at_) }
      s.hostFault st.fcause st.fpc st.faddr st.finfo false st.at_
    else (s.hostFault st.fcause st.fpc st.faddr st.finfo true st.at_).endGang
  | none => (s.hostFault st.fcause st.fpc st.faddr st.finfo true st.at_).endGang

/-- The gang of the residency has been ended faulted, and it awaits its retirement: a member's fault is counted as extra (R344). -/
def State.ending (s : State) : Bool :=
  !s.urgent && s.tile.core.phase == .finished && s.myGang.any fun x => x.2.state == .ended 2

/-- take_fault of R338 at the running level, with the pc that R335 gives: a Faulted residency counts and notifies it; covered work that
met a fault which is not hard is killed; any other fault is recorded, halts the level and is notified. The halt abandons a far LDP that waits, to be
executed again (R50, R288). An open masked window closes (R363). `leave` ends an urgent handler that meets a fault while the normal level is Faulted. -/
def State.takeFaultThen (leave : State → State) (s : State) (f : FaultRec) (pc : Pc) : State :=
  let s := if f.hard then s.noteHard f else s
  let c := s.tile.core
  let idle := !s.urgent && c.phase != .running && c.phase != .waiting
  let pc := if idle then 0 else pc
  let old := s.tile.stop.fcause
  if s.tile.stop.faulted.isSome || s.ending then
    let s := s.countExtra f pc idle
    if s.urgent && s.tile.stop.faulted == some .normal then leave s else s
  else if !f.hard && s.workCovered then
    let s := { s with tile := { s.tile with stop.fcause := causeWord f idle true (causeExtra old) (causeSeq old), stop.fpc := pc,
                                            stop.faddr := f.addr, stop.finfo := f.info, stop.at_ := s.fld.ns } }
    (s.hostFault s.tile.stop.fcause pc f.addr f.info false s.fld.ns).killCovered
  else
    let t := { s.tile with stop.fcause := causeWord f idle false 0 ((causeSeq old + 1) % 256), stop.fpc := pc,
                           stop.faddr := f.addr, stop.finfo := f.info, stop.at_ := s.fld.ns, stop.faulted := some c.level, core.wait := none,
                           strm.farWord := none }
    let t := if s.urgent then { t with core.urgentPast := (s.fld.clk - c.urgentClk, s.fld.clk) :: c.urgentPast, core.urgentClk := 0 } else t
    let t := if c.mask.isSome && !s.urgent then { t with core.mask := none, core.maskPages := [] }.setMko else t
    let s := { s with tile := t }
    let s := if f.hard && s.workCovered then s.killCovered else s
    s.sendNotice

/- Open loops. -/

/-- The iteration boundary of the loops that end at `stop` (R240): the loops left and the pc; none where a killable loop's boundary
finds the scope covered. -/
def boundary (cov : Bool) (stop : Nat) : List Loop → Option (List Loop × Nat)
  | [] => some ([], stop)
  | l :: ls =>
    if l.stop ≠ stop then some (l :: ls, stop)
    else if l.kill && cov then none
    else if l.left = 0 then boundary cov stop ls
    else some ({ l with left := l.left - 1 } :: ls, l.start)

/-- A taken transfer to t acts on the open loops from the innermost outward (R241). -/
def leaveLoops (cov : Bool) (t : Nat) : List Loop → Option (List Loop × Nat)
  | [] => some ([], t)
  | l :: ls =>
    if l.start ≤ t ∧ t < l.stop then some (l :: ls, t)
    else if t = l.stop then boundary cov t (l :: ls)
    else leaveLoops cov t ls

/-- The fetch-range fault of a completed instruction (R352). -/
def pastStore : FaultRec := { code := 0x04, addr := 0x2000, info := 1 }

/- Fault replies. -/

/-- The instruction at `pc`, which faulted, is skipped (R339): its loop boundary follows, and a pc past the store is the fault of R352. -/
def State.skipTo (s : State) (pc : Pc) (r : Option (List Loop × Nat)) : State :=
  match r with
  | none => s.killCovered
  | some (ls, n) =>
    let s := { s with tile.core.cur.loops := ls }
    if n < 0x2000 then { s with tile.core.cur.pc := BitVec.ofNat 13 n }
    else { s with tile.core.cur.pc := pc }.takeFaultThen State.urgentExit { pastStore with precise := true, urgent := s.urgent } pc

/-- The action of a fault reply on the faulted level (R339, R342, R364): 0 retry, 1 skip, 2 kill, 3 end. A fault whose instruction has
completed (code 0x04 with c.finfo [0]) takes retry and skip as kill; skip of an imprecise or idle fault is a retry. A kill of covered work, which a notice
held until the urgent level's DONE asks for too, has every scope that the cancel list covers as its killed scopes (R36). -/
def State.answer (s : State) (action : BitVec 2) : State :=
  let st := s.tile.stop
  let done := st.fcause.toNat % 256 == 4 && st.finfo.getLsbD 0
  let action := if action.toNat < 2 && done then 2 else action
  let t := { s with tile.stop.faulted := none, tile.stop.reply := none }
  match action.toNat with
  | 0 => t
  | 1 =>
    if st.fcause.getLsbD 8 && !st.fcause.getLsbD 11 then
      let len := parcelsOf (s.tile.view.ist.parcel st.fpc.toNat)
      t.skipTo st.fpc (boundary (t.coveredBy t.tile.core.cur.scope && !t.urgent) (st.fpc.toNat + len) t.tile.core.cur.loops)
    else t
  | 2 =>
    if st.faulted = some .urgent then t.urgentExit
    else if s.tile.core.phase = .running ∨ s.tile.core.phase = .waiting then
      let sc := s.tile.core.cur.scope
      t.kill fun x => isDescendant x sc || (t.coveredBy sc && t.coveredBy x)
    else t
  | _ => (s.hostFault st.fcause st.fpc st.faddr st.finfo true st.at_).endGang

/-- The normal level's work ends by DONE or YIELD (R242, R244); what it made in a covered scope is acted on (R36, R37). -/
def State.endTask (s : State) (ph : Phase) : State := { s with tile := s.tile.endWork ph }.sweepCovered

/-- The urgent handler ends (R51, R242): the normal level comes back, and a reply held for its fault acts now (R339, R342). -/
def State.urgentDone (s : State) : State :=
  let s := s.urgentExit
  match s.tile.stop.reply with
  | none => s
  | some a => s.answer a

/-- take_fault of R338. -/
def State.takeFault (s : State) (f : FaultRec) (pc : Pc) : State := s.takeFaultThen State.urgentDone f pc

/- Steward exceptions. -/

/-- A steward exception is entered (R252): the return address, cause, c.faddr and c.finfo, and the handler-table entry 14. -/
def State.enterExn (s : State) (e : Exn) : State :=
  let t := s.tile
  { s with tile := { t with stw.sepc := e.next.getD t.core.cur.pc, stw.scause := e.cause, stw.active := true,
                            stop.faddr := e.addr, stop.finfo := e.info, core.wait := none, core.phase := .running,
                            core.cur.pc := (t.handler 14).1 } }

/-- A fault or TRAP of a steward's own instruction (R252, R365); while an exception is active it is a double fault, and the steward stops
issuing (R366). -/
def State.stewardFault (s : State) (e : Exn) : State :=
  if s.tile.stw.active then { s with tile.stop.off := true } else s.enterExn e

/-- A precise fault of the instruction at pc (R335); on a steward tile a steward exception (R252), a hard one counted (R261). -/
def State.precise (s : State) (f : FaultRec) : State :=
  if s.onSteward then (s.countHard f).stewardFault { cause := f.code.setWidth 16, addr := f.addr, info := f.info }
  else s.takeFault { f with precise := true, urgent := s.urgent } s.tile.core.cur.pc

/- Completion. -/

/-- What an instruction does: it completes and falls through, transfers control, leaves the pc where its effect set it, raises a fault
(in the state given: with a partial effect or none), or waits (R357 reason and address; in the state given, with a page-in begun). -/
inductive Res where
  | done (s : State)
  | goto (t : Nat) (s : State)
  | stay (s : State)
  | fault (f : FaultRec) (s : State)
  | wait (reason : Nat) (addr : Word) (s : State)

/-- The residency runs: a wait is over. -/
def State.run (s : State) : State :=
  if s.urgent then { s with tile.core.wait := none }
  else { s with tile.core.wait := none, tile.core.phase := .running }

/-- Set the loops and the pc after an instruction; the pc 0x2000 is the fetch-range fault of a completed instruction (R352), whose own
address is `at`. -/
def State.setPc (s : State) (pcAt : Pc) (r : Option (List Loop × Nat)) : State :=
  match r with
  | none => s.killCovered
  | some (ls, pc) =>
    let s := { s with tile.core.cur.loops := ls }
    if pc < 0x2000 then { s with tile.core.cur.pc := BitVec.ofNat 13 pc }
    else ({ s with tile.core.cur.pc := pcAt }).precise pastStore

/-- The residency runs on in an instruction that has not completed: what it has waited in it counts on (R361). -/
def State.goOn (s : State) : State := if s.urgent then s else { s with tile.core.phase := .running }

/-- The instruction waits (R357, R35): a fault at the urgent level, a kill point at the normal level. Its waits count together (R361). -/
def State.wait (s : State) (reason : Nat) (addr : Word) : State :=
  if s.urgent then s.precise { code := 0x0B, addr := addr, info := BitVec.ofNat 32 reason }
  else if s.workCovered then s.killCovered
  else
    { s with tile.core.phase := .waiting,
             tile.core.wait := some { reason := reason, addr := addr, clk := (s.tile.core.wait.map (·.clk)).getD 0,
                                      seen := (s.tile.core.wait.map (·.seen)).getD [] } }

/-- The state after an instruction of `len` parcels at the pc of `s0` has done `r`. -/
def State.finish (s0 : State) (len : Nat) (r : Res) : State :=
  let pc := s0.tile.core.cur.pc
  match r with
  | .done s => let s := s.run; s.setPc pc (boundary (s.coveredBy s.tile.core.cur.scope && !s.urgent) (pc.toNat + len) s.tile.core.cur.loops)
  | .goto t s => let s := s.run; s.setPc pc (leaveLoops (s.coveredBy s.tile.core.cur.scope && !s.urgent) t s.tile.core.cur.loops)
  | .stay s => s
  | .fault f s => s.precise f
  | .wait reason addr s => s.wait reason addr

/-- The instruction's bits as c.finfo records them (R349). -/
def instrWord (i : Instr) : Word := BitVec.ofNat 32 i.bits

/-- How an instruction issues: whether only steward mode has it, a control-register fault (R351), whether the urgent level forbids it
(R356), the scalar registers whose token marks it waits for (R93), and an illegal use that shows without their values (R354): it comes before that wait. -/
structure Issue where
  steward : Bool := false
  early : Option FaultRec := none
  forbidden : Bool := false
  reads : List Reg := []
  illegal : Option FaultRec := none

/-- The address operand of code 0x01, 0x02 and 0x03: the pc as a parcel address. -/
def State.pcWord (s : State) : Word := s.tile.core.cur.pc.setWidth 32

/-- The end of an open loop that a 32-bit instruction at the pc straddles (R240, R354). -/
def State.straddled (s : State) (i : Instr) : Option Nat :=
  if i.parcels = 2 then (s.tile.core.cur.loops.find? fun l => l.stop == s.tile.core.cur.pc.toNat + 1).map (·.stop) else none

/-- Issue an instruction (R353): an unallocated field value, steward-only outside steward mode, forbidden at the urgent level, a loop body
straddled, a token register that is marked (log entry 10) unless an illegal use shows without it, and then its own effect. -/
def State.issue (s : State) (i : Instr) (how : Issue) (body : State → Res) : Host.Outcome State Fault Refusal :=
  .next (s.finish i.parcels (
    if !i.wf then .fault { code := 0x01, addr := s.pcWord, info := instrWord i } s
    else if how.steward && !s.onSteward then .fault { code := 0x02, addr := s.pcWord, info := instrWord i } s
    else match how.early with
    | some f => .fault f s
    | none =>
    if how.forbidden && s.urgent then .fault { code := 0x0C, info := instrWord i } s
    else match s.straddled i with
    | some e => .fault { code := 0x07, addr := s.pcWord, info := BitVec.ofNat 32 e } s
    | none =>
    match s.stalledOn how.reads with
      | some _ => (match how.illegal with
        | some f => .fault f s
        | none => .wait 0 0 s)
      | none => body s))

/-- A step of another agent (log entry 4): the next state. A step whose condition does not hold changes nothing. -/
def State.become (s : State) (f : State → State) : Host.Outcome State Fault Refusal := .next (f s)

/- Checks that meanings share. -/

/-- The operand-limit fault (R349 0x09): the value, the register number, the role and the major. -/
def limitFault (v : Word) (r : Reg) (role : Nat) (major : Nat) (off : Nat := 0) : FaultRec :=
  { code := 0x09, addr := v, info := BitVec.ofNat 32 (r.toNat + 32 * role + 256 * major + 65536 * off) }

/-- The misaligned-access fault (R349 0x08). -/
def alignFault (a : Word) (n : Nat) : FaultRec := { code := 0x08, addr := a, info := BitVec.ofNat 32 n }

/-- The store queue of the tile in focus drains (R118, R119). -/
def State.drained (s : State) : State := { s with tile := s.tile.drain }

/-- Core accesses are noted in the page map (R76) and in a masked window's access set (R53). -/
def State.noteAll (s : State) (l : List (Nat × Nat × Bool × Bool)) : State :=
  { s with tile := l.foldl (fun t x => t.touch x.1 x.2.1 x.2.2.1 true) s.tile }

/-- Go on after the checks of core accesses (R263): each is (address, bytes, store, core load). A wait of reason 1 has begun its page-in. -/
def State.checked (s : State) (l : List (Nat × Nat × Bool × Bool)) (k : State → Res) : Res :=
  let s := if s.tile.view.bad = [] then s else s.drained
  match s.tile.checkAll l with
  | .fault f => .fault f (if f.code = 0x48 then { s with tile := s.tile.forgetFailure f.addr.toNat } else s)
  | .wait r a => .wait r a (if r = 1 then { s with tile := s.tile.startPageIn a.toNat } else s)
  | .ok => k s

/-- Core accesses that nothing more can stop: once granted they are noted (R76). -/
def State.access (s : State) (l : List (Nat × Nat × Bool × Bool)) (k : State → Res) : Res := s.checked l fun s => k (s.noteAll l)

/-- A core store of bytes at a local address (R118), and of an n-byte number. -/
def State.store (s : State) (a : Nat) (bs : List Byte) : State := { s with tile := s.tile.coreStore a bs }
def State.storeN (s : State) (a n x : Nat) : State := s.store a (natBytes n x)

/-- A core store of several 64-bit words: other agents may see them apart (R264). -/
def State.storeWords (s : State) (a n x : Nat) : State :=
  (List.range (n / 8)).foldl (fun s i => s.storeN (a + 8 * i) 8 (x / 2 ^ (64 * i))) s

/-- A core load of n bytes at a local address, as a number (R118). -/
def State.loadN (s : State) (a n : Nat) : Nat := s.tile.view.coreMem.getN a n

/-- Check that an address is a multiple of n; otherwise the operand-limit fault of a register. -/
def State.need (s : State) (ok : Bool) (f : FaultRec) (k : Res) : Res := if ok then k else .fault f s

/-- Writing a v register in stream mode is an illegal use (R91, R354). -/
def streamFault (r : Reg) : FaultRec := { code := 0x0A, info := r.setWidth 32 }
def State.writable (s : State) (r : Reg) (k : Res) : Res := if s.streaming r.toNat then .fault (streamFault r) s else k

/-- The first register of a list that an instruction would write in stream mode: its illegal use. -/
def State.streamUse (s : State) (rs : List Reg) : Option FaultRec := (rs.find? fun r => s.streaming r.toNat).map streamFault

/-- Read v registers in operand order, popping streams; an empty buffer waits (R91, R271). -/
def State.readVs (s : State) (rs : List Reg) (k : List VWord → State → Res) : Res :=
  match s.popVs rs with
  | none => .wait 15 0 s
  | some (xs, s) => k xs s

/-- Wait for a release of a scope, where the instruction is one (R123, R203). -/
def State.release (s : State) (rel : BitVec 1) (sc : BitVec 2) (k : State → Res) : Res :=
  if rel = 1 && !s.released sc.toNat then .wait 6 0 s else k s


/-- Check a destination name (R58, R374): outside the carrel 0x50; the residency's own name needs no lookup; a miss waits for its walk;
a walk that found the position unmapped is 0x51. `major` is c.finfo's. -/
def State.named (s : State) (n : Word) (major : Nat) (k : State → Res) : Res :=
  if !s.nameInside n then .fault { code := 0x50, addr := n, info := BitVec.ofNat 32 major } s
  else if n = s.tile.id.name then k s
  else match s.tile.cached n with
    | some _ => k { s with tile := s.tile.useName n }
    | none =>
      if s.tile.net.unmapped.contains n then
        .fault { code := 0x51, addr := n, info := BitVec.ofNat 32 major } { s with tile.net.unmapped := s.tile.net.unmapped.filter (· ≠ n) }
      else .wait 3 n { s with tile.net.walks := if s.tile.net.walks.contains n then s.tile.net.walks else s.tile.net.walks ++ [n] }

/-- The instruction that waits has passed names of its rectangle, and does not look them up again: the cache, which holds 64, need not hold them all at
once (R374). -/
def State.passNames (s : State) (past : List Word) : State :=
  if s.urgent then s else { s with tile.core.wait := s.tile.core.wait.map fun w => { w with seen := w.seen ++ past } }

/-- A name that the waiting instruction has passed. -/
def State.passedName (s : State) (n : Word) : Bool := !s.urgent && s.tile.core.wait.any (·.seen.contains n)

/-- Check names in order (R374: a rectangle member by member); `past` are those passed in this attempt. -/
def State.namedAll (s : State) (major : Nat) (k : State → Res) (past : List Word) : List Word → Res
  | [] => k (s.passNames past)
  | n :: ns =>
    if s.passedName n then State.namedAll s major k past ns
    else match s.named n major .done with
      | .done t => State.namedAll t major k (past ++ [n]) ns
      | .wait r a t => .wait r a (t.passNames past)
      | r => r

/-- The names of a rectangle in row-major order from its origin (R305). -/
def rectNames (origin : Word) (w h : Nat) : List Word :=
  (List.range (w * h)).map fun i => mkName (nameWafer origin) (nameX origin + i % w) (nameY origin + i / w)

end Sys2Proof.Machine
end

