-- ==== Sys2Proof/Machine/LocalMem.lean ====
section
/-!
DEFINITION. The instructions that reach the local view (R263 to R270): scalar and vector loads and stores, bit fields, parameter
windows, local atomics and page management, with the compact LDW and STW (R200).
-/

namespace Sys2Proof.Machine

/- Scalar loads and stores. -/

/-- A scalar load of n bytes at s(a) + off (R265); `w` writes the destination. -/
def State.load (s : State) (i : Instr) (a : Reg) (off : Word) (n : Nat) (w : Nat → State → State) : Host.Outcome State Fault Refusal :=
  s.issue i { reads := [a] } fun s =>
    let ea := s.sr a + off
    s.need (ea.toNat % n == 0) (alignFault ea n)
      (s.access [(ea.toNat, n, false, true)] fun s => .done (w (s.loadN ea.toNat n) s))

/-- A scalar store of n bytes at s(a) + off (R265); `v` gives the value stored. -/
def State.storeAt (s : State) (i : Instr) (reads : List Reg) (a : Reg) (off : Word) (n : Nat) (v : State → Nat) :
    Host.Outcome State Fault Refusal :=
  s.issue i { reads := a :: reads } fun s =>
    let ea := s.sr a + off
    s.need (ea.toNat % n == 0) (alignFault ea n)
      (s.access [(ea.toNat, n, true, false)] fun s => .done (s.storeN ea.toNat n (v s)))

/-- The sign-extended word of an n-bit value. -/
def sextWord (n : Nat) (x : Nat) : Word := (BitVec.ofNat n x).signExtend 32

/-- LDB (R265). -/
def execLdb (d a : Reg) (imm : BitVec 14) (s : State) : Host.Outcome State Fault Refusal :=
  s.load (.ldb d a imm) a (imm.signExtend 32) 1 fun x s => s.setS d (sextWord 8 x)

/-- LDBU (R265). -/
def execLdbu (d a : Reg) (imm : BitVec 14) (s : State) : Host.Outcome State Fault Refusal :=
  s.load (.ldbu d a imm) a (imm.signExtend 32) 1 fun x s => s.setS d (BitVec.ofNat 32 x)

/-- LDH (R265). -/
def execLdh (d a : Reg) (imm : BitVec 14) (s : State) : Host.Outcome State Fault Refusal :=
  s.load (.ldh d a imm) a (imm.signExtend 32) 2 fun x s => s.setS d (sextWord 16 x)

/-- LDHU (R265). -/
def execLdhu (d a : Reg) (imm : BitVec 14) (s : State) : Host.Outcome State Fault Refusal :=
  s.load (.ldhu d a imm) a (imm.signExtend 32) 2 fun x s => s.setS d (BitVec.ofNat 32 x)

/-- LDW (R265). -/
def execLdw (d a : Reg) (imm : BitVec 14) (s : State) : Host.Outcome State Fault Refusal :=
  s.load (.ldw d a imm) a (imm.signExtend 32) 4 fun x s => s.setS d (BitVec.ofNat 32 x)

/-- LDD (R265): an even pair, low word first. -/
def execLdd (d a : Reg) (imm : BitVec 14) (s : State) : Host.Outcome State Fault Refusal :=
  s.load (.ldd d a imm) a (imm.signExtend 32) 8 fun x s => s.setPair d (BitVec.ofNat 64 x)

/-- STB (R265). -/
def execStb (d a : Reg) (imm : BitVec 14) (s : State) : Host.Outcome State Fault Refusal :=
  s.storeAt (.stb d a imm) [d] a (imm.signExtend 32) 1 fun s => (s.sr d).toNat

/-- STH (R265). -/
def execSth (d a : Reg) (imm : BitVec 14) (s : State) : Host.Outcome State Fault Refusal :=
  s.storeAt (.sth d a imm) [d] a (imm.signExtend 32) 2 fun s => (s.sr d).toNat

/-- STW (R265). -/
def execStw (d a : Reg) (imm : BitVec 14) (s : State) : Host.Outcome State Fault Refusal :=
  s.storeAt (.stw d a imm) [d] a (imm.signExtend 32) 4 fun s => (s.sr d).toNat

/-- STD (R265). -/
def execStd (d a : Reg) (imm : BitVec 14) (s : State) : Host.Outcome State Fault Refusal :=
  s.storeAt (.std d a imm) [d, d + 1] a (imm.signExtend 32) 8 fun s => (s.pair d).toNat

/-- Compact LDW: LDW a, [s30 + 4 b] (R200). -/
def execLdwCompact (a b : Reg) (s : State) : Host.Outcome State Fault Refusal :=
  s.load (.ldwCompact a b) 30 (BitVec.ofNat 32 (4 * b.toNat)) 4 fun x s => s.setS a (BitVec.ofNat 32 x)

/-- Compact STW: STW a, [s30 + 4 b] (R200). -/
def execStwCompact (a b : Reg) (s : State) : Host.Outcome State Fault Refusal :=
  s.storeAt (.stwCompact a b) [a] 30 (BitVec.ofNat 32 (4 * b.toNat)) 4 fun s => (s.sr a).toNat

/- Vector loads and stores. -/

/-- The effective address of R266. -/
def State.vecAddr (s : State) (a : Reg) (imm : BitVec 14) : Word := s.sr a + imm.signExtend 32 * 16

/-- VLD (R266). -/
def execVld (d a : Reg) (imm : BitVec 14) (s : State) : Host.Outcome State Fault Refusal :=
  s.issue (.vld d a imm) { reads := [a], illegal := s.streamUse [d] } fun s =>
    let ea := s.vecAddr a imm
    s.writable d (s.need (ea.toNat % 16 == 0) (alignFault ea 16)
      (s.access [(ea.toNat, 16, false, true)] fun s => .done (s.setV d (BitVec.ofNat 128 (s.loadN ea.toNat 16)))))

/-- VST (R266). -/
def execVst (d a : Reg) (imm : BitVec 14) (s : State) : Host.Outcome State Fault Refusal :=
  s.issue (.vst d a imm) { reads := [a] } fun s =>
    let ea := s.vecAddr a imm
    s.need (ea.toNat % 16 == 0) (alignFault ea 16)
      (s.checked [(ea.toNat, 16, true, false)] fun s => s.readVs [d] fun xs s =>
        .done ((s.noteAll [(ea.toNat, 16, true, false)]).storeN ea.toNat 16 (xs.getD 0 0).toNat))

/-- Word j of each 16-byte row q, as lanes q (R266). -/
def transposed (m : Nat) (j : Nat) : VWord :=
  BitVec.ofNat 128 ((List.range 4).foldl (fun a q => a + m / 2 ^ (128 * q + 32 * j) % 2 ^ 32 * 2 ^ (32 * q)) 0)

/-- VLDT (R266). -/
def execVldt (d a : Reg) (imm : BitVec 14) (s : State) : Host.Outcome State Fault Refusal :=
  s.issue (.vldt d a imm) { reads := [a], illegal := s.streamUse [d, d + 1, d + 2, d + 3] } fun s =>
    let ea := s.vecAddr a imm
    s.writable d (s.writable (d + 1) (s.writable (d + 2) (s.writable (d + 3) (s.need (ea.toNat % 16 == 0) (alignFault ea 16)
      (s.access [(ea.toNat, 64, false, true)] fun s =>
        let m := s.loadN ea.toNat 64
        .done ((((s.setV d (transposed m 0)).setV (d + 1) (transposed m 1)).setV (d + 2) (transposed m 2)).setV (d + 3) (transposed m 3)))))))

/- Bit fields (R82, R267). -/

/-- LDBIT (R267). c.faddr of the code 0x40 that bits [31:20] raise is the bit address itself: no byte address stands for it (log entry 58). -/
def execLdbit (d a : Reg) (w : BitVec 5) (s : State) : Host.Outcome State Fault Refusal :=
  s.issue (.ldbit d a w) { reads := [a] } fun s =>
    let ba := (s.sr a).toNat
    let (p, n) := bitBytes ba (w.toNat + 1)
    s.need (decide (ba < 2 ^ 20)) (localFault 0x40 ba false)
      (s.access [(p, n, false, true)] fun s => .done (s.setS d (BitVec.ofNat 32 (s.loadN p n / 2 ^ (ba % 8) % 2 ^ (w.toNat + 1)))))

/-- STBIT (R267): the store changes the field's bits alone when it is performed. -/
def execStbit (d a : Reg) (w : BitVec 5) (s : State) : Host.Outcome State Fault Refusal :=
  s.issue (.stbit d a w) { reads := [a, d] } fun s =>
    let ba := (s.sr a).toNat
    let (p, n) := bitBytes ba (w.toNat + 1)
    s.need (decide (ba < 2 ^ 20)) (localFault 0x40 ba true)
      (s.access [(p, n, true, false)] fun s =>
        .done { s with tile := s.tile.coreStoreBits ba (w.toNat + 1) (s.sr d).toNat })

/- Parameter windows (R85, R268). -/

/-- The window fault of an offset (R268): unbound, or at or beyond its end. -/
def windowFault (w : BitVec 3) (win : Window) (off : Word) : Option FaultRec :=
  if win.kind = 0 ∨ win.kind = 3 then some { code := 0x45, addr := off, info := w.setWidth 32 }
  else if 16 * win.length.toNat < off.toNat + 4 then some { code := 0x46, addr := off, info := w.setWidth 32 }
  else none

/-- Ask for a far window's word under a new number: a reply to an earlier request, of a killed or abandoned LDP, is no reply to it (R288). -/
def State.askWord (s : State) (va : Nat) : State :=
  { s with tile.strm.farWord := some { id := s.tile.net.nextId, va := va }, tile.net.nextId := s.tile.net.nextId + 1 }

/-- LDP (R268). A far window's word is asked for once, and waited for. -/
def execLdp (d a b : Reg) (w : BitVec 3) (s : State) : Host.Outcome State Fault Refusal :=
  s.issue (.ldp d a b w) { reads := [a, b], forbidden := s.tile.view.pw[w.toNat].kind == 1 } fun s =>
    let win := s.tile.view.pw[w.toNat]
    let off := s.sr a + s.sr b
    s.need (off.toNat % 4 == 0) (alignFault off 4)
      (match windowFault w win off with
       | some f => .fault f s
       | none =>
         if win.kind = 2 then
           let p := win.start + off.toNat
           s.access [(p, 4, false, true)] fun s => .done (s.setS d (BitVec.ofNat 32 (s.loadN p 4)))
         else
           let va := (win.start + off.toNat) % 2 ^ 48
           match s.tile.strm.farWord with
           | some r =>
             let t := { s with tile.strm.farWord := none }
             if r.va ≠ va then .wait 15 0 (s.askWord va)
             else match r.fail, r.word with
               | some f, _ => .fault f t
               | none, some x => .done (t.setS d x)
               | none, none => .wait 15 0 s
           | none => .wait 15 0 (s.askWord va))

/- Local atomics (R83, R269). -/

/-- The result that a bank atomic stores (R83): operation o of R210 on `w` bits. -/
def atomNew (w o : Nat) (old x cmp : Nat) : Nat :=
  let sgn (v : Nat) : Int := (BitVec.ofNat w v).toInt
  match o with
  | 0 => (old + x) % 2 ^ w
  | 1 => old &&& x
  | 2 => old ||| x
  | 3 => old ^^^ x
  | 4 => if sgn x < sgn old then x else old
  | 5 => if sgn old < sgn x then x else old
  | 6 => if x < old then x else old
  | 7 => if old < x then x else old
  | 8 => x
  | 9 => if old = cmp then x else old
  | _ => (Fmt.fp32.add .rne old x).1

/-- ATOM, 32-bit (R269). -/
def execAtom (d a b : Reg) (o : BitVec 4) (s : State) : Host.Outcome State Fault Refusal :=
  s.issue (.atom d a b o) { reads := if o = 9 then [a, b, d] else [a, b] } fun s =>
    let ea := s.sr a
    s.need (ea.toNat % 4 == 0) (alignFault ea 4)
      (s.access [(ea.toNat, 4, true, true)] fun s =>
        let s := s.drained
        let old := s.loadN ea.toNat 4
        let new := atomNew 32 o.toNat old (s.sr b).toNat (s.sr d).toNat
        .done ({ s with tile := s.tile.storeN ea.toNat 4 new }.setS d (BitVec.ofNat 32 old)))

/-- ATOM, 64-bit (R269). -/
def execAtomD (d a b : Reg) (o : BitVec 4) (s : State) : Host.Outcome State Fault Refusal :=
  s.issue (.atomD d a b o) { reads := if o = 9 then [a, b, b + 1, d, d + 1] else [a, b, b + 1] } fun s =>
    let ea := s.sr a
    s.need (ea.toNat % 8 == 0) (alignFault ea 8)
      (s.access [(ea.toNat, 8, true, true)] fun s =>
        let s := s.drained
        let old := s.loadN ea.toNat 8
        let new := atomNew 64 o.toNat old (s.pair b).toNat (s.pair d).toNat
        .done ({ s with tile := s.tile.storeN ea.toNat 8 new }.setPair d (BitVec.ofNat 64 old)))

/- Page management. -/

/-- ALLOC (R77, R270): a refused ALLOC keeps the page-outs it has made. -/
def execAlloc (a k : Reg) (s : State) : Host.Outcome State Fault Refusal :=
  s.issue (.alloc a k) { reads := [a] } fun s =>
    let v := (s.sr a).toNat
    let s := s.drained
    match s.tile.alloc v k.toNat with
    | (some f, t) => .fault f { s with tile := t }
    | (none, t) => .done { s with tile := t }

/-- FREE (R80, R270): waits while the page is busy. -/
def execFree (a : Reg) (s : State) : Host.Outcome State Fault Refusal :=
  s.issue (.free a) { forbidden := true, reads := [a] } fun s =>
    let v := (s.sr a).toNat
    match s.tile.view.mapCheck v 1 false with
    | .fault f => .fault f s
    | _ =>
      match s.tile.view.page v with
      | none => .done s
      | some p => if s.tile.busy p then .wait 15 0 s else .done { s with tile := s.drained.tile.freePage p }

/-- PIN (R80, R270): the 72 KiB limit, then the page is brought in and pinned. -/
def execPin (a : Reg) (s : State) : Host.Outcome State Fault Refusal :=
  s.issue (.pin a) { forbidden := true, reads := [a] } fun s =>
    let v := (s.sr a).toNat
    match s.tile.view.mapCheck v 1 false with
    | .fault f => .fault f s
    | _ =>
      match s.tile.view.page v with
      | none => .done s
      | some p =>
        if p.pinned then .done s
        else if 72 * 1024 < s.tile.view.pinned + pageSize p.k then
          .fault { code := 0x43, addr := s.sr a, info := BitVec.ofNat 32 (s.tile.view.pinned / 1024) } s
        else if p.resident then .done { s with tile.view := s.tile.view.updPage v fun q => { q with pinned := true } }
        else if p.spill = .lost ∨ p.failed.isSome then .fault (pageFault p v) { s with tile := s.tile.forgetFailure v }
        else .wait 1 (s.sr a) { s with tile := s.tile.startPageIn v }

end Sys2Proof.Machine
end

