-- ==== Sys2Proof/Machine/Fetch.lean ====
section
/-!
DEFINITION. Which step comes next: the schedule (log entry 4), the timers that the clk of an instruction advance (log entry 6), the order
of R335, R35, R49, R47 at an instruction boundary, and the fetch of an instruction (R199, R350, R352).
-/

namespace Sys2Proof.Machine

/- Time (log entry 6). -/

/-- Zero `n` lines of pages that wait for zeroing, one line per clk (R77). -/
def zeroLines : Nat → List Page → List Page
  | _, [] => []
  | n, p :: ps => { p with unzeroed := p.unzeroed.drop n } :: zeroLines (n - p.unzeroed.length) ps

/-- Work of the normal level stands: the residency migrates, is archived, or its field is paused (R35, R48, R361, R362). -/
def State.standing (s : State) : Bool :=
  s.tile.moving || s.tile.stop.archived || (s.fld.paused && !s.onSteward)

/-- The timers of a tile after `n` clk: the masked window, in every clk but those of a pause (R53, R362), urgent time (R52), the kill counter (R35), the wait (R361), the
waits in the ready rings (R48), the epoch (R76), the background zeroing (R77); of the store queue the `k` oldest stores are performed
(R118; log entry 8). -/
def Tile.clk (t : Tile) (n k : Nat) (stand paused : Bool) : Tile :=
  let c := t.core
  let active := c.phase == .running || c.phase == .waiting
  let t := { t with view.pages := zeroLines n t.view.pages, view.epochClk := t.view.epochClk + n }
  let t := ({ t with view.stores := t.view.stores.drop k, core.mask := if paused then c.mask else c.mask.map (· + n) }).perform (t.view.stores.take k)
  if stand then t
  else
    { t with
      core.urgentClk := if c.level = .urgent && t.stop.faulted != some .urgent then c.urgentClk + n else c.urgentClk,
      core.cur.kill := if c.level = .normal && active && t.stop.faulted.isNone then c.cur.kill.map (· + n) else c.cur.kill,
      core.wait := if c.phase = .waiting then c.wait.map fun w => { w with clk := w.clk + n } else c.wait,
      task.rings := t.task.rings.map fun e => { e with age := e.age + n } }

/-- A field's clock and time counter (R168) and the clk of its publish (R379) after `n` clk. -/
def Field.pass (f : Field) (n : Nat) : Field :=
  { f with clk := f.clk + n, time := f.time + n * f.rate, publish := f.publish.map fun p => { p with clk := p.clk + n } }

/-- The clk of the SHOOTs of stewards that a predicate picks (R378). -/
def State.passShoots (s : State) (n : Nat) (f : Phys → Bool) : State :=
  if s.wafer.shoots = [] then s
  else { s with wafer.shoots := s.wafer.shoots.map fun x => if f x.steward then { x with clk := x.clk + n } else x }

/-- `n` clk pass at the tile in focus and in its field, and `k` stores of its queue are performed. -/
def State.tick (s : State) (n k : Nat) : State :=
  let s := s.passShoots n fun p => p.field == s.tile.phys.field
  { (s.updFld (·.pass n)) with tile := s.tile.clk n k s.standing (s.fld.paused && !s.onSteward) }

/-- `n` clk pass at every tile and field listed; store queues drain (R118). -/
def State.elapse (s : State) (n : Nat) : State :=
  let go (t : Tile) : Tile :=
    let paused := (s.fieldAt t.phys.field).paused && !t.phys.steward
    t.drain.clk n 0 (t.moving || t.stop.archived || paused) paused
  let s := if s.flds.any (fun f => f.fx == s.tile.phys.field.1 && f.fy == s.tile.phys.field.2) then s else s.setField s.fld
  { (s.passShoots n fun _ => true).mapTiles go with flds := s.flds.map (·.pass n) }

/-- The clk that an instruction occupies the core (R221): AD's figures, with those of R287 by the element format, else 1. -/
def issueClk : Instr → Nat
  | .div _ _ _ => 34
  | .divu _ _ _ => 34
  | .rem _ _ _ => 34
  | .remu _ _ _ => 34
  | .bkpack _ _ _ _ _ _ e => if e = 0 then 26 else 22
  | .bkunpack _ _ _ _ _ _ e => if e = 0 then 26 else 22
  | .alloc _ _ => 4
  | _ => 1

/- What an instruction boundary owes. -/

/-- The wait limit of the residency's carrel (R361). -/
def State.waitLimit (s : State) : Nat := ((s.myCarrel).map (·.lw)).getD 0

/-- A timer that runs in every clk and has run out at the tile in focus (R53, R76). -/
def State.dueAlways (s : State) : Option Instr :=
  if Config.epochClk ≤ s.tile.view.epochClk then some .epochTick
  else if (s.tile.core.mask.map fun n => decide (Config.maskLimit ≤ n)).getD false then some .maskWindowTimeout
  else none

/-- A held urgent header has reached the head and is to be removed: its scope is covered, or its class was not enabled when it was performed (R49, R359). -/
def State.headGone (s : State) : Bool := match s.tile.task.urgents with
  | [] => false
  | m :: _ => s.coveredBy m.scope || m.dead

/-- A timer of the running work that has run out at the tile in focus. -/
def State.due (s : State) : Option Instr :=
  let c := s.tile.core
  if c.level = .urgent ∧ Config.urgentLimit ≤ c.urgentClk then some .urgentOverrun
  else if c.level = .normal ∧ (c.cur.kill.map fun n => decide (Config.haltLimit ≤ n)).getD false then some .killCounterExpiry
  else if 0 < s.waitLimit ∧ (c.wait.map fun w => decide (s.waitLimit * Config.watchdogUnit ≤ w.clk)).getD false then some .waitWatchdogExpiry
  else if s.tile.task.rings.any (fun e => decide (Config.agingClk ≤ e.age) && decide (e.prio ≠ 0) && decide (s.tile.ringCount (e.prio - 1) < 256)) then
    some .agingPromotion
  else none

/-- The pending fault that is taken at this boundary (R335): the urgent level takes its own; the normal level takes any. -/
def State.nextPend (s : State) : Option FaultRec := s.tile.stop.pend.find? fun f => f.urgent || !s.urgent

/-- clk spent at the urgent level in the last 4,096 (R52). -/
def urgentSpent (now : Nat) (past : List (Nat × Nat)) : Nat :=
  past.foldl (fun a x => a + (x.2 - max x.1 (now - Config.urgentWindow))) 0

/-- The oldest requested urgent header can be accepted (R49, R52, R24). -/
def State.acceptable (s : State) : Bool :=
  let c := s.tile.core
  !s.tile.task.urgents.isEmpty && c.mask.isNone && decide (c.level = .normal) && s.tile.net.mig.isNone
    && (c.phase == .idle || c.phase == .running || c.phase == .waiting)
    && decide (urgentSpent s.fld.clk c.urgentPast ≤ Config.urgentDuty)

/-- The task unit can select (R47). -/
def State.selectable (s : State) : Bool :=
  !s.urgent && s.tile.core.phase == .idle && s.tile.stop.faulted.isNone && !s.tile.task.rings.isEmpty

/-- The running level issues instructions. -/
def State.issuing (s : State) : Bool :=
  if s.urgent then s.tile.stop.faulted != some .urgent
  else s.tile.stop.faulted.isNone && (s.tile.core.phase == .running || s.tile.core.phase == .waiting)

/-- The tile does not step: it is off, archived, paused, or halted for a migration (R258, R187, R362, R68). -/
def State.still (s : State) : Bool :=
  s.tile.stop.off || s.tile.stop.archived || (s.fld.paused && !s.onSteward)
    || s.tile.moving

/- Fetch. -/

/-- What a fetch gives. -/
inductive Fetched where
  | fault (f : FaultRec)
  | bad (w : Nat)
  | instr (i : Instr)
deriving DecidableEq, Repr

/-- The instruction-store word of a parcel fails its check (R337, code 0x81). -/
def badParcel (p : Nat) : FaultRec :=
  { code := 0x81, hard := true, addr := BitVec.ofNat 32 p, info := BitVec.ofNat 32 (p / 4) }

/-- The words that a fetch at the pc reads are corrected (R347). -/
def State.fetched (s : State) : State :=
  if s.tile.view.soft = [] then s
  else
    let pc := s.tile.core.cur.pc.toNat
    let v := s.tile.view.correct true (pc / 4)
    { s with tile.view := if (v.ist.parcel pc).toNat % 2 = 1 then v.correct true ((pc + 1) / 4) else v }

/-- Fetch at the pc: the fetch range (R352), the check bits (R337), then the decoder (R350), in the order of R353. -/
def State.fetch (s : State) : Fetched :=
  let v := s.tile.view
  let pc := s.tile.core.cur.pc.toNat
  let p := v.ist.parcel pc
  if p.toNat % 2 = 1 ∧ pc = 0x1FFF then .fault { code := 0x04, addr := 0x2000, info := 2 }
  else if v.badIst.contains (pc / 4) then .fault (badParcel pc)
  else if p.toNat % 2 = 1 ∧ v.badIst.contains ((pc + 1) / 4) then .fault (badParcel (pc + 1))
  else
    let q := v.ist.parcel (pc + 1)
    match decode [p, q] with
    | some (i, _) => .instr i
    | none => .bad (if p.toNat % 2 = 0 then p.toNat else p.toNat + 65536 * q.toNat)

/- The next step. -/

/-- The next step of the machine: a meaning to run in a state, or a state reached without one. -/
inductive Turn where
  | run (i : Instr) (s : State)
  | rest (s : State)

/-- The next step of the tile in focus; `k` gives, for a step of so many clk, the stores that the queue performs in it. -/
def State.turnHere (s : State) (k : Nat → Nat) : Turn :=
  match s.dueAlways with
  | some i => .run i s
  | none =>
  if s.still then .rest (s.tick 1 (k 1))
  else match s.due with
  | some i => .run i s
  | none =>
  if s.nextPend.isSome then .run .faultTaken s
  else if s.onSteward && !s.tile.stw.active && !s.tile.stw.exns.isEmpty then .run .stewardException s
  else if s.headGone || s.acceptable then .run .urgentAccept s
  else if s.selectable then .run .taskDispatch s
  else if s.issuing then
    let s := s.fetched
    match s.fetch with
    | .fault f => .rest ((s.tick 1 (k 1)).precise f)
    | .bad w => .run .unallocatedEncoding { (s.tick 1 (k 1)) with inp.word := BitVec.ofNat 32 w }
    | .instr i => .run i (s.tick (issueClk i) (k (issueClk i)))
  else .rest (s.tick 1 (k 1))

/-- A step that has no encoding: a step of another agent. -/
def isEvent (i : Instr) : Bool := i.parcels == 0

end Sys2Proof.Machine
end

