-- ==== Sys2Proof/Machine/Routes.lean ====
section
/-!
DEFINITION. Routes (R144) and the ownership that routers check (R145); the owners of almanac slots (R146, R147); the admission of transit messages (R149).
-/

namespace Sys2Proof.Machine

/- Links. -/

/-- The links by the code of R254: 0 west, 1 north, 2 east, 3 south. -/
def linkDir (n : Nat) : Dir := match n % 4 with
  | 0 => .west
  | 1 => .north
  | 2 => .east
  | _ => .south

/-- The link back. -/
def linkBack (n : Nat) : Nat := (n + 2) % 4

def Router.link (r : Router) (n : Nat) : Link := r.links[n % 4]'(Nat.mod_lt _ (by decide))
def Tile.setLink (t : Tile) (n : Nat) (l : Link) : Tile := { t with router.links := t.router.links.set (n % 4) l (Nat.mod_lt _ (by decide)) }

/- Routes. -/

/-- The link that the dimension order gives (R144): first X, then Y; none at the destination. -/
def routeLink (p dst : Phys) : Option Nat :=
  if dst.px < p.px then some 0 else if p.px < dst.px then some 2
  else if p.py < dst.py then some 1 else if dst.py < p.py then some 3 else none

/-- The detour that a router holds for a link (R144). -/
def Router.detour (r : Router) (n : Nat) : Option Detour := r.detours.toList.find? fun d => d.valid && d.link.toNat == n && !d.hops.isEmpty

/-- The next hop of a flit at a router, the hops after it, and whether it belongs to a detour (R144): a hop of a detour that the flit has still to take, else the
route's; none at the destination. Every flit that reaches the link of a detour entry takes that entry's hops, and after them the route: one that was on another
detour does not go back to it. -/
def Tile.hop (t : Tile) (dst : Phys) (hops : List (BitVec 2)) : Option (Nat × List (BitVec 2) × Bool) :=
  let next : Option (Nat × List (BitVec 2) × Bool) := match hops with
    | x :: xs => some (x.toNat, xs, true)
    | [] => (routeLink t.phys dst).map fun n => (n, [], false)
  match next with
  | none => none
  | some (n, rest, d) => match (t.router.detour n).map (·.hops) with
    | some (x :: xs) => some (x.toNat, xs, true)
    | _ => some (n, rest, d)

/-- The path from a tile: each tile with the link by which the path leaves it and whether that hop belongs to a detour. -/
def State.path (s : State) (dst : Phys) : Nat → Phys → List (BitVec 2) → List (Phys × Nat × Bool)
  | 0, _, _ => []
  | k + 1, p, hops =>
    match (s.tileAt p).hop dst hops with
    | none => []
    | some (n, rest, d) => (p, n, d) :: match physOver p n with
      | some q => State.path s dst k q rest
      | none => []

/-- The path between two tiles, and the tiles on it; no path is longer than this. -/
def State.route (s : State) (p dst : Phys) : List (Phys × Nat × Bool) := s.path dst 8192 p []
def State.routeTiles (s : State) (p dst : Phys) : List Phys := (s.route p dst).map (·.1) ++ [dst]

/-- The turns of a path between its hops (R149): changes between X and Y, and moves into or out of a detour. -/
def innerTurns : List (Phys × Nat × Bool) → Nat
  | x :: y :: l => (if x.2.2 ≠ y.2.2 ∨ (!x.2.2 ∧ x.2.1 % 2 ≠ y.2.1 % 2) then 1 else 0) + innerTurns (y :: l)
  | _ => 0

/-- The turns of a path; a detour at the source's own router is moved into there. -/
def turns (l : List (Phys × Nat × Bool)) : Nat := (if l.head?.any (·.2.2) then 1 else 0) + innerTurns l

/-- The field boundaries that a path crosses (R149). -/
def crossings : List Phys → Nat
  | p :: q :: l => (if p.field = q.field then 0 else 1) + crossings (q :: l)
  | _ => 0

/- Ownership. -/

/-- A port of a router's ownership map holds a carrel (R145). -/
def Tile.owns (t : Tile) (port : Nat) (c : BitVec 11) : Bool :=
  let o := t.router.own[port % 5]'(Nat.mod_lt _ (by decide))
  o.valid && o.carrel == c

/-- A flit that the link check of R145 does not concern. -/
def exempt (h : FlitHdr) : Bool := h.vc == 3 || h.stw

/-- A header with a reserved op, vc or field (R142). -/
def reservedHdr (h : FlitHdr) : Bool := decide (0x1A < h.op.toNat) || decide (4 < h.vc.toNat) || h.reserved != 0

/- The almanac's owners. -/

/-- A service slot (R146). -/
def serviceSlot (n : Nat) : Bool := n % 16 != 0 && n % 16 != 8

/-- The frame and slot of a global time in ns (R146). -/
def frameOf (ns : Nat) : Nat := ns / Config.frameNs
def slotAt (ns : Nat) : Nat := ((ns % Config.frameNs + 1) * 4096 - 1) / Config.frameNs

/-- A field's counter is set: the slot that contains that time is the first that occurs, cut short at its beginning (R146). -/
def Field.setTime (f : Field) (t : Nat) : Field := { f with time := t, frame := frameOf (t / 2 ^ 32), slot := slotAt (t / 2 ^ 32), did := [] }

/-- The slots of the almanac counted from time 0 (R146). -/
def Field.slotCount (f : Field) : Nat := 4096 * f.frame + f.slot

/-- The owner of a slot of a resource in a table: the carrel of an entry whose own bit is 1 (R147). Entries of maintenance and control slots are ignored. -/
def ownerIn (l : List (Nat × Nat × BitVec 16)) (r slot : Nat) : Option (BitVec 11) :=
  if !serviceSlot slot then none
  else match (l.find? fun x => x.1 == r && x.2.1 == slot).map (·.2.2) with
  | none => none
  | some e => if e.getLsbD 15 then some (e.setWidth 11) else none

/-- The owner of an almanac slot of a resource. -/
def Field.owner (f : Field) (r slot : Nat) : Option (BitVec 11) := ownerIn f.almanac r slot

/-- The owner of a slot counted from the begin of this frame: from 4,096 on by the table of the next frame, as far as it has been written (R147). -/
def Field.ownerFrom (f : Field) (r t : Nat) : Option (BitVec 11) :=
  if t < 4096 then f.owner r t else ownerIn (f.almNext.reverse ++ f.almanac) r (t - 4096)

/-- Write an almanac entry (R147). -/
def putEntry (l : List (Nat × Nat × BitVec 16)) (x : Nat × Nat × BitVec 16) : List (Nat × Nat × BitVec 16) :=
  l.filter (fun y => !(y.1 == x.1 && y.2.1 == x.2.1)) ++ [x]

/-- A carrel owns the current slot of a resource of a field: numbered as R258 does, 48 its steward service, 49 to 52 its walker lanes, 53 to 56 transit lanes. -/
def Field.owns (f : Field) (r : Nat) (c : BitVec 11) : Bool := f.owner r f.slot == some c

/-- The current slot of the steward service of a carrel's home field is the carrel's (R148). -/
def State.inService (s : State) (c : Carrel) : Bool := (s.fieldAt c.home).owns 48 (BitVec.ofNat 11 c.num)

/-- The clk from now to the begin of a slot of this frame (R146). -/
def Field.clkTo (f : Field) (t : Nat) : Nat :=
  ((f.frame * Config.frameNs + t * Config.frameNs / 4096) * 2 ^ 32 - f.time + f.rate - 1) / f.rate

/- Transit. -/

/-- The transit clk left in a carrel's run on a lane from slot `t` of this frame on, and the slot at which the run ends (R149); a run is followed to the end of the
next frame, whose tables are the last that are known (log entry 76). -/
def Field.runLeft (f : Field) (r : Nat) (c : BitVec 11) : Nat → Nat → Nat × Nat
  | 0, t => (0, t)
  | k + 1, t =>
    if !serviceSlot t then Field.runLeft f r c k (t + 1)
    else if f.ownerFrom r t = some c then
      let x := Field.runLeft f r c k (t + 1)
      ((f.clk + f.clkTo (t + 1)) / 4 - (f.clk + f.clkTo t) / 4 + x.1, x.2)
    else (0, t)

/-- The lowest clock of the wafer's fields in MHz. -/
def State.lowestPll (s : State) : Nat := s.flds.foldl (fun m f => min m f.pll) 1050

/-- The transit clk that a message needs (R149). -/
def State.transitNeed (s : State) (p : Packet) (w : Way) : Nat :=
  let r := s.route (home w.src) (home w.dst)
  r.length + 2 * crossings (r.map (·.1) ++ [home w.dst]) + turns r + (p.len + 1)

/-- A message that has begun to leave, and is still under way on transit. -/
def onTransit (p : Packet) : Option Way := p.way.filter fun w => w.vc == 3 && decide (0 < w.sent)

/-- The guard of the admission test in transit clk (R395): 2.1 times the skew bound in ns, over 4, rounded up. -/
def transitGuard (skew : BitVec 16) : Nat := (21 * skew.toNat + 39) / 40

/-- A message enters the fabric: on transit in lane `l`, in its carrel's present run there. -/
def State.board (s : State) (p : Packet) (w : Way) (l : Nat) : Way :=
  if w.vc = 3 ∧ w.sent = 0 then
    let f := s.fieldAt (home w.src).field
    { w with lane := BitVec.ofNat 2 l, runEnd := 4096 * f.frame + (f.runLeft (53 + l % 4) p.hdr.carrel (8192 - f.slot) f.slot).2 }
  else w

/-- Transit lane `l` admits a message at its source (R149, R395): its field's skew bound is known, its carrel owns the slot, the whole message can arrive before the
run ends, counted with the lowest clock of the wafer and less the guard, its destination has a receive credit, and the lane is empty of flits that were admitted in
an earlier run, another carrel's or its own (R386). -/
def State.admits (s : State) (p : Packet) (w : Way) (l : Nat) : Bool :=
  let f := s.fieldAt (home w.src).field
  let c := p.hdr.carrel
  f.owns (53 + l) c && f.skew != 0xFFFF
    && decide (s.transitNeed p w + transitGuard f.skew ≤ (f.runLeft (53 + l) c (8192 - f.slot) f.slot).1 * s.lowestPll / f.pll)
    && decide ((s.net.filter fun q => (onTransit q).any (·.dst == w.dst)).length ≤ Config.transitCredits)
    && s.net.all fun q => (onTransit q).all fun v => v.lane.toNat != l || (q.hdr.carrel == c && decide (f.slotCount < v.runEnd))

end Sys2Proof.Machine
end

