-- ==== Sys2Proof/Machine/Copies.lean ====
section
/-!
DEFINITION. The copy instructions GET, PUT and their far and local forms, the watermark configuration and the copy fences (R89, R93, R94,
R300 to R303).
-/

namespace Sys2Proof.Machine

/-- A copy control word (R301). -/
structure CopyCtl where
  length : Nat
  wm : Option (BitVec 2)
  cen : Option (BitVec 4)
  dcnt : Option (BitVec 4)
deriving DecidableEq, Repr

/-- The fields of a copy control word (R301). -/
def copyCtl (x : Word) : CopyCtl :=
  { length := x.toNat % 2 ^ 17,
    wm := if x.getLsbD 17 then some ((x >>> 18).setWidth 2) else none,
    cen := if x.getLsbD 20 then some ((x >>> 21).setWidth 4) else none,
    dcnt := if x.getLsbD 25 then some ((x >>> 26).setWidth 4) else none }

/-- The destination of a W copy lies inside its channel's configured range (R301). -/
def Tile.inChannel (t : Tile) (c : BitVec 2) (a n : Nat) : Bool :=
  let w := t.strm.wm[c.toNat]
  w.on && decide (w.lo ≤ a) && decide (a + n ≤ w.hi)

/-- The remote end of a copy's kind: a name to check, or none. -/
def CopyKind.named : CopyKind → Bool
  | .get | .put => true
  | _ => false

/-- The operand limits of R301 in the order of R353, a and b before the registers after them: the first that fails. `a` holds the local side; b holds the
other. The range of an address is a check of its register, by the control word's length field as it stands. -/
def State.copyLimit (s : State) (k : CopyKind) (a b : Reg) (major : Nat) : Option FaultRec :=
  let x := s.sr a
  let y := s.sr b
  let cw := s.sr (a + 1)
  let z := s.sr (b + 1)
  let c := copyCtl cw
  let bad (v : Word) (r : Reg) (role : Nat) : Option FaultRec := some (limitFault v r role major)
  let far := k == .getFar || k == .putFar
  if x.toNat % 16 ≠ 0 ∨ viewEnd < x.toNat + c.length then bad x a 1
  else if y.toNat % 16 ≠ 0 ∨ (k = .getLoc ∧ viewEnd < y.toNat + c.length) then bad y b 2
  else if c.length % 16 ≠ 0 ∨ c.length < 16 ∨ 98304 < c.length ∨ 2 ^ 30 ≤ cw.toNat then bad cw (a + 1) 4
  else if c.dcnt.isSome ∧ k ≠ .put then bad cw (a + 1) 4
  else if c.wm.isSome ∧ k = .putFar then bad cw (a + 1) 4
  else if c.wm.any fun w => k != .put && !s.tile.inChannel w x.toNat c.length then bad cw (a + 1) 4
  else if far ∧ 65536 ≤ z.toNat then bad z (b + 1) 4
  else if k = .getLoc ∧ z ≠ 0 then bad z (b + 1) 4
  else none

/-- Every page of the local ranges is mapped (R371). -/
def State.copyMapped (s : State) (k : CopyKind) (x y n : Nat) : Chk :=
  match s.tile.view.mapCheck x n (k == .get || k == .getFar || k == .getLoc) with
  | .ok => if k = .getLoc then s.tile.view.mapCheck y n false else .ok
  | c => c

/-- The far address of a b pair (R301). -/
def farVa (lo hi : Word) : Nat := lo.toNat + 2 ^ 32 * (hi.toNat % 65536)

/-- A copy enters its slot (R302), with its token marked; a GET's request is sent at once. -/
def State.startCopy (s : State) (k : CopyKind) (d a b : Reg) (slot : Nat) : State :=
  let c := copyCtl (s.sr (a + 1))
  let x := (s.sr a).toNat
  let far := farVa (s.sr b) (s.sr (b + 1))
  let name := s.sr (b + 1)
  let id := copyId s.tile.net.nextId slot
  let other := if k = .getFar ∨ k = .putFar then far else (s.sr b).toNat
  let (s, m) := s.mark d
  let get := k == .get || k == .getFar || k == .getLoc
  let cp : Copy := { slot := slot, id := id, kind := k, src := if get then other else x, dst := if get then x else other,
                     name := if k.named then name else 0, length := c.length, wm := c.wm, cen := c.cen, dcnt := c.dcnt,
                     prio := s.tile.core.cur.prio, scope := s.tile.core.cur.scope, urgent := s.urgent, mark := m,
                     issued := if k = .get then c.length else 0, own := s.tile.core.cur.own }
  let s := { s.drained with tile.strm.copies := s.drained.tile.strm.copies ++ [cp] }
  if k = .get then s.emit { hdr := s.hdr name cp.scope, body := .getReq cp.src c.length id x 0, urg := cp.urgent } else s

/-- GET and PUT in all their forms (R301, R302): limits, mapped pages, the name, the release, a free copy slot. -/
def State.copy (s : State) (i : Instr) (k : CopyKind) (d a b : Reg) (major : Nat) (rel : BitVec 1) (sc : BitVec 2) :
    Host.Outcome State Fault Refusal :=
  s.issue i { reads := [a, b, a + 1, b + 1] } fun s =>
    match s.copyLimit k a b major with
    | some f => .fault f s
    | none =>
      match s.copyMapped k (s.sr a).toNat (s.sr b).toNat (copyCtl (s.sr (a + 1))).length with
      | .fault f => .fault f s
      | _ =>
        let go (s : State) : Res := s.release rel sc fun s =>
          match s.tile.copySlot with
          | none => .wait 5 0 s
          | some n => .done (s.startCopy k d a b n)
        if k.named then s.named (s.sr (b + 1)) major go else go s

/-- GET (R301, R302). -/
def execGet (d a b : Reg) (s : State) : Host.Outcome State Fault Refusal := s.copy (.get d a b) .get d a b 0x59 0 0

/-- GET.FAR (R301, R302). -/
def execGetFar (d a b : Reg) (s : State) : Host.Outcome State Fault Refusal := s.copy (.getFar d a b) .getFar d a b 0x59 0 0

/-- GET.LOC (R301, R302). -/
def execGetLoc (d a b : Reg) (s : State) : Host.Outcome State Fault Refusal := s.copy (.getLoc d a b) .getLoc d a b 0x59 0 0

/-- PUT (R301, R302), a release with r = 1 (R123). -/
def execPut (d a b : Reg) (x : BitVec 2) (r : BitVec 1) (s : State) : Host.Outcome State Fault Refusal :=
  s.copy (.put d a b x r) .put d a b 0x5A r x

/-- PUT.FAR (R301, R302), a release with r = 1 (R123). -/
def execPutFar (d a b : Reg) (x : BitVec 2) (r : BitVec 1) (s : State) : Host.Outcome State Fault Refusal :=
  s.copy (.putFar d a b x r) .putFar d a b 0x5A r x

/-- WMCFG (R303): waits for the channel's outstanding W copies, then sets its range or turns it off. -/
def execWmcfg (d a b : Reg) (s : State) : Host.Outcome State Fault Refusal :=
  s.issue (.wmcfg d a b) { forbidden := true, reads := [a, b] } fun s =>
    let lo := s.sr a
    let hi := s.sr b
    let n : BitVec 2 := d.setWidth 2
    let set (w : Watermark) : Res :=
      if s.tile.strm.copies.any (fun c => c.wm == some n) then .wait 15 0 s
      else .done { s with tile.strm.wm := s.tile.strm.wm.set n.toNat w }
    if lo = hi then set { s.tile.strm.wm[n.toNat] with on := false }
    else if lo.toNat % 16 ≠ 0 ∨ hi.toNat ≤ lo.toNat then .fault (limitFault lo a 1 0x5B) s
    else if hi.toNat % 16 ≠ 0 ∨ viewEnd < hi.toNat then .fault (limitFault hi b 2 0x5B) s
    else set { on := true, lo := lo.toNat, hi := hi.toNat, written := [] }

/-- SFENCE (R120, R300): every earlier GET, PUT and folio replay is complete. -/
def execSfence (s : State) : Host.Outcome State Fault Refusal :=
  s.issue .sfence { forbidden := true } fun s =>
    if s.tile.strm.copies.isEmpty && s.tile.strm.replay.isNone then .done s.drained else .wait 15 0 s

/-- A copy one of whose ends is far memory. -/
def Copy.far (c : Copy) : Bool := c.kind == .getFar || c.kind == .putFar

/-- FENCE.FAR (R126): every earlier far chunk is performed, those of copies that a kill has abandoned since they were issued among them. -/
def execFenceFar (s : State) : Host.Outcome State Fault Refusal :=
  s.issue .fenceFar { forbidden := true } fun s =>
    if s.tile.strm.copies.any (·.far) || s.tile.net.acks[3] != 0 then .wait 15 0 s else .done s

end Sys2Proof.Machine
end

