-- ==== Sys2Proof/Machine/Sync.lean ====
section
/-!
DEFINITION. Armed operations and counters (R161 to R163, R313, R314), barriers (R164 to R167, R315), scopes and cancels (R32, R34,
R316), combining entries and folios (R150, R156, R160, R317 to R319).
-/

namespace Sys2Proof.Machine

/- Armed operations and counters. -/

/-- A word of a record read at issue by a core load. -/
def State.wordAt (s : State) (a off : Nat) : Word := BitVec.ofNat 32 (s.loadN (a + off) 4)

/-- The fields of an action descriptor (R162). -/
def State.actionAt (s : State) (a : Nat) : Action :=
  let w := s.wordAt a 0
  { kind := w.setWidth 2, rel := w.getLsbD 2, cls := (w >>> 3).setWidth 4, prio := (w >>> 7).setWidth 2, urgent := w.getLsbD 9,
    tok := (w >>> 10).setWidth 5, dcnt := if w.getLsbD 19 then some ((w >>> 15).setWidth 4) else none,
    name := s.wordAt a 4, laddr := s.wordAt a 8, raddr := s.wordAt a 12, length := s.wordAt a 16, tag := s.wordAt a 20 }

/-- The checks of an action descriptor in ascending offset (R313): those of the operation it describes. -/
def State.actionChecks (s : State) (a : Nat) : List (Nat × Bool) :=
  let d := s.actionAt a
  let send := d.kind == 0
  let put := d.kind == 1
  let n := d.length.toNat
  [(0, decide ((s.wordAt a 0).toNat < 2 ^ 20)), (8, !(send || put) || d.laddr.toNat % 16 == 0),
   (12, !(put || d.kind == 2) || d.raddr.toNat % 16 == 0),
   (16, (!put || (n % 16 == 0 && decide (16 ≤ n) && decide (n ≤ 98304))) && (!send || decide (n ≤ if d.urgent then 64 else 960))),
   (24, s.wordAt a 24 == 0), (28, s.wordAt a 28 == 0)]

/-- A slot is armed, and the illegal use of arming it again (R313, R354). -/
def State.slotArmed (s : State) (k : BitVec 4) : Bool := s.tile.task.armed.any fun x => x.slot == k
def armedFault (k : BitVec 4) : FaultRec := { code := 0x12, info := k.setWidth 32 }

/-- TRIG.ARM (R162, R163, R313): the slot is armed and evaluated at once. -/
def execTrigArm (d a b : Reg) (n : BitVec 4) (s : State) : Host.Outcome State Fault Refusal :=
  let k : BitVec 4 := d.setWidth 4
  s.issue (.trigArm d a b n) { reads := [a, b], illegal := if s.slotArmed k then some (armedFault k) else none } fun s =>
    let p := s.sr a
    if s.slotArmed k then .fault (armedFault k) s
    else s.need (p.toNat % 16 == 0) (limitFault p a 1 0x69)
      (s.checked [(p.toNat, 32, false, true)] fun s =>
        match (s.actionChecks p.toNat).find? fun x => !x.2 with
        | some (off, _) => .fault (limitFault (s.wordAt p.toNat off) a 5 0x69 off) s
        | none =>
          let act := s.actionAt p.toNat
          let thr := s.sr b
          let (s, m) := (s.noteAll [(p.toNat, 32, false, true)]).drained.mark act.tok
          let x : Armed := { slot := k, cnt := n, threshold := thr, act := act, scope := s.tile.core.cur.scope, urgent := s.urgent, mark := m,
                             own := s.tile.core.cur.own }
          .done ({ s with tile.task.armed := insertArmed x s.tile.task.armed }.evalSlots n))

/-- TRIG.CLR (R163, R313): the slot is freed, and its token's mark cleared. -/
def execTrigClr (d : Reg) (s : State) : Host.Outcome State Fault Refusal :=
  s.issue (.trigClr d) {} fun s =>
    match s.tile.task.armed.find? fun x => x.slot == d.setWidth 4 with
    | none => .done s
    | some x => .done { s with tile := (s.tile.clearMark x.mark).dropArmed x }

/-- Write a counter and evaluate the slots on it (R163, R314). -/
def State.setCounter (s : State) (n : BitVec 4) (c : Counter) : State :=
  let s := s.drained
  ({ s with tile.task.cnt := s.tile.task.cnt.set n.toNat c }).evalSlots n

/-- CNTSET (R161, R314). -/
def execCntset (d a b : Reg) (s : State) : Host.Outcome State Fault Refusal :=
  s.issue (.cntset d a b) { reads := [a, b] } fun s =>
    let y := s.sr b
    s.need (decide (y.toNat % 8 ≤ 4) && y.toNat / 128 % 512 == 0) (limitFault y b 2 0x6A)
      (.done (s.setCounter (d.setWidth 4) { count := s.sr a, mode := y.setWidth 3, cls := (y >>> 3).setWidth 4 }))

/-- CNTSET.V (R314): the count alone. -/
def execCntsetV (d a : Reg) (s : State) : Host.Outcome State Fault Refusal :=
  s.issue (.cntsetV d a) { reads := [a] } fun s =>
    let n : BitVec 4 := d.setWidth 4
    .done (s.setCounter n { s.tile.task.cnt[n.toNat] with count := s.sr a })

/-- The selector of a counter (R161). -/
def Counter.selector (c : Counter) : Word := BitVec.ofNat 32 (c.mode.toNat + 8 * c.cls.toNat)

/-- CNTRD (R314). -/
def execCntrd (d a : Reg) (s : State) : Host.Outcome State Fault Refusal :=
  s.issue (.cntrd d a) {} fun s =>
    let n : BitVec 4 := a.setWidth 4
    .done (s.setS d (s.tile.task.cnt[n.toNat]).selector)

/- Barriers. -/

/-- The barrier-misuse fault (R349 0x11). -/
def barFault (addr : Word) (reason index : Nat) : FaultRec := { code := 0x11, addr := addr, info := BitVec.ofNat 32 (reason + 4 * index) }

/-- The entries in use, with their indices. -/
def Tile.memberList (t : Tile) : List (Nat × Member) :=
  (List.range 4).filterMap fun i => (t.task.members[i % 4]'(Nat.mod_lt _ (by decide))).map (i, ·)

/-- Take the lowest free entry for a barrier (R315); `addr` is the c.faddr of its faults. -/
def State.join (s : State) (d : Reg) (b : BarId) (addr : Word) (k : Res → Res) : Res :=
  let used := s.tile.memberList
  match (List.range 4).find? fun i => used.all fun x => x.1 ≠ i with
  | none => .fault (barFault addr 0 0) s
  | some i =>
    match used.find? fun x => x.2.bar == b with
    | some x => .fault (barFault addr 1 x.1) s
    | none =>
      let m : Member := { bar := b, scope := s.tile.core.cur.scope }
      k (.done (({ s with tile.task.members := s.tile.task.members.set (i % 4) (some m) (Nat.mod_lt _ (by decide)) }).setS d (BitVec.ofNat 32 i)))

/-- BAR.JOIN (R315): a count barrier. -/
def execBarJoin (d a b : Reg) (s : State) : Host.Outcome State Fault Refusal :=
  let full := if s.tile.memberList.length = 4 && !s.tile.marked s.tile.core.level a then some (barFault (s.sr a) 0 0) else none
  s.issue (.barJoin d a b) { reads := [a, b], illegal := full } fun s =>
    let y := s.sr b
    s.join d (.count (s.sr a) y.toNat) (s.sr a) fun r => s.need (y.toNat % 8 == 0) (limitFault y b 2 0x6B) r

/-- BAR.LINE (R315): a barrier line, driven low from the current phase. -/
def execBarLine (d a : Reg) (s : State) : Host.Outcome State Fault Refusal :=
  s.issue (.barLine d a) {} fun s => s.join d (.line (a.setWidth 2)) (a.setWidth 32) id

/-- The entry that an index names, or the illegal use of R315; an index above 3 is outside its limit. -/
def State.member (s : State) (a : Reg) (k : Fin 4 → Member → Res) : Res :=
  let i := s.sr a
  if 4 ≤ i.toNat then .fault (limitFault i a 1 0x6B) s
  else
    let j : Fin 4 := ⟨i.toNat % 4, Nat.mod_lt _ (by decide)⟩
    match s.tile.task.members[j] with
    | none => .fault (barFault 0 2 i.toNat) s
    | some m => k j m

/-- Replace a membership entry. -/
def State.setMember (s : State) (j : Fin 4) (m : Option Member) : State := { s with tile.task.members := s.tile.task.members.set j.val m j.isLt }

/-- BAR.JOIN.X (R315): the entry of s(a)[1:0] is withdrawn (R38). -/
def execBarJoinX (a : Reg) (s : State) : Host.Outcome State Fault Refusal :=
  s.issue (.barJoinX a) { reads := [a] } fun s =>
    let j : Fin 4 := ⟨(s.sr a).toNat % 4, Nat.mod_lt _ (by decide)⟩
    match s.tile.task.members[j] with
    | none => .fault (barFault 0 2 j.val) s
    | some m => .done ((s.withdrawMember m).setMember j none)

/-- BAR.ARRIVE (R165 to R167, R315). -/
def execBarArrive (a : Reg) (s : State) : Host.Outcome State Fault Refusal :=
  s.issue (.barArrive a) { forbidden := true, reads := [a] } fun s =>
    s.member a fun j m =>
      match m.bar with
      | .line _ =>
        if !s.released 2 then .wait 6 0 s
        else .done (s.setMember j (some (if m.arrived then { m with pending := true } else { m with arrived := true, boost := none })))
      | .count home addr =>
        s.named home 0x6B fun s =>
          if m.arrived then .wait 15 0 s
          else if !s.released 2 then .wait 6 0 s
          else .done ((s.issueOp (s.hdr home s.tile.core.cur.scope) (.barArrive addr)).setMember j
            (some { m with arrived := true, g := none, release := none, boost := none, cause := none, freed := none }))

/-- The boost notices of R54: to every other member of the gang. -/
def State.boost (s : State) (m : Member) : State :=
  match s.myGang with
  | none => s
  | some (c, g) =>
    let cls := s.tile.core.cur.prio
    let body : Body := match m.bar with
      | .count home addr => .boostCount cls home addr
      | .line n => .boostLine cls n
    (s.members c g).foldl (fun s x =>
      let n := mkName 0 (g.x + x.1 % g.launch.w) (g.y + x.1 / g.launch.w)
      if n = s.tile.id.name then s else s.emit { hdr := s.hdr n s.tile.core.cur.scope, body := body }) s

/-- BAR.WAIT (R54, R165, R166, R315): the boost is sent when the wait begins. -/
def execBarWait (a : Reg) (s : State) : Host.Outcome State Fault Refusal :=
  s.issue (.barWait a) { forbidden := true, reads := [a] } fun s =>
    s.member a fun _ m =>
      if !m.arrived && !m.pending then .done s
      else
        let begun := match s.tile.core.wait with
          | some w => w.reason == 15
          | none => false
        .wait 15 0 (if begun || s.tile.core.cur.prio == 3 then s else s.boost m)

/- Scopes. -/

/-- The scope-misuse fault (R349 0x13, R354). -/
def scopeFault (x : Word) (reason : Nat) : FaultRec := { code := 0x13, addr := x, info := BitVec.ofNat 32 reason }

/-- SCOPE.OPEN (R32, R316). -/
def execScopeOpen (d : Reg) (s : State) : Host.Outcome State Fault Refusal :=
  s.issue (.scopeOpen d) { forbidden := true } fun s =>
    let x := s.tile.core.cur.scope
    match s.tile.task.scopes.find? (·.scope = x) with
    | none => .fault (scopeFault x 0) s
    | some e =>
      if scopeDepth x = 7 then .fault (scopeFault x 1) s
      else match lowestClear e.kids with
        | none => .fault (scopeFault x 2) s
        | some i =>
          if 8 ≤ s.tile.task.scopes.length then .fault (scopeFault x 3) s
          else
            let y := childScope x i
            let es := s.tile.task.scopes.map fun k => if k.scope = x then { k with kids := k.kids ||| BitVec.ofNat 16 (2 ^ i) } else k
            .done ({ s with tile.task.scopes := es ++ [({ scope := y, kids := 0 } : ScopeEntry)], tile.core.cur.scope := y }.setS d y)

/-- Free the index of a scope that its owner has closed (R32); after a retire notice, with every index of its descendants in the owner's table. -/
def State.freeScope (s : State) (x : Word) (retired : Bool := false) : State :=
  let p := parentScope x
  let bit := BitVec.ofNat 16 (2 ^ scopeIndex x)
  let es := (s.tile.task.scopes.filter fun e => !(if retired then isDescendant e.scope x else e.scope == x)).map fun e => if e.scope = p then { e with kids := e.kids &&& ~~~bit } else e
  let s := { s with tile.task.scopes := es }
  if p = 0 then s.updCarrel s.tile.id.carrel.toNat fun c => { c with kids := c.kids &&& ~~~bit } else s

/-- Put a control message about scope `x` in flight to a name of a carrel (R34, R39, R142): from the residency in focus, or with `src` 0xFFFF_FFFF from the carrel's
home steward. -/
def State.tell (s : State) (c : Nat) (src dst x : Word) (b : Body) : State :=
  s.emit { hdr := { dst := dst, src := src, scope := x, cls := 0, prio := 0, urgent := false, carrel := BitVec.ofNat 11 c }, body := b }

/-- A notice goes out over a carrel's multicast tree: a message to the residency of each tile of a list (log entry 98). -/
def State.tellAll (s : State) (c : Nat) (src x : Word) (b : Body) (ps : List Phys) : State :=
  ps.foldl (fun s q => s.tell c src (s.tileAt q).id.name x b) s

/-- The other wafers of a carrel that a request of this wafer's concerns, by the number that a name gives them here (R183). -/
def Carrel.othersFor (c : Carrel) (origin : Option Nat) : List Nat := if origin.isNone then (List.range (c.nw - 1)).map (· + 1) else []

/-- The retirement of a scope begins (R32, R332), unless one is in progress: the notice goes to every tile on which a residency of carrel `n` is bound, and to the
carrel's other wafers. `root` is the name at which the acknowledgements add up; what waits for them is the SCOPE.CLOSE at a tile, a gang's message, or another wafer. -/
def State.startRetireOf (s : State) (n : Nat) (x root : Word) (token : Option (Phys × Nat)) (note : Option (List Byte)) (origin : Option Nat) : State :=
  match s.carrel n with
  | none => s
  | some c =>
    if token.isSome && c.retires.any (fun w => w.scope == x && w.token == token) then s
    else
      let w : Sweep := { scope := x, missing := s.bound n, token := token, note := note, origin := origin, root := root, abroad := c.othersFor origin }
      let s := s.updCarrel n fun k => { k with retires := k.retires ++ [w] }
      let s := if origin.isNone then s.toOthers c (mkName 0 0 0) x (.retireNotice x) else s
      s.tellAll n (if token.isSome then root else 0xFFFFFFFF) x (.retireNotice x) w.missing
def State.startRetire (s : State) (x root : Word) (token : Option (Phys × Nat)) (note : Option (List Byte)) : State :=
  s.startRetireOf s.tile.id.carrel.toNat x root token note none

/-- SCOPE.CLOSE (R32, R316): c.scope goes to the parent; a scope that the cancel list counts waits for the retire acknowledgements. -/
def execScopeClose (s : State) : Host.Outcome State Fault Refusal :=
  s.issue .scopeClose { forbidden := true } fun s =>
    let x := s.tile.core.cur.scope
    if scopeDepth x = 0 ∨ !s.tile.task.scopes.any (·.scope = x) then
      match s.tile.task.retiring with
      | some (y, true) => if y = x then .done { s with tile := { s.tile with core.cur.scope := parentScope x, task.retiring := none } }
                          else .fault (scopeFault x 4) s
      | _ => .fault (scopeFault x 4) s
    else if s.tile.task.retiring = some (x, false) then .wait 15 0 s
    else if s.tile.task.cancels.any fun y => isDescendant y x then
      .wait 15 0 { s.startRetire x s.tile.id.name (some (s.tile.phys, 0)) none with tile.task.retiring := some (x, false) }
    else .done { s.freeScope x with tile.core.cur.scope := parentScope x }

/-- A mark that no kill clears (R36 lists none for the token of a CANCEL, a COMB.CFG.ROOT or a steward's operation). -/
def State.markPlain (s : State) (d : Reg) (pair : Bool := false) : State × Option Nat :=
  let (t, m) := s.mark d pair
  ({ t with tile.net.marks := t.tile.net.marks.map fun k => if some k.id = m then { k with plain := true } else k }, m)

/-- A carrel's listed scopes that are unrelated to a scope (R34). -/
def Carrel.unrelated (c : Carrel) (x : Word) : Nat := (c.listed.filter fun y => !isDescendant x y && !isDescendant y x).length

/-- A sweep that every tile and every other wafer has acknowledged: the token is written with the total, a cancel of the host is answered by notice
0x83, the wafer that asked is answered, and the report to the home steward is due (R39, R184). -/
def State.endSweep (s : State) (c : Carrel) (w : Sweep) : State :=
  let s := match w.token with
    | some (p, id) => s.tokenAt p (some id) w.total
    | none => s
  let s := match w.origin with
    | some k => s.emit { hdr := { dst := mkName k 0 0, src := mkName 0 0 0, scope := w.scope, cls := 0, prio := 0, urgent := false,
                                  carrel := BitVec.ofNat 11 c.num }, body := .cancelAck w.scope w.total }
    | none => s
  if w.host then s.notify c.num (plainNotice 0x83 0 c.num w.total (s.fieldAt c.home).ns) else s

/-- What a sweep is after one more acknowledgement: listed as it stands, or, with the last, ended and reported. -/
def State.stepSweep (s : State) (c : Carrel) (w v : Sweep) : State :=
  let last := v.missing.isEmpty && v.abroad.isEmpty && v.coming == 0
  let v := { v with reported := last }
  let s := s.updCarrel c.num fun k => { k with sweeps := k.sweeps.map fun z => if z = w then v else z }
  if last then s.endSweep c v else s

/-- The notice of a cancel goes out to every tile on which a residency of the carrel is bound (R34), and to the carrel's other wafers (R184): from the residency that
issues it, to which the acknowledgements add up, or from the home steward, with the carrel's logical origin as the root (log entry 98). With no residency bound
anywhere there is nothing to wait for (R39). -/
def State.startSweep (s : State) (c : Nat) (x : Word) (tok : Option (Phys × Nat)) (host : Bool) (origin : Option Nat := none) : State :=
  match s.carrel c with
  | none => s
  | some k =>
    let me : Word := if tok.isSome then s.tile.id.name else 0xFFFFFFFF
    let w : Sweep := { scope := x, missing := s.bound c, token := tok, host := host, abroad := k.othersFor origin, origin := origin,
                       root := if tok.isSome then s.tile.id.name else 0 }
    let s := s.updCarrel c fun k => { k with listed := listScope k.listed x, sweeps := k.sweeps ++ [w] }
    let s := if origin.isNone then s.toOthers k (mkName 0 0 0) x (.cancelNotice x) else s
    let s := s.tellAll c me x (.cancelNotice x) w.missing
    if w.missing.isEmpty && w.abroad.isEmpty then s.stepSweep k w w else s

/-- CANCEL (R34, R316): waits while 8 unrelated scopes are listed; the token is written by R39. -/
def execCancel (d a : Reg) (s : State) : Host.Outcome State Fault Refusal :=
  s.issue (.cancel d a) { reads := [a] } fun s =>
    let x := s.sr a
    if scopeDepth x = 0 then .fault (scopeFault x 5) s
    else if !scopeWellFormed x then .fault (scopeFault x 6) s
    else if ((s.myCarrel).map fun c => decide (8 ≤ c.unrelated x)).getD false then .wait 7 0 s
    else
      let (s, m) := s.markPlain d
      .done (s.startSweep s.tile.id.carrel.toNat x (m.map (s.tile.phys, ·)) false)

/- Combining entries. -/

/-- A position in the part of a carrel on its wafer number k, by the relative number w (R184); none outside that part. -/
def Carrel.inPart (c : Carrel) (w k x y : Nat) : Option Word :=
  let z := c.sizes.getD k (0, 0)
  if x < z.1 ∧ y < z.2 then some (mkName w x y) else none

/-- The residency in a logical direction (R184, R317): the neighbour by name, or the tile of another carrel wafer past an edge. -/
def Carrel.neighbour (c : Carrel) (name : Word) (d : Dir) : Option Word :=
  let x := nameX name
  let y := nameY name
  let up := c.k + 1 < c.nw
  let dn := 0 < c.k
  match d with
  | .lcl => some name
  | .west => if 0 < x then some (mkName 0 (x - 1) y) else if dn then c.inPart (c.nw - 1) (c.k - 1) ((c.sizes.getD (c.k - 1) (0, 0)).1 - 1) y else none
  | .north => if y + 1 < c.h then some (mkName 0 x (y + 1)) else if up then c.inPart 1 (c.k + 1) x 0 else none
  | .east => if x + 1 < c.w then some (mkName 0 (x + 1) y) else if up then c.inPart 1 (c.k + 1) 0 y else none
  | .south => if 0 < y then some (mkName 0 x (y - 1)) else if dn then c.inPart (c.nw - 1) (c.k - 1) x ((c.sizes.getD (c.k - 1) (0, 0)).2 - 1) else none

/-- The directions in the fold order of R151, and the one of an `out` code (R150). -/
def dirs : List Dir := [.lcl, .west, .north, .east, .south]
def dirOf (n : Nat) : Dir := dirs.getD n .lcl

/-- The combining entry that a pair describes (R150), owned by the residency's carrel (R317). -/
def combOf (w : Word) (carrel : BitVec 11) : CombEntry :=
  { valid := w.getLsbD 22, route := w.setWidth 8, inputs := (w >>> 8).setWidth 5, out := (w >>> 13).setWidth 3,
    type := (w >>> 16).setWidth 3, rm := (w >>> 19).setWidth 2, sr := w.getLsbD 21, carrel := carrel }

/-- A valid entry's out and inputs name tiles of the carrel (R184, R317). -/
def State.combPlaced (s : State) (e : CombEntry) : Bool :=
  let ok (d : Dir) : Bool := ((s.myCarrel).bind fun c => c.neighbour s.tile.id.name d).isSome
  (e.out == 0 || ok (dirOf e.out.toNat)) && (List.range 5).all fun i => i == 0 || !e.inputs.getLsbD i || ok (dirOf i)

/-- COMB.CFG (R317, R391). -/
def execCombCfg (a b : Reg) (s : State) : Host.Outcome State Fault Refusal :=
  s.issue (.combCfg a b) { reads := [a, b, b + 1] } fun s =>
    let i := s.sr a
    let w := s.sr b
    let e := combOf w s.tile.id.carrel
    if 16 ≤ i.toNat then .fault (limitFault i a 1 0x6D) s
    else if e.valid && (decide (5 ≤ e.out.toNat) || e.type == 7 || !s.combPlaced e) then .fault (limitFault w b 2 0x6D) s
    else
      let j : Fin 16 := ⟨i.toNat % 16, Nat.mod_lt _ (by decide)⟩
      let old := s.tile.comb[j]
      if old.valid && !old.bufs.isEmpty then .fault { code := 0x72, addr := i, info := old.route.setWidth 32 } s
      else .done { s with tile.comb := s.tile.comb.set j.val e j.isLt }

/-- COMB.CFG.ROOT (R156, R317): the index count, the completion record, the generator, the token. -/
def execCombCfgRoot (d a b : Reg) (s : State) : Host.Outcome State Fault Refusal :=
  s.issue (.combCfgRoot d a b) { reads := [a, b, b + 1] } fun s =>
    let i := s.sr a
    let n := s.sr b
    let rec_ := s.sr (b + 1)
    let j : Fin 16 := ⟨i.toNat % 16, Nat.mod_lt _ (by decide)⟩
    let e := s.tile.comb[j]
    if 16 ≤ i.toNat ∨ !e.valid ∨ e.out ≠ 0 then .fault (limitFault i a 1 0x6D) s
    else if n = 0 ∨ 2 ^ 24 ≤ n.toNat then .fault (limitFault n b 2 0x6D) s
    else if rec_.toNat % 16 ≠ 0 then .fault (limitFault rec_ (b + 1) 4 0x6D) s
    else
      let seed := s.tile.core.seed
      let (s, m) := s.markPlain d
      let s := if e.sr then { s with tile.core.seed := advance seed } else s
      let e := { e with rootCount := some n.toNat, record := rec_.toNat, mark := m, gen := if e.sr then seed else e.gen }
      .done { s with tile.comb := s.tile.comb.set j.val e j.isLt }

/- Folios. -/

/-- The record of a folio as FOLIO.LOAD keeps it (R159, R160). -/
def State.folioRec (s : State) (a : Nat) : FolioRec :=
  let w := (s.wordAt a 0).toNat
  let v := (s.wordAt a 4).toNat
  let f := (s.wordAt a 24).toNat
  { kind := w % 16, far := f / 2 ^ 16 % 2 == 1, farw := f / 2 ^ 17 % 2 == 1, deps := w / 256 % 256,
    succ := (List.range 3).filterMap fun i => if v / 2 ^ (10 * i + 9) % 2 = 1 then some (v / 2 ^ (10 * i) % 512) else none }

/-- The fault that a record raises at FOLIO.LOAD (R160, R349 0x15): its reason. -/
def folioReason (n : Nat) (r : FolioRec) (len : Nat) : Option Nat :=
  if 5 ≤ r.kind then some 0
  else if r.succ.any fun x => decide (n ≤ x) then some 1
  else if len % 16 ≠ 0 then some 2
  else if r.kind = 3 ∧ r.far ∧ r.farw then some 5
  else none

/-- FOLIO.LOAD (R160, R319): waits for the replay; a check that fails keeps no folio. -/
def execFolioLoad (a : Reg) (s : State) : Host.Outcome State Fault Refusal :=
  s.issue (.folioLoad a) { forbidden := true, reads := [a] } fun s =>
    let p := s.sr a
    let bad (reason j : Nat) (s : State) : Res :=
      .fault { code := 0x15, addr := p, info := BitVec.ofNat 32 (reason + 256 * j) } { s with tile.strm.folio := none }
    s.need (p.toNat % 16 == 0) (limitFault p a 1 0x6E)
      (if s.tile.strm.replay.isSome then .wait 15 0 s
       else s.checked [(p.toNat, 16, false, true)] fun s =>
        let n := (s.wordAt p.toNat 0).toNat % 512
        if n = 0 ∨ 256 < n then bad 4 0 s
        else s.checked [(p.toNat + 16, 32 * n, false, true)] fun s =>
          let rs := (List.range n).map fun j => (s.folioRec (p.toNat + 16 + 32 * j), (s.wordAt (p.toNat + 16 + 32 * j) 16).toNat)
          match (List.range n).findSome? fun j => (folioReason n (rs.getD j ({ kind := 0, far := false, farw := false, deps := 0, succ := [] }, 0)).1
              (rs.getD j ({ kind := 0, far := false, farw := false, deps := 0, succ := [] }, 0)).2).map (·, j) with
          | some (r, j) => bad r j s
          | none =>
            let s := s.noteAll [(p.toNat, 16, false, true), (p.toNat + 16, 32 * n, false, true)]
            .done { s with tile := { s.tile with strm.folio := some (p.toNat, rs.map (·.1)), strm.ftags := [] } })

/-- FOLIO.RUN with no folio loaded (R160, R354). -/
def noFolio : FaultRec := { code := 0x15, info := 3 }

/-- FOLIO.RUN (R160, R319, R320, R357): waits for the running replay and for a copy slot. -/
def execFolioRun (d a : Reg) (s : State) : Host.Outcome State Fault Refusal :=
  let illegal := if s.tile.strm.folio.isNone then some noFolio else none
  s.issue (.folioRun d a) { reads := [a, a + 1, a + 2, a + 3], illegal := illegal } fun s =>
    match s.tile.strm.folio with
    | none => .fault noFolio s
    | some (_, rs) =>
      if s.tile.strm.replay.isSome then .wait 8 0 s
      else if s.tile.copySlot.isNone then .wait 5 0 s
      else
        let bases : Vector Word 4 := #v[s.sr a, s.sr (a + 1), s.sr (a + 2), s.sr (a + 3)]
        let (s, m) := s.drained.mark d
        let r : Replay := { bases := bases, counts := rs.map (·.deps), urgent := s.urgent, mark := m, scope := s.tile.core.cur.scope,
                            own := s.tile.core.cur.own }
        .done { s with tile.strm.replay := some r }

end Sys2Proof.Machine
end

