-- ==== Sys2Proof/Machine/Cancel.lean ====
section
/-!
DEFINITION. Cancel notices and their acknowledgement (R34 to R40), and the retirement of cancelled scopes (R32, R332).
-/

namespace Sys2Proof.Machine

/-- Apply a cancel notice (R34 to R36, R38, R339): the list, the covered entries and memberships, and what belongs to no covered work that still
runs or waits; what such a work made is acted on when that work is killed or ends. The kill counter of covered work starts; covered work that is Faulted, or that waits, is killed. -/
def State.applyNotice (s : State) (x : Word) : State :=
  let l := listScope s.tile.task.cancels x
  let f := covered l
  let c := s.tile.core
  let sc := c.normalCtx.scope
  let hit := c.busy && f sc
  let s := { s with tile.task.cancels := l, tile.task.drops := s.tile.task.drops ++ [(x, 0)] }
  let s := { s with tile := s.tile.dropEntries f }.sweepCovered
  let s := s.withdrawAll f true
  if !hit then s
  else if s.tile.stop.faulted = some .normal then
    if s.urgent then { s with tile.stop.reply := some 2 }
    else { s with tile.stop.faulted := none, tile.stop.reply := none }.killCovered
  else if !s.urgent && c.phase == .waiting then s.killCovered
  else { s with tile.core := s.tile.core.updNormal fun k => { k with kill := some (k.kill.getD 0) } }

/-- CANCEL_NOTICE (R34, R40): the notice has reached the tile in focus; a Migrating residency's is held. A tile that has acknowledged the scope already, with a
retirement of it, takes no notice of it (R332). -/
def execCancelNotice (s : State) : Host.Outcome State Fault Refusal :=
  s.become fun s =>
    match s.arriving with
    | none => s
    | some p =>
      match p.body with
      | .cancelNotice x =>
        let due := ((s.carrel p.hdr.carrel.toNat).map fun c => c.sweeps.any fun w => w.scope == x && w.missing.contains s.tile.phys).getD false
        if s.tile.stop.archived then s
        else
          let s := s.unsend p
          if !due || s.tile.task.drops.any (·.1 = x) || s.tile.net.heldCancels.contains x then s
          else if s.tile.moving then { s with tile.net.heldCancels := s.tile.net.heldCancels ++ [x] }
          else if s.tile.core.phase = .unbound then { s with tile.task.drops := s.tile.task.drops ++ [(x, 0)] }
          else s.applyNotice x
      | _ => s

/-- No running, waiting, ready or dispatching work of a scope is left (R39), an urgent handler that has begun among it. -/
def Tile.rid (t : Tile) (x : Word) : Bool :=
  !(t.core.busy && isDescendant t.core.normalCtx.scope x) && !(t.core.level == .urgent && isDescendant t.core.cur.scope x) && t.task.rings.all (fun e => !isDescendant e.scope x)
    && t.task.overflow.all fun e => !isDescendant e.scope x

/-- A sweep once a tile has sent its acknowledgement, and once one that carries a count has come (R39). -/
def Sweep.sent (w : Sweep) (p : Phys) : Sweep := { w with missing := w.missing.erase p, coming := w.coming + 1 }
def Sweep.came (w : Sweep) (n : Word) : Sweep := { w with coming := w.coming - 1, total := w.total + n }

/-- The tile in focus sends its acknowledgement of a sweep, with the number that it has killed or dropped, up the carrel's reduction tree (R39). -/
def State.ackSweep (s : State) (c : Carrel) (w : Sweep) (n : Nat) : State :=
  (s.updCarrel c.num fun k => { k with sweeps := k.sweeps.map fun z => if z = w then w.sent s.tile.phys else z }).tell c.num s.tile.id.name w.root w.scope
    (.cancelAck w.scope (BitVec.ofNat 32 n))

/-- CANCEL_ACK (R39): given a message, an acknowledgement has come to the root, and is added; with the last the token is written with the total, a cancel of the
host is answered by notice 0x83, in a control slot (R146), and the report to the home steward is due. With none, the tile in focus is rid of scope `word`, and
acknowledges. -/
def execCancelAck (s : State) : Host.Outcome State Fault Refusal :=
  s.become fun s =>
    match s.inp.pkt with
    | some _ =>
      (match s.arriving with
       | none => s
       | some p => match p.body, s.carrel p.hdr.carrel.toNat with
         | .cancelAck x n, some c =>
           (match c.sweeps.find? fun w => w.scope == x && w.root == p.hdr.dst && decide (0 < w.coming) with
            | none => s.unsend p
            | some w => if w.host && (s.fieldAt c.home).slot % 16 != 8 then s else (s.unsend p).stepSweep c w (w.came n))
         | _, _ => s)
    | none =>
      let x := s.inp.word
      match s.tile.task.drops.find? (·.1 = x), s.myCarrel with
      | some (_, n), some c =>
        (match c.sweeps.find? fun w => w.scope == x && w.missing.contains s.tile.phys with
         | none => s
         | some w =>
           if !s.tile.rid x then s
           else { s with tile.task.drops := s.tile.task.drops.filter (·.1 ≠ x) }.ackSweep c w n)
      | _, _ => s

/-- CANCEL_DONE_REPORT (R39, R22, R56): the home steward of carrel `n`, in the carrel's steward-service slot, retires as cancelled every gang under the oldest
reported scope. -/
def execCancelDoneReport (s : State) : Host.Outcome State Fault Refusal :=
  s.become fun s => if !(s.carrel s.inp.n).any s.inService then s else s.updCarrel s.inp.n fun c =>
    match c.sweeps.find? (·.reported) with
    | none => c
    | some w =>
      { c with sweeps := c.sweeps.erase w,
               gangs := c.gangs.map fun g =>
                 if isDescendant g.scope w.scope && (g.state == .running || g.state == .loading) then { g with state := .ended 1 } else g }

/-- The sweeps of a scope's descendants that still wait for the tile in focus get its acknowledgement: what it has killed under them is added. -/
def State.absorbSweeps (s : State) (x : Word) : State :=
  match s.myCarrel with
  | none => s
  | some c =>
    let s := (c.sweeps.filter fun w => isDescendant w.scope x && w.missing.contains s.tile.phys).foldl
      (fun s w => s.ackSweep c w (((s.tile.task.drops.find? (·.1 = w.scope)).map (·.2)).getD 0)) s
    { s with tile.task.drops := s.tile.task.drops.filter fun d => !isDescendant d.1 x }

/-- RETIRE_NOTICE (R32): the notice has reached the tile in focus, which removes the cancel-list entries of its scope and of the scope's descendants, and
acknowledges. A cancel of such a scope that has not reached the tile yet is no longer applied there: its tile acknowledges it with nothing killed (R332; log entry 64). -/
def execRetireNotice (s : State) : Host.Outcome State Fault Refusal :=
  s.become fun s =>
    match s.arriving with
    | none => s
    | some p =>
      match p.body with
      | .retireNotice x =>
        if s.tile.moving || s.tile.stop.archived then s
        else
          let s := s.unsend p
          match (s.carrel p.hdr.carrel.toNat).bind fun c => c.retires.find? fun w => w.scope == x && w.missing.contains s.tile.phys with
          | none => s
          | some w =>
            let s := { s with tile.task.cancels := s.tile.task.cancels.filter fun y => !isDescendant y x,
                              tile.net.heldCancels := s.tile.net.heldCancels.filter fun y => !isDescendant y x }
            let n := p.hdr.carrel.toNat
            let s := s.updCarrel n fun k => { k with retires := k.retires.map fun z => if z = w then w.sent s.tile.phys else z }
            (s.tell n s.tile.id.name w.root x (.retireAck x)).absorbSweeps x
      | _ => s

/-- RETIRE_ACK_COMPLETE (R32, R332): given a message, an acknowledgement has come to the root. With none, every tile and every other wafer has acknowledged the
retirement of scope `word` in carrel `n`: its entries leave the carrel's list, and its owner's index is free, or for a launch scope, in the carrel's steward-service slot, the root's, with the gang's
completion message written, whose end time is that of this step (the model's choice, log entry 100); a wafer that was asked answers. -/
def execRetireAckComplete (s : State) : Host.Outcome State Fault Refusal :=
  s.become fun s =>
    match s.inp.pkt with
    | some _ =>
      (match s.arriving with
       | none => s
       | some p => match p.body with
         | .retireAck x =>
           (s.unsend p).updCarrel p.hdr.carrel.toNat fun k =>
             { k with retires := match k.retires.find? fun w => w.scope == x && w.root == p.hdr.dst && decide (0 < w.coming) with
               | none => k.retires
               | some w => k.retires.map fun z => if z = w then w.came 0 else z }
         | _ => s)
    | none =>
    let x := s.inp.word
    match (s.carrel s.inp.n).bind fun c => c.retires.find? fun w => w.scope == x && w.missing.isEmpty && w.abroad.isEmpty && w.coming == 0 with
    | none => s
    | some w =>
      let s0 := s
      let s := s.updCarrel s.inp.n fun k => { k with retires := k.retires.erase w, listed := k.listed.filter fun y => !isDescendant y x }
      match w.token with
      | some (p, _) => s.at p fun s =>
          let s := s.freeScope x true
          if s.tile.task.retiring = some (x, false) then { s with tile.task.retiring := some (x, true) } else s
      | none =>
        match w.origin with
        | some k => s.tell s.inp.n (mkName 0 0 0) (mkName k 0 0) x (.retireAck x)
        | none =>
          if !(s.carrel s.inp.n).any s.inService then s0
          else
          let s := s.updCarrel s.inp.n fun k => { k with kids := k.kids &&& ~~~(BitVec.ofNat 16 (2 ^ scopeIndex x)) }
          match w.note, s.carrel s.inp.n with
          | some b, some c => s.notify c.num (b ++ natBytes 8 (s.fieldAt c.home).ns)
          | _, _ => s

end Sys2Proof.Machine
end

