-- ==== Sys2Proof/Machine/Message.lean ====
section
/-!
DEFINITION. Messages and the receive queue (R280, R304 to R306), remote stores and atomics (R307, R308), tasks and code (R309 to R312).
-/

namespace Sys2Proof.Machine

/- Rectangles and sends. -/

/-- The operand-limit check of a rectangle (R305): [31:20] of the extent are 0 and it lies inside the carrel on the origin's wafer. -/
def State.rectLimit (s : State) (a : Reg) (major : Nat) : Option FaultRec :=
  let o := s.sr a
  let e := s.sr (a + 1)
  let w := e.toNat % 1024 + 1
  let h := e.toNat / 1024 % 1024 + 1
  let out : Bool := match s.myCarrel with
    | none => decide (o ≠ s.tile.id.name) || decide (1 < w * h)
    | some c => decide ((c.extent o).1 < nameX o + w) || decide ((c.extent o).2 < nameY o + h)
  if 2 ^ 20 ≤ e.toNat ∨ out then some (limitFault e (a + 1) 4 major) else none

/-- The names of the rectangle that a pair holds (R305). -/
def State.rectOf (s : State) (a : Reg) : List Word :=
  let e := (s.sr (a + 1)).toNat
  rectNames (s.sr a) (e % 1024 + 1) (e / 1024 % 1024 + 1)

/-- The checks of a SEND's pair b (R305): the payload's address and the control word. -/
def State.sendLimit (s : State) (b : Reg) (major : Nat) : Option FaultRec :=
  let y := s.sr b
  let cw := s.sr (b + 1)
  let len := cw.toNat % 1024
  if y.toNat % 16 ≠ 0 then some (limitFault y b 2 major)
  else if 2 ^ 13 ≤ cw.toNat ∨ 960 < len ∨ (cw.getLsbD 12 ∧ 64 < len) then some (limitFault cw (b + 1) 4 major)
  else none

/-- A name outside the carrel faults before any other fault of its instruction's addresses (R353, R374). -/
def State.insideAll (s : State) (major : Nat) (ns : List Word) (k : Res) : Res :=
  match ns.find? fun n => !s.nameInside n with
  | some n => .fault { code := 0x50, addr := n, info := BitVec.ofNat 32 major } s
  | none => k

/-- The rows of a payload that a send reads as a core load (R305). -/
def payloadRows (a len : Nat) : List (Nat × Nat × Bool × Bool) := if len = 0 then [] else [(a, 16 * ((len + 15) / 16), false, true)]

/-- Send a message to each name of a list (R305): the payload is copied out of the view at issue. -/
def State.sendAll (s : State) (d b : Reg) (c : BitVec 4) (ns : List Word) : State :=
  let cw := s.sr (b + 1)
  let payload := s.tile.view.coreMem.bytes (s.sr b).toNat (cw.toNat % 1024)
  let tag := s.sr d
  ns.foldl (fun s n => s.issueOp (s.hdr n s.tile.core.cur.scope c ((cw >>> 10).setWidth 2) (cw.getLsbD 12)) (.send tag payload)) s

/-- The common part of SEND and SENDM after the operand limits (R305, R123). -/
def State.sendBody (s : State) (d b : Reg) (c : BitVec 4) (rel : BitVec 1) (sc : BitVec 2) (major : Nat) (ns : List Word) : Res :=
  s.insideAll major ns
    (let l := payloadRows (s.sr b).toNat ((s.sr (b + 1)).toNat % 1024)
     s.checked l fun s => s.namedAll major (fun s => s.release rel sc fun s => .done ((s.noteAll l).sendAll d b c ns)) [] ns)

/-- SEND (R305). -/
def execSend (d a b : Reg) (c : BitVec 4) (x : BitVec 2) (r : BitVec 1) (s : State) : Host.Outcome State Fault Refusal :=
  s.issue (.send d a b c x r) { reads := [d, a, b, b + 1] } fun s =>
    match s.sendLimit b 0x60 with
    | some f => .fault f s
    | none => s.sendBody d b c r x 0x60 [s.sr a]

/-- SENDM (R305): one copy to each residency of a rectangle, in row-major order. -/
def execSendm (d a b : Reg) (c : BitVec 4) (x : BitVec 2) (r : BitVec 1) (s : State) : Host.Outcome State Fault Refusal :=
  s.issue (.sendm d a b c x r) { reads := [d, a, b, a + 1, b + 1] } fun s =>
    if (s.sr b).toNat % 16 ≠ 0 then .fault (limitFault (s.sr b) b 2 0x61) s
    else match s.rectLimit a 0x61, s.sendLimit b 0x61 with
      | some f, _ => .fault f s
      | none, some f => .fault f s
      | none, none => s.sendBody d b c r x 0x61 (s.rectOf a)

/- The receive queue. -/

/-- A message's activation is in a ready ring (R304). -/
def Tile.ringed (t : Tile) (m : Msg) : Bool := t.task.rings.any fun e => e.work == Work.msg m.id

/-- Take a message's activation out of its ring and put the cursor at it; the message the cursor leaves is freed (R304). -/
def Tile.moveCursor (t : Tile) (m : Msg) : Tile :=
  let old := t.core.cur.cursor.cur
  ({ t with task.rings := t.task.rings.filter (fun e => e.work ≠ Work.msg m.id),
            task.queue := t.task.queue.filter (fun q => some q.id ≠ old),
            core.cur.cursor := { cls := m.cls, cur := some m.id, off := 0 } }).refill

/-- The oldest ringed message of a class that satisfies a test (R304, R306). -/
def Tile.oldestOf (t : Tile) (c : BitVec 4) (f : Msg → Bool) : Option Msg :=
  t.task.queue.find? fun m => m.cls == c && f m && t.ringed m

/-- The 16 bytes of a payload at an offset, padded with zeros. -/
def element (p : List Byte) (off : Nat) : VWord := BitVec.ofNat 128 (leNat ((p.drop off).take 16))

/-- The pop of R304; none where it must wait. The fuel bounds the messages passed. -/
def Tile.pop (t : Tile) : Nat → Option (VWord × Tile)
  | 0 => none
  | fuel + 1 =>
    let c := t.core.cur.cursor
    let here : Option Msg := c.cur.bind fun i => t.task.queue.find? (·.id = i)
    match here.filter fun m => decide (c.off < m.payload.length) with
    | some m =>
      some (element m.payload c.off,
        { t with core.cur.cursor := { c with off := c.off + 16 },
                 task.queue := t.task.queue.map fun q => if q.id = m.id then { q with freed := q.freed + 1 } else q })
    | none =>
      match t.oldestOf c.cls fun m => match c.cur with
          | none => true
          | some i => decide (i < m.id) with
      | none => none
      | some m => (t.moveCursor m).pop fuel

/-- A pop while the cursor holds no message and class 0 is set (R306, R354). -/
def Tile.noCursor (t : Tile) : Bool := t.core.cur.cursor.cur.isNone && t.core.cur.cursor.cls == 0

/-- The illegal use of such a pop (R354). -/
def noMessage : FaultRec := { code := 0x0F }
def State.popUse (s : State) : Option FaultRec := if s.tile.noCursor then some noMessage else none

/-- The granule that the last pop has read: of the cursor's message, the one before its offset. -/
def Tile.poppedGranule (t : Tile) : Option Nat :=
  (t.core.cur.cursor.cur.bind fun i => t.task.queue.find? (·.id = i)).bind fun m => m.grans[t.core.cur.cursor.off / 16 - 1]?

/-- The physical word of the receive queue that fails its check bits in a granule (R74, R337): each granule is two words from 0x1_7000. -/
def View.badGranule (v : View) (g : Nat) : Option Nat := [0x2E00 + 2 * g, 0x2E01 + 2 * g].find? fun w => v.bad.contains w

/-- Pop an element, or fault without a cursor, or wait for a message (R306, R357 reason 4); a granule that holds an uncorrectable word is the hard
fault of the hardware area, and nothing is popped (R337, R346). -/
def State.popElem (s : State) (k : VWord → State → Res) : Res :=
  match s.tile.pop (s.tile.task.queue.length + 1) with
  | none => .wait 4 0 s
  | some (x, t) =>
    match t.poppedGranule.bind t.view.badGranule with
    | some w => .fault { code := 0x80, hard := true, info := BitVec.ofNat 32 w } s
    | none => k x { s with tile := t }

/-- RECV (R306). -/
def execRecv (d : Reg) (s : State) : Host.Outcome State Fault Refusal :=
  s.issue (.recv d) {} fun s =>
    s.writable d (if s.tile.noCursor then .fault noMessage s else s.popElem fun x s => .done (s.setV d x))

/-- RECV.M (R306): one element a step; between elements the registers name what is left. -/
def execRecvM (a b : Reg) (s : State) : Host.Outcome State Fault Refusal :=
  s.issue (.recvM a b) { reads := [a, b], illegal := if !s.tile.marked s.tile.core.level b && s.sr b != 0 then s.popUse else none } fun s =>
    let p := s.sr a
    let n := s.sr b
    if n ≠ 0 ∧ s.tile.noCursor then .fault noMessage s
    else if p.toNat % 16 ≠ 0 then .fault (alignFault p 16) s
    else if n.toNat % 16 ≠ 0 ∨ 98304 < n.toNat then .fault (limitFault n b 2 0x64) s
    else if n = 0 then .done s
    else s.checked [(p.toNat, 16, true, false)] fun s => s.popElem fun x s =>
      let s := (((s.noteAll [(p.toNat, 16, true, false)]).storeN p.toNat 16 x.toNat).setS a (p + 16)).setS b (n - 16)
      if n = 16 then .done s else .stay s.goOn

/-- RECV.SEL (R306). -/
def execRecvSel (d a : Reg) (s : State) : Host.Outcome State Fault Refusal :=
  s.issue (.recvSel d a) { forbidden := true, reads := [a] } fun s =>
    match s.tile.oldestOf ((s.sr a).setWidth 4) fun _ => true with
    | none => .wait 4 0 s
    | some m => .done ({ s with tile := s.tile.moveCursor m }.setS d m.tag)

/-- One element of RQACC (R280): four lanes, with the flags of F32. -/
def rqaccAdd (k r : BitVec 2) (x e : VWord) : VWord × Flags :=
  let lane (v : VWord) (j : Nat) : Nat := v.toNat / 2 ^ (32 * j) % 2 ^ 32
  let one (j : Nat) : Nat × Flags := match k.toNat with
    | 0 => Fmt.fp32.add (Mode.ofRm r) (lane x j) (lane e j)
    | 1 => ((lane x j + lane e j) % 2 ^ 32, 0)
    | _ => ((wrap32 (clampInt ((BitVec.ofNat 32 (lane x j)).toInt + (BitVec.ofNat 32 (lane e j)).toInt) (-2 ^ 31) (2 ^ 31 - 1))).toNat, 0)
  ((BitVec.ofNat 32 (one 3).1 ++ BitVec.ofNat 32 (one 2).1 ++ BitVec.ofNat 32 (one 1).1 ++ BitVec.ofNat 32 (one 0).1),
   (one 0).2 ||| (one 1).2 ||| (one 2).2 ||| (one 3).2)

/-- RQACC (R280): one element a step; between elements v(d) holds the sum and s(a) what is left. -/
def execRqacc (d a : Reg) (k r : BitVec 2) (s : State) : Host.Outcome State Fault Refusal :=
  s.issue (.rqacc d a k r) { forbidden := true, reads := [a] } fun s =>
    let n := s.sr a
    if n = 0 then .done s
    else s.writable d (if s.tile.noCursor then .fault noMessage s
      else s.popElem fun e s =>
        let (x, fl) := rqaccAdd k r (s.vr d) e
        let s := ((s.setV d x).setS a (n - 1)).orFlags fl
        if n = 1 then .done s else .stay s.goOn)

/- Remote stores and atomics. -/

/-- RST in its three sizes (R307); `v` gives the data once every check and wait has passed. -/
def State.rst (s : State) (i : Instr) (reads : List Reg) (a b : Reg) (rel : BitVec 1) (sc : BitVec 2) (n : Nat)
    (v : State → (Nat → State → Res) → Res) : Host.Outcome State Fault Refusal :=
  s.issue i { reads := reads ++ [a, b] } fun s =>
    let y := s.sr b
    let p := y.toNat % 2 ^ 17
    if y.toNat / 2 ^ 17 % 1024 ≠ 0 ∨ p % n ≠ 0 then .fault (limitFault y b 2 0x62) s
    else s.named (s.sr a) 0x62 fun s => s.release rel sc fun s => v s fun x s =>
      .done (s.issueOp (s.hdr (s.sr a) s.tile.core.cur.scope)
        (.rst p (natBytes n x) (if y.getLsbD 31 then some ((y >>> 27).setWidth 4) else none)))

/-- RST of 4 bytes (R307). -/
def execRst (d a b : Reg) (x : BitVec 2) (r : BitVec 1) (s : State) : Host.Outcome State Fault Refusal :=
  s.rst (.rst d a b x r) [d] a b r x 4 fun s k => k (s.sr d).toNat s

/-- RST.DW (R307): the pair d. -/
def execRstDw (d a b : Reg) (x : BitVec 2) (r : BitVec 1) (s : State) : Host.Outcome State Fault Refusal :=
  s.rst (.rstDw d a b x r) [d, d + 1] a b r x 8 fun s k => k (s.pair d).toNat s

/-- RST.V (R307): v(d), popped when it is a stream. -/
def execRstV (d a b : Reg) (x : BitVec 2) (r : BitVec 1) (s : State) : Host.Outcome State Fault Refusal :=
  s.rst (.rstV d a b x r) [] a b r x 16 fun s k => s.readVs [d] fun xs s => k (xs.getD 0 0).toNat s

/-- RATOM (R308): d is marked, and the reply writes it. -/
def State.ratom (s : State) (i : Instr) (d a b : Reg) (rel : BitVec 1) (sc : BitVec 2) (o : BitVec 4) (wide : Bool) :
    Host.Outcome State Fault Refusal :=
  let ops := if wide then [b + 2, b + 3] else [b + 1]
  let cas := if o = 9 then (if wide then [d, d + 1] else [d]) else []
  s.issue i { reads := [a, b] ++ ops ++ cas } fun s =>
    let y := s.sr b
    if y.toNat % (if wide then 8 else 4) ≠ 0 then .fault (limitFault y b 2 0x63) s
    else s.named (s.sr a) 0x63 fun s => s.release rel sc fun s =>
      let name := s.sr a
      let x : DWord := if wide then s.pair (b + 2) else (s.sr (b + 1)).setWidth 64
      let cmp : DWord := if o = 9 then (if wide then s.pair d else (s.sr d).setWidth 64) else 0
      let id := s.tile.net.nextId
      let (s, _) := s.mark d wide
      .done (s.issueOp (s.hdr name s.tile.core.cur.scope) (.ratom y.toNat o.toNat wide d id x cmp))

/-- RATOM, 32-bit (R308). -/
def execRatom (d a b : Reg) (x : BitVec 2) (r : BitVec 1) (o : BitVec 4) (s : State) : Host.Outcome State Fault Refusal :=
  s.ratom (.ratom d a b x r o) d a b r x o false

/-- RATOM, 64-bit (R308). -/
def execRatomD (d a b : Reg) (x : BitVec 2) (r : BitVec 1) (o : BitVec 4) (s : State) : Host.Outcome State Fault Refusal :=
  s.ratom (.ratomD d a b x r o) d a b r x o true

/- Tasks and code. -/

/-- TNEW (R309): the record is written, and with count 0 the push check of R27 made; a push that finds no room writes nothing (R360). -/
def execTnew (d a b : Reg) (s : State) : Host.Outcome State Fault Refusal :=
  s.issue (.tnew d a b) { reads := [a, b, d, b + 1] } fun s =>
    let p := s.sr a
    let w := s.sr (b + 1)
    if p.toNat % 16 ≠ 0 then .fault (limitFault p a 1 0x65) s
    else if 2 ^ 15 ≤ w.toNat ∨ w.toNat % 8192 < 0x20 then .fault (limitFault w (b + 1) 4 0x65) s
    else s.checked [(p.toNat, 16, true, false)] fun s =>
      let sc := s.tile.core.cur.scope
      let bs := natBytes 4 (s.sr b).toNat ++ natBytes 4 w.toNat ++ natBytes 4 (s.sr d).toNat ++ natBytes 4 sc.toNat
      let noted := s.noteAll [(p.toNat, 16, true, false)]
      if s.sr b ≠ 0 then .done (noted.store p.toNat bs)
      else if !s.coveredBy sc && !s.tile.canPush (recPrio w) then .fault { overflowFault p (recPrio w) false true with agent := 0 } s
      else .done { noted with tile := (noted.drained.tile.store p.toNat bs).readyRecord p.toNat false }

/-- TDEC (R310). -/
def execTdec (d a b : Reg) (s : State) : Host.Outcome State Fault Refusal :=
  s.issue (.tdec d a b) { reads := [d, a, b] } fun s =>
    let y := s.sr b
    if y.toNat % 16 ≠ 0 then .fault (limitFault y b 2 0x66) s
    else s.named (s.sr a) 0x66 fun s => .done (s.issueOp (s.hdr (s.sr a) s.tile.core.cur.scope) (.tdec y.toNat (s.sr d)))

/-- SPAWN (R311). -/
def execSpawn (d a b : Reg) (s : State) : Host.Outcome State Fault Refusal :=
  s.issue (.spawn d a b) { reads := [d, d + 1, a, b] } fun s =>
    let y := s.sr b
    if y.toNat % 16 ≠ 0 then .fault (limitFault y b 2 0x67) s
    else s.named (s.sr a) 0x67 fun s =>
      .done (s.issueOp (s.hdr (s.sr a) s.tile.core.cur.scope) (.spawn y.toNat (entryWord (s.sr d)) (s.sr (d + 1))))

/-- A physical operand that names a tile of the steward's field (R251). -/
def State.physOf (s : State) (w : Word) : Option Phys :=
  let p := Phys.ofOperand w
  if p.field = s.tile.phys.field ∧ p.onWafer then some p else none

/-- The tiles of a rectangle of physical operands, if all lie in the steward's field. -/
def State.physRect (s : State) (w : Word) (wd ht : Nat) : Option (List Phys) :=
  let o := Phys.ofOperand w
  let ps := (List.range (wd * ht)).map fun i => ({ px := o.px + i % wd, py := o.py + i / wd } : Phys)
  if ps.all fun p => p.field == s.tile.phys.field && p.onWafer then some ps else none

/-- The parcels of an ISTORE, read out of the view at issue. -/
def State.parcelsAt (s : State) (a n : Nat) : List Parcel := (List.range n).map fun i => BitVec.ofNat 16 (s.loadN (a + 2 * i) 2)

/-- Write parcels into an instruction store; whole words get good check bits (R346). -/
def Tile.istoreParcels (t : Tile) (p : Nat) (xs : List Parcel) : Tile :=
  { t with view.ist := t.view.ist.setParcels p xs,
           view.badIst := t.view.badIst.filter fun w => decide (4 * w < p) || decide (p + xs.length < 4 * w + 4) }

/-- The operand limits of ISTORE's b and d (R312, R353). -/
def State.istoreLimit (s : State) (d b : Reg) : Option FaultRec :=
  let src := s.sr d
  let n := s.sr (d + 1)
  if 0x2000 < (s.sr b).toNat + min n.toNat 480 then some (limitFault (s.sr b) b 2 0x68)
  else if src.toNat % 2 ≠ 0 then some (limitFault src d 0 0x68)
  else if n.toNat < 1 ∨ 480 < n.toNat then some (limitFault n (d + 1) 0 0x68)
  else none

/-- A steward's ISTORE to the tile at a coordinate (R251, R312), in the carrel to which that tile belongs: a router delivers it only there (R145). -/
def State.istoreTo (s : State) (p : Phys) (first : Nat) (xs : List Parcel) : State :=
  s.emit { hdr := { s.hdr 0 s.tile.core.cur.scope with carrel := (s.tileAt p).router.own[0].carrel }, body := .istore first xs, dest := some p }

/-- ISTORE and ISTORE.M after their limits: by name, or on a steward tile by physical operand (log entry 11). -/
def State.istoreBody (s : State) (d b : Reg) (ns : List Word) (ps : List Phys) : Res :=
  let n := (s.sr (d + 1)).toNat
  let src := (s.sr d).toNat
  let first := (s.sr b).toNat
  s.insideAll 0x68 (if s.onSteward then [] else ns) (s.checked [(src, 2 * n, false, true)] fun s =>
    let xs := s.parcelsAt src n
    let noted := s.noteAll [(src, 2 * n, false, true)]
    if s.onSteward then .done (ps.foldl (fun s p => s.istoreTo p first xs) noted)
    else s.namedAll 0x68 (fun s =>
      .done (ns.foldl (fun s m => s.issueOp (s.hdr m s.tile.core.cur.scope) (.istore first xs)) (s.noteAll [(src, 2 * n, false, true)]))) [] ns)

/-- ISTORE (R312). -/
def execIstore (d a b : Reg) (s : State) : Host.Outcome State Fault Refusal :=
  s.issue (.istore d a b) { reads := [a, b, d, d + 1] } fun s =>
    let x := s.sr a
    if !s.onSteward && x == s.tile.id.name then .fault { code := 0x14, addr := x } s
    else if s.onSteward && (s.physOf x).isNone then .fault (limitFault x a 1 0x68) s
    else match s.istoreLimit d b with
      | some f => .fault f s
      | none => s.istoreBody d b [x] (s.physOf x).toList

/-- ISTORE.M (R312): a rectangle as SENDM's; on a steward tile one of physical tiles (log entry 11). -/
def execIstoreM (d a b : Reg) (s : State) : Host.Outcome State Fault Refusal :=
  s.issue (.istoreM d a b) { reads := [a, b, d, d + 1, a + 1] } fun s =>
    let x := s.sr a
    let e := s.sr (a + 1)
    let w := e.toNat % 1024 + 1
    let h := e.toNat / 1024 % 1024 + 1
    let me := s.tile.id.name
    let self := nameWafer x == 0 && decide (nameX x ≤ nameX me) && decide (nameX me < nameX x + w)
      && decide (nameY x ≤ nameY me) && decide (nameY me < nameY x + h)
    if !s.onSteward && self then .fault { code := 0x14, addr := me } s
    else match s.istoreLimit d b with
      | some f => .fault f s
      | none =>
        if s.onSteward then
          match (if e.toNat < 2 ^ 20 then s.physRect x w h else none) with
          | none => .fault (limitFault e (a + 1) 4 0x68) s
          | some ps => s.istoreBody d b [] ps
        else match s.rectLimit a 0x68 with
          | some f => .fault f s
          | none => s.istoreBody d b (s.rectOf a) []

end Sys2Proof.Machine
end

