-- ==== Sys2Proof/Machine/Faults.lean ====
section
/-!
DEFINITION. The steps that take a pending fault (R335, R338), answer one (R342), enter a held steward exception (R252) and raise the
fault of an unallocated encoding (R350).
-/

namespace Sys2Proof.Machine

/-- Take the pending fault of this boundary (R335, R338); on a steward tile it is a steward exception (R365). -/
def State.takeNext (s : State) : State :=
  match s.nextPend with
  | none => s
  | some f =>
    let s := { s with tile.stop.pend := s.tile.stop.pend.erase f }
    if s.onSteward then (s.countHard f).stewardFault { cause := f.code.setWidth 16, addr := f.addr, info := f.info }
    else s.takeFault f s.tile.core.cur.pc

/-- FAULT_TAKEN (R338): held while the residency is Migrating (R363) or archived. -/
def execFaultTaken (s : State) : Host.Outcome State Fault Refusal :=
  s.become fun s => if s.tile.moving || s.tile.stop.archived then s else s.takeNext

/-- A packet that is a fault reply in form (R342): class 14, tag bit 7, from a member of the gang or the host. -/
def State.isReply (s : State) (p : Packet) : Bool :=
  match p.body with
  | .send tag _ => p.hdr.cls == 14 && tag.getLsbD 7 && (p.hdr.src == 0xFFFFFFFF || s.inGang p.hdr.src)
  | _ => false

/-- A reply that may be acted on: reserved bits 0 and the seq of the recorded fault (R342). -/
def State.replyGood (s : State) (tag : Word) : Bool :=
  s.tile.stop.faulted.isSome && decide (tag.toNat < 65536) && decide (tag.toNat / 4 % 32 = 0)
    && decide (tag.toNat / 256 = causeSeq s.tile.stop.fcause)

/-- FAULT_REPLY (R342): held for the normal level's fault while an urgent handler runs. -/
def execFaultReply (s : State) : Host.Outcome State Fault Refusal :=
  s.become fun s =>
    match s.arriving with
    | none => s
    | some p =>
      match p.body with
      | .send tag _ =>
        if !s.isReply p || s.tile.core.phase == .unbound then s
        else
          let s := { s.unsend p with tile := s.tile.latch 0 }
          if s.coveredBy p.hdr.scope then s.ackTo p .dropped 0
          else
            let s := s.ackTo p .performed 0
            if !s.replyGood tag then s
            else if s.urgent && s.tile.stop.faulted == some .normal then
              { s with tile.stop.reply := some (s.tile.stop.reply.getD (tag.setWidth 2)) }
            else s.answer (tag.setWidth 2)
      | _ => s

/-- STEWARD_EXCEPTION (R252, R405): at a boundary with no exception active, the oldest held one is entered. -/
def execStewardException (s : State) : Host.Outcome State Fault Refusal :=
  s.become fun s =>
    match s.tile.stw.exns with
    | [] => s
    | e :: es =>
      if !s.onSteward || s.tile.stw.active || s.tile.stop.off then s
      else ({ s with tile.stw.exns := es }).enterExn e

/-- UNALLOCATED_ENCODING (R350): the pc holds no instruction. -/
def execUnallocatedEncoding (s : State) : Host.Outcome State Fault Refusal :=
  s.become fun s =>
    match s.fetch with
    | .bad w => if s.issuing && !s.still then s.precise { code := 0x01, addr := s.pcWord, info := BitVec.ofNat 32 w } else s
    | _ => s

end Sys2Proof.Machine
end

