-- ==== Sys2Proof/Machine/Far.lean ====
section
/-!
DEFINITION. Far memory (R86 to R88, R148, R181, R377, R378): address translation, the edge ports, the chunk requests of the stream engine,
and the steps of the edge agents.
-/

namespace Sys2Proof.Machine

/- Ports. -/

/-- An edge port; one that the state does not list is as bring-up leaves it. -/
def State.port (s : State) (n : Nat) : EdgePort := (s.wafer.ports.find? (·.num = n)).getD { num := n, upstream := s.wafer.strapped.contains n }

/-- Replace a port of a list, or list it. -/
def putPort (p : EdgePort) : List EdgePort → List EdgePort
  | [] => [p]
  | q :: qs => if q.num = p.num then p :: qs else q :: putPort p qs

def State.updPort (s : State) (n : Nat) (f : EdgePort → EdgePort) : State := { s with wafer.ports := putPort (f (s.port n)) s.wafer.ports }

/-- A port serves (R377): its link is up and secure, and no SHOOT has forced it. -/
def EdgePort.live (p : EdgePort) : Bool := p.up && p.secure && !p.forced

/-- The port that owns a far physical address (R86). -/
def farOwner (a : Nat) : Nat := a / 2 ^ 41 % 64

/-- The entry port of a carrel-virtual address (R86). -/
def Carrel.entryPort (c : Carrel) (va : Nat) : Nat := c.ports.getD (va / 2 ^ 30 % c.ports.length) 0

/- Translation (R87, R181). -/

/-- What a translation gives: a leaf's base, its size, the span of the entry that the address indexes, and its write bit. -/
inductive Walked where
  | leaf (base size span : Nat) (write : Bool)
  | bad (code : BitVec 8) (info : Nat)
deriving DecidableEq, Repr

/-- A physical range lies inside one extent whose flags hold a mask. -/
def Carrel.extentOk (c : Carrel) (a n mask : Nat) : Bool :=
  c.extents.any fun e => decide (e.1 ≤ a) && decide (a + n ≤ e.1 + 4096 * e.2.1) && decide (e.2.2.toNat &&& mask = mask)

/-- The index of a level and the size codes it allows, lowest code and count. -/
def walkLevel (va l : Nat) : Nat × Nat × Nat :=
  match l with
  | 1 => (va / 2 ^ 36 % 4096, 0, 0)
  | 2 => (va / 2 ^ 28 % 256, 10, 2)
  | 3 => (va / 2 ^ 20 % 256, 6, 4)
  | _ => (va / 2 ^ 12 % 256, 2, 4)

/-- The span of one entry of a level's table (R87). -/
def levelSpan (l : Nat) : Nat := match l with
  | 1 => 2 ^ 36
  | 2 => 2 ^ 28
  | 3 => 2 ^ 20
  | _ => 2 ^ 12

/-- The carrel that owns the current slot of an edge port (R148; log entry 12). -/
def State.portOwner (s : State) (n : Nat) : Option (BitVec 11) := (s.fieldAt (0, 0)).owner n (s.fieldAt (edgeField n)).slot

/-- Far memory stands at a physical range: its owner is a downstream port, and the range lies inside a device there (R13, R15, R179). The spec gives
no outcome for an access to an upstream port, to an owner field from 48 to 63, or past the devices: the model answers that the port is unavailable (0x5D;
log entry 65). -/
def State.memoryAt (s : State) (pa len : Nat) : Bool :=
  let p := s.port (farOwner pa)
  decide (farOwner pa < 48) && !p.upstream && p.live && p.devices.any fun d => decide (d.1 ≤ pa % 2 ^ 41) && decide (pa % 2 ^ 41 + len ≤ d.1 + d.2)

/-- The walk from a level's table (R87); c.finfo's bits above the port are as R369 gives them. -/
def State.walk (s : State) (c : Carrel) (va base : Nat) : List Nat → Walked
  | [] => .bad 0x58 0
  | l :: ls =>
    let (i, lo, n) := walkLevel va l
    let at_ := base + 8 * i
    let lev := 2 ^ 10 * (l - 1)
    if !c.extentOk at_ 8 2 then .bad 0x5A (lev + 2 ^ 13)
    else if !s.memoryAt at_ 8 then .bad 0x5D (2 ^ 4 * farOwner at_)
    else
      let e := s.wafer.far.getN at_ 8
      let pb := e / 2 ^ 12 % 2 ^ 35 * 2 ^ 12
      let sz := e / 16 % 16
      if e % 2 = 0 then .bad 0x58 lev
      else if e / 2 % 2 = 1 then
        if lo ≤ sz ∧ sz < lo + n then .leaf pb (pageSize sz) (levelSpan l) (e / 4 % 2 == 1) else .bad 0x58 (lev + 2 ^ 12)
      else if l = 4 then .bad 0x58 lev
      else State.walk s c va pb ls

/-- The check of a translated access (R181, R87): the write permission of the leaf, then the extents. -/
def Carrel.leafCheck (c : Carrel) (pa len : Nat) (write w : Bool) : Sum Nat (BitVec 8) :=
  if write && !w then .inr 0x59
  else if !c.extentOk pa len (if write then 1 else 0) then .inr 0x5A
  else .inl pa

/-- The fault record of a far access (R369): slot and entry port, with the walk's own bits; 0x5D names the port that is down. -/
def farFault (code : BitVec 8) (va slot entry info : Nat) (precise : Bool) : FaultRec :=
  { code := code, agent := if precise then 0 else 7, addr := BitVec.ofNat 32 va,
    info := BitVec.ofNat 32 (slot + (if code = 0x5D then info else 2 ^ 4 * entry + info)) }

/-- The level − 1 of the leaf whose entry has a span, as c.finfo holds it (R369). -/
def leafLevel (span : Nat) : Nat := 2 ^ 10 * (((List.range 4).find? fun l => levelSpan (l + 1) == span).getD 0)

/-- Translate an access through a port's cache or a walk (R87): the physical address, or the code and bits of its fault. What is cached is the
entry that the address indexes, for its own span: of a larger page's replicas each translates its own addresses. -/
def State.translateAt (s : State) (n : Nat) (c : Carrel) (va len : Nat) (write : Bool) : Sum Nat (BitVec 8 × Nat) × State :=
  let key : BitVec 11 := BitVec.ofNat 11 c.num
  let hit := (s.port n).tlb.find? fun t => t.carrel == key && decide (t.va ≤ va) && decide (va < t.va + t.size)
  let fin (pa span : Nat) (w : Bool) (s : State) : Sum Nat (BitVec 8 × Nat) × State :=
    match c.leafCheck pa len write w with
    | .inl pa => (.inl pa, s)
    | .inr code => (.inr (code, leafLevel span), s)
  if !(s.port n).live then (.inr (0x5D, 2 ^ 4 * n), s)
  else match hit with
    | some t => fin (t.phys + (va - t.va)) t.size t.write (s.updPort n fun p => { p with tlb := t :: p.tlb.erase t })
    | none =>
      match s.walk c va c.root [1, 2, 3, 4] with
      | .bad code info => (.inr (code, info), s)
      | .leaf base size span w =>
        let lo := va / span * span
        fin (base + va % size) span w (s.updPort n fun p => { p with tlb :=
          (({ carrel := key, va := lo, size := span, phys := base + lo % size, write := w } : Tlb) :: p.tlb).take 4096 })

/-- Translate an access through the entry port of its address (R86). -/
def State.translate (s : State) (c : Carrel) (va len : Nat) (write : Bool) : Sum Nat (BitVec 8 × Nat) × State :=
  s.translateAt (c.entryPort va) c va len write

/-- Translate a request at its port. A chunk is a piece of its source range (R89): a PUT.FAR's may cross a 4 KiB boundary of its destination, and then the
bytes past it have a translation of their own. -/
def State.translateReq (s : State) (n : Nat) (c : Carrel) (r : FarReq) : Sum FarReq (BitVec 8 × Nat) × State :=
  let l := min r.len (4096 - r.va % 4096)
  match s.translateAt n c r.va l r.write with
  | (.inr e, s) => (.inr e, s)
  | (.inl pa, s) =>
    if l = r.len then (.inl { r with phys := some pa }, s)
    else match s.translateAt n c (r.va + l) (r.len - l) r.write with
      | (.inr e, s) => (.inr e, s)
      | (.inl pb, s) => (.inl { r with phys := some pa, more := some (l, pb) }, s)

/-- The physical ranges of a translated request. -/
def FarReq.spans (r : FarReq) : List (Nat × Nat) :=
  match r.phys, r.more with
  | none, _ => []
  | some pa, none => [(pa, r.len)]
  | some pa, some (l, pb) => [(pa, l), (pb, r.len - l)]

/-- Read far memory at once (the image of a launch, R43; log entry 24): its bytes, or the code and bits of the fault. -/
def State.readFar (s : State) (c : Carrel) (va n : Nat) : Sum (List Byte) (BitVec 8 × Nat) × State :=
  match s.translate c va n false with
  | (.inr e, s) => (.inr e, s)
  | (.inl pa, s) =>
    if s.memoryAt pa n then (.inl (s.wafer.far.bytes pa n), s) else (.inr (0x5D, 2 ^ 4 * farOwner pa), s)

/- The local ends of copies. -/

/-- An agent's write into the view: the store, the page map's bits (R76), and the granules of a watermark channel (R94), whose
advance sets bit 4 of the event latch (R247). -/
def Tile.agentWrite (t : Tile) (a : Nat) (bs : List Byte) : Tile := (t.touch a bs.length true false).store a bs

def Watermark.note (w : Watermark) (a n : Nat) : Watermark :=
  if w.on ∧ w.lo ≤ a ∧ a + n ≤ w.hi then
    { w with written := w.written ++ ((List.range (n / 16)).map fun i => a + 16 * i).filter fun g => !w.written.contains g }
  else w

def Tile.noteGranules (t : Tile) (ch : Option (BitVec 2)) (a n : Nat) : Tile :=
  match ch with
  | none => t
  | some c =>
    let w := (t.strm.wm[c.toNat]).note a n
    let t' := { t with strm.wm := t.strm.wm.set c.toNat w }
    if w.mark = (t.strm.wm[c.toNat]).mark then t' else t'.latch 4

/-- Replace a copy. -/
def Tile.setCopy (t : Tile) (c : Copy) : Tile := { t with strm.copies := t.strm.copies.map fun x => if x.id = c.id then c else x }

/-- Bytes of a copy have been written at a local destination. -/
def Tile.landed (t : Tile) (c : Copy) (off : Nat) (bs : List Byte) : Tile :=
  let t := (t.agentWrite (c.dst + off) bs).noteGranules c.wm (c.dst + off) bs.length
  t.setCopy { c with landed := c.landed + bs.length, pend := c.pend.filter (·.1 ≠ off) }

/-- The chunks of the reorder buffer that follow what has landed are written, in ascending order (R94). -/
def Tile.flush (t : Tile) (id : Nat) : Nat → Tile
  | 0 => t
  | fuel + 1 =>
    match t.strm.copies.find? (·.id = id) with
    | none => t
    | some c =>
      match c.got.find? (·.1 = c.landed) with
      | none => t
      | some (off, bs) => (t.landed { c with got := c.got.filter (·.1 ≠ off) } off bs).flush id fuel

/-- A chunk of a GET reaches its local destination: a W copy writes its chunks in ascending order (R94). -/
def Tile.arrive (t : Tile) (c : Copy) (off : Nat) (bs : List Byte) : Tile :=
  if c.wm.isSome ∧ off ≠ c.landed then t.setCopy { c with got := c.got ++ [(off, bs)], pend := c.pend.filter (·.1 ≠ off) }
  else (t.landed c off bs).flush c.id 512

/-- An agent's fault ends a copy (R341): the first one stands, and no further chunk is issued. -/
def Tile.endCopy (t : Tile) (c : Copy) (f : FaultRec) : Tile :=
  t.setCopy { c with ended := some (c.ended.getD { f with urgent := c.urgent }), pend := c.pend.filter (·.2.2 = .sent), issued := c.issued }

/- Requests. -/

/-- A request whose fault is its instruction's own: a far-window LDP's (R369). -/
def FarReq.precise (r : FarReq) : Bool := match r.use with
  | .word _ => true
  | _ => false

/-- A far request leaves for its entry port (R86). A chunk of a copy is an outstanding acknowledgement of class 3 until it is performed (R123). -/
def State.farSend (s : State) (c : Carrel) (use : FarFor) (va len : Nat) (write : Bool) (data : List Byte) : State :=
  let s := s.emit { hdr := s.hdr 0 0, body := .farReq use va len write data, dest := some (edgeAgent (c.entryPort va)) }
  match use with
  | .copy _ _ => { s with tile := s.tile.addAck 3 }
  | _ => s

/-- The 256-byte far lines of a range. -/
def farLines (a n : Nat) : Nat × Nat := (a / 256, (a + n - 1) / 256)

/-- The far ranges of the chunks of a far copy that have not been issued. -/
def Copy.unissued (k : Copy) : List (Nat × Nat) :=
  let base := if k.kind = .putFar then k.dst else k.src
  (k.pend.filterMap fun x => if x.2.2 = .queued then some (base + x.1, x.2.1) else none)
    ++ if k.issued < k.length then [(base + k.issued, k.length - k.issued)] else []

/-- A far range overlaps a 256-byte far line of a chunk, not yet issued, of one of the far copies given (R128); ranges with a common line have one entry
port. -/
def overlapsQueued (l : List Copy) (va len : Nat) : Bool :=
  l.any fun e =>
    e.far && e.ended.isNone && e.unissued.any fun x =>
      decide ((farLines va len).1 ≤ (farLines x.1 x.2).2) && decide ((farLines x.1 x.2).1 ≤ (farLines va len).2)

/-- A chunk of a copy would overtake an earlier copy's (R128). -/
def Tile.overtakes (t : Tile) (k : Copy) (va len : Nat) : Bool := overlapsQueued (t.strm.copies.takeWhile (·.id ≠ k.id)) va len

/-- The bytes that the far W copies of a tile have asked for and that have not been written: what the reorder buffer of 4 KiB may have to hold (R94). -/
def Tile.reorder (t : Tile) : Nat :=
  (t.strm.copies.filter fun k => k.wm.isSome && k.kind == .getFar).foldl (fun a k =>
    a + (k.pend.filter (·.2.2 = .sent)).foldl (fun a x => a + x.2.1) 0 + k.got.foldl (fun a x => a + x.2.length) 0) 0

/-- A chunk may be asked for: it finds room in the reorder buffer, or it is the next that its copy writes, which goes past the buffer (R94). -/
def Tile.hasCredit (t : Tile) (k : Copy) (off len : Nat) : Bool :=
  k.wm.isNone || k.kind != .getFar || off == k.landed || decide (t.reorder + len ≤ 4096)

/-- The oldest queued chunk of a far copy goes to its entry port; a chunk of a PUT.FAR reads its local source then (R302). -/
def State.sendChunk (s : State) (c : Carrel) (k : Copy) : State :=
  match k.far && k.ended.isNone, k.pend.find? (·.2.2 = .queued) with
  | true, some (off, len, _) =>
    let wr := k.kind == .putFar
    let va := if wr then k.dst + off else k.src + off
    let sent := { k with pend := k.pend.map fun x => if x.1 = off then (off, len, ChunkState.sent) else x }
    if s.tile.overtakes k va len || !s.tile.hasCredit k off len then s
    else if !wr then { s with tile := s.tile.setCopy sent }.farSend c (.copy k.id off) va len false []
    else match s.tile.seek (k.src + off) len true 1 with
      | .wait t => { s with tile := t }
      | .fault f t => { s with tile := t.endCopy { k with pend := k.pend.filter (·.1 ≠ off) } f }
      | .ok =>
        { s with tile := (s.tile.touch (k.src + off) len false false).setCopy sent }.farSend c (.copy k.id off) va len true
          (s.tile.view.mem.bytes (k.src + off) len)
  | _, _ => s

/-- The address of a byte of a residency's spill slot (R79, R180): page requests carry it to its entry port, where it is translated as R87 says
(R372; log entry 66). -/
def State.spillAddr (s : State) (c : Carrel) (v : Nat) : Nat :=
  c.spill + (nameY s.tile.id.name * c.w + nameX s.tile.id.name) * 98304 + v

/-- Replace the page map entry at a virtual base. -/
def Tile.setPage (t : Tile) (v : Nat) (f : Page → Page) : Tile :=
  { t with view.pages := t.view.pages.map fun q => if q.vbase = v then f q else q }

/-- An unpinned resident page that may become a victim later (R78). -/
def Tile.mayFree (t : Tile) : Bool := t.view.pages.any fun p => p.resident && !p.pinned

/-- A page-in has failed with a far cause (R369 0x48, R373): a frame already taken for it is returned. -/
def Tile.pageInFailed (t : Tile) (p : Page) (info : Word) : Tile :=
  let t := match p.io.bind (·.frame) with
    | some b => { t with view.frames := frameFree t.view.frames p.k b 5, view.mem := t.view.mem.clear p.vbase (pageSize p.k) }
    | none => t
  t.setPage p.vbase fun q => { q with pagingIn := false, io := none, failed := some info }

/-- The next 256 bytes of a page's transfer are asked for. A page-out sends no uncorrectable word: it ends there with the hard fault of the stream engine
(R337, R346), and the page has no spill copy (R373; log entry 93). -/
def State.sendPage (s : State) (c : Carrel) (p : Page) (io : PageIo) : State :=
  if pageSize p.k ≤ io.sent then s
  else
    let v := p.vbase + io.sent
    match (if io.out then p.bad.find? fun a => decide (v ≤ a) && decide (a < v + 256) else none) with
    | some a =>
      let f : FaultRec := { code := 0x80, hard := true, agent := 1, addr := BitVec.ofNat 32 a, info := BitVec.ofNat 32 (p.wordAt a + 2 ^ 14) }
      { s with tile := (s.tile.setPage p.vbase fun q => { q with io := some { io with
          sent := pageSize p.k, done := io.done + (pageSize p.k - io.sent), bad := some (io.bad.getD 0x80) } }).addPend f }
    | none =>
    { s with tile := s.tile.setPage p.vbase fun q => { q with io := some { io with sent := io.sent + 256 } } }.farSend c (.page io.id io.sent)
      (s.spillAddr c v) 256 io.out (if io.out then s.tile.view.mem.bytes v 256 else [])

/-- The transfer of a page goes on, or begins (R79): a page-out to be written, or a page-in, for which a frame is taken first; it waits for a victim, or
fails where none can come (R78, R373). The store queue is performed before a page leaves its frame. -/
def State.movePage (s : State) (c : Carrel) (p : Page) : State :=
  match p.io with
  | some io => s.sendPage c p io
  | none =>
    let id := s.tile.net.nextId
    let s := { s with tile.net.nextId := id + 1 }
    if p.spill = .writing then s.sendPage c p { id := id, out := true }
    else if p.pagingIn && !p.resident && p.spill == .held then
      match s.tile.drain.takeFrame p.k 65 with
      | (none, t) => if t.mayFree then { s with tile := t } else { s with tile := t.pageInFailed p 0x42 }
      | (some b, t) => { s with tile := t }.sendPage c p { id := id, out := false, frame := some b }
    else s

/-- A message that has arrived whole at an agent, when the step is given it and it is the oldest of its channel. -/
def State.arrivingAt (s : State) (q : Phys) : Option Packet :=
  match s.inp.pkt with
  | none => none
  | some p => if oldestOn p s.net && p.place.map (·.1) == some q then some p else none

/-- The stream engine of the tile in focus sends a far request (R86): `n` 0 to 15 the oldest queued chunk of the far copy in slot `n`, 16 the far-window
LDP's word, which no chunk of an earlier far copy that has still to be issued may overlap (R128, R268), 17 the far element of reader `m`, 18 the next bytes of the page at `m`. -/
def State.requestFar (s : State) (c : Carrel) : State :=
  if s.tile.moving || s.tile.stop.off || s.fld.paused then s
  else if s.inp.n = 16 then
    match s.tile.strm.farWord with
    | none => s
    | some w => if w.sent || w.word.isSome || w.fail.isSome || overlapsQueued s.tile.strm.copies w.va 4 then s
                else { s with tile.strm.farWord := some { w with sent := true } }.farSend c (.word w.id) w.va 4 false []
  else if s.inp.n = 17 then
    match s.tile.strm.farReads.find? (·.who = s.inp.m) with
    | none => s
    | some r => if r.sent || r.data.isSome || r.fail.isSome then s
                else { s with tile.strm.farReads := s.tile.strm.farReads.map fun (x : FarRead) => if x.id = r.id then { x with sent := true } else x }.farSend
                  c (.elem r.id) r.va 16 false []
  else if s.inp.n = 18 then
    match s.tile.view.pages.find? (·.vbase = s.inp.m) with
    | none => s
    | some p => s.movePage c p
  else
    match s.tile.strm.copies.find? (·.slot = s.inp.n) with
    | none => s
    | some k => s.sendChunk c k

/-- FAR_REQUEST (R86, R148): a request that has reached edge agent `n` joins its carrel's private queue there; with no message given, the stream engine of
the tile in focus sends one. -/
def execFarRequest (s : State) : Host.Outcome State Fault Refusal :=
  s.become fun s =>
    match s.inp.pkt with
    | none => match s.myCarrel with
      | none => s
      | some c => s.requestFar c
    | some _ =>
      match s.arrivingAt (edgeAgent s.inp.n) with
      | none => s
      | some p => match p.body with
        | .farReq use va len write data =>
          (s.unsend p).updPort s.inp.n fun q => { q with reqs := q.reqs ++
            [{ tile := p.origin, name := p.hdr.src, use := use, len := len, va := va, carrel := p.hdr.carrel, write := write, data := data }] }
        | _ => s

/-- Replace the request at an index of a port. -/
def State.setReq (s : State) (n i : Nat) (r : Option FarReq) : State :=
  s.updPort n fun p => { p with reqs := match r with
    | some r => p.reqs.set i r
    | none => p.reqs.eraseIdx i }

/-- The copy slot field of a request's fault: the slot of the copy, or 0xF (R369). -/
def State.reqSlot (s : State) (r : FarReq) : Nat :=
  match r.use with
  | .copy id _ =>
    ((s.tiles.find? fun t => t.id.name == r.name && t.inCarrel r.carrel.toNat && t.strm.copies.any (·.id == id)).map fun _ =>
      id % 16).getD 0xF
  | _ => 0xF

/-- TRANSLATION_WALK_DONE (R87, R148, R181): in a slot of its carrel, an admitted request of port `n` at place `m` of its queue is translated, or meets
its fault. -/
def execTranslationWalkDone (s : State) : Host.Outcome State Fault Refusal :=
  s.become fun s =>
    let n := s.inp.n
    match (s.port n).reqs[s.inp.m]? with
    | none => s
    | some r =>
      if r.admitted.isNone || r.phys.isSome || r.failed.isSome || s.portOwner n ≠ some r.carrel then s
      else match s.carrel r.carrel.toNat with
        | none => s
        | some c =>
          match s.translateReq n c r with
          | (.inl r, s) => s.setReq n s.inp.m (some r)
          | (.inr (code, info), s) => s.setReq n s.inp.m (some { r with failed := some (farFault code r.va (s.reqSlot r) n info r.precise) })

/-- Admit at most `k` of a carrel's waiting requests in a slot, in arrival order: the number admitted and the queue. -/
def admitOwned (c : BitVec 11) (slot : Nat) : Nat → List FarReq → Nat × List FarReq
  | 0, rs => (0, rs)
  | _, [] => (0, [])
  | k + 1, r :: rs =>
    if r.carrel = c ∧ r.admitted.isNone then
      let (n, l) := admitOwned c slot k rs
      (n + 1, { r with admitted := some slot } :: l)
    else
      let (n, l) := admitOwned c slot (k + 1) rs
      (n, r :: l)

/-- The chunk requests that a port admits in a slot: 112, and at a lesser width or rate than x16 at 64 GT/s proportionally fewer (R148, R171). -/
def EdgePort.quota (p : EdgePort) : Nat := 112 * p.width * p.rate / 1024

/-- EDGE_PORT_SLOT (R148, R171): in an owned slot port `n` admits at most its quota of the owner's requests, in arrival order, however often it looks. -/
def execEdgePortSlot (s : State) : Host.Outcome State Fault Refusal :=
  s.become fun s =>
    let f := s.fieldAt (edgeField s.inp.n)
    match s.portOwner s.inp.n with
    | none => s
    | some c => s.updPort s.inp.n fun p =>
        let used := if p.slot = f.slotCount then p.used else 0
        let (k, reqs) := admitOwned c f.slotCount (p.quota - used) p.reqs
        { p with slot := f.slotCount, used := used + k, reqs := reqs }

/-- What the memory device answers (R377, R346): `k` 0 performs it, 1 refuses it (a rejected write, an uncorrectable read of the line at
`j`), 2 an uncorrectable word of the edge buffer. An address that no memory backs (its owner is an upstream port, or no port at all, or it lies past
what the port's devices hold) is refused with code 0x5D: the spec names no outcome for it (log entry 65). So ends a write under way when the link went down
(R377), and every request of an entry port that is unavailable, translated or not. -/
def State.deviceFault (s : State) (r : FarReq) (n pa : Nat) : Option FaultRec :=
  let slot := s.reqSlot r
  let prec := r.precise
  match r.spans.find? fun x => !s.memoryAt x.1 x.2 with
  | some x => some (farFault 0x5D r.va slot n (2 ^ 4 * farOwner x.1) prec)
  | none =>
  if r.torn then some (farFault 0x5D r.va slot n (2 ^ 4 * farOwner pa) prec)
  else if !(s.port n).live then some (farFault 0x5D r.va slot n (2 ^ 4 * n) prec)
  else match s.inp.k with
    | 0 => none
    | 1 =>
      if r.write then some (farFault 0x5E r.va slot (farOwner pa) 0 false)
      else some { farFault 0x84 (r.va / 64 * 64 + 64 * s.inp.j) slot (farOwner pa) 0 prec with hard := true }
    | _ => some { farFault 0x83 r.va slot n 0 prec with hard := true }

/-- The cause of a failed page transfer as code 0x48 records it: the far code and the port (R369, R373). -/
def pageCause (f : FaultRec) : Word := BitVec.ofNat 32 (f.code.toNat + 256 * (f.info.toNat / 16 % 64))

/-- A performed request's reply at its tile: `bad` is its fault, `bs` the bytes read (R79, R268, R302, R370). None where it must wait for a page. -/
def State.farReply (s : State) (use : FarFor) (len : Nat) (write : Bool) (bad : Option FaultRec) (bs : List Byte) : Option State × State :=
  let t := s.tile
  let set (t : Tile) : Option State × State := (some { s with tile := t }, s)
  match use with
  | .gone => (some s, s)
  | .word id =>
    (match t.strm.farWord with
     | none => (some s, s)
     | some w =>
       if w.id ≠ id then (some s, s)
       else set { t with strm.farWord := some (match bad with
         | some f => { w with fail := some f }
         | none => { w with word := some (BitVec.ofNat 32 (leNat bs)) }) })
  | .elem id =>
    set { t with strm.farReads := t.strm.farReads.map fun x => if x.id = id then (match bad with
      | some f => { x with fail := some f }
      | none => { x with data := some bs }) else x }
  | .page id off =>
    (match t.view.pages.find? fun p => (p.io.map (·.id)) == some id with
     | none => (some s, s)
     | some p =>
       let t := t.setPage p.vbase fun q => { q with io := q.io.map fun x =>
         { x with done := x.done + len, bad := if x.bad.isSome then x.bad else bad.map pageCause } }
       set (if write ∨ bad.isSome then t else { t with view.mem := t.view.mem.writeBytes (p.vbase + off) bs }))
  | .copy id off =>
    let t := t.subAck 3
    (match t.strm.copies.find? (·.id = id) with
     | none => set t
     | some k =>
       let rest := { k with pend := k.pend.filter (·.1 ≠ off) }
       match bad with
       | some f => set (t.endCopy rest f)
       | none =>
         if write then set (t.setCopy { rest with landed := k.landed + len })
         else match t.seek (k.dst + off) len false 1 with
           | .wait w => (none, { s with tile.view.pages := w.view.pages })
           | .fault f t => set (t.endCopy rest f)
           | .ok => set (t.arrive k off bs))

/-- The bytes that a write under way when the link went down leaves (R377): of its 64-byte lines, those that the bits of `j` pick are new, the others old. -/
def State.tornBytes (s : State) (pa : Nat) (bs : List Byte) : List Byte :=
  (List.range bs.length).map fun i =>
    if s.inp.j.testBit ((pa + i) / 64 - pa / 64) then bs.getD i 0 else (s.wafer.far.bytes (pa + i) 1).headD 0

/-- The bytes of a translated request in far memory. -/
def State.farBytes (s : State) (r : FarReq) : List Byte := r.spans.flatMap fun x => s.wafer.far.bytes x.1 x.2

/-- Far memory after a write that is performed, or that the link going down has torn. Of a second range the bits of `j` follow from the eighth. -/
def State.farWrite (s : State) (r : FarReq) : Memory :=
  let now (s : State) (m : Memory) (pa : Nat) (bs : List Byte) : Memory := m.writeBytes pa (if r.torn then s.tornBytes pa bs else bs)
  match r.phys, r.more with
  | none, _ => s.wafer.far
  | some pa, none => now s s.wafer.far pa r.data
  | some pa, some (l, pb) => now { s with inp.j := s.inp.j / 256 } (now s s.wafer.far pa (r.data.take l)) pb (r.data.drop l)

/-- A reply may leave in this slot (R148): the one 16 slots after the slot that admitted its request, or a later one that the carrel owns. -/
def State.replySlot (s : State) (n : Nat) (r : FarReq) : Bool :=
  let now := (s.fieldAt (edgeField n)).slotCount
  r.admitted.any fun k => now == k + 16 || (decide (k + 16 ≤ now) && s.portOwner n == some r.carrel)

/-- The request at place `m` of port `n`, the oldest of its residency there, is performed at the memory device, or ended by its fault, and its reply
leaves (R128, R148). -/
def State.performFar (s : State) : State :=
  let n := s.inp.n
  match (s.port n).reqs[s.inp.m]? with
  | none => s
  | some r =>
    if (r.phys.isNone ∧ r.failed.isNone) ∨ ((s.port n).reqs.take s.inp.m).any (fun q => q.name == r.name && q.carrel == r.carrel)
        ∨ !s.replySlot n r then s
    else
      let bad := match r.failed, r.phys with
        | some f, _ => some f
        | none, some pa => s.deviceFault r n pa
        | none, none => none
      let bs := if r.write ∨ bad.isSome then [] else s.farBytes r
      let s := if r.torn || (r.write && bad.isNone) then { s with wafer.far := s.farWrite r } else s
      let h : Hdr := { dst := r.name, src := 0, scope := 0, cls := 0, prio := 0, urgent := false, carrel := r.carrel }
      (s.setReq n s.inp.m none).emitFrom (edgeAgent n) { hdr := h, body := .farReply r.use r.len r.write bad bs, dest := some r.tile }

/-- FAR_REPLY_ARRIVAL (R69, R148, R302, R370): the reply given reaches the tile in focus; with none given, a port performs a request and sends one. -/
def execFarReplyArrival (s : State) : Host.Outcome State Fault Refusal :=
  s.become fun s =>
    match s.inp.pkt with
    | none => s.performFar
    | some _ =>
      match s.arriving with
      | none => s
      | some p => match p.body with
        | .farReply use len write bad bs =>
          (match (s.unsend p).farReply use len write bad bs with
           | (some u, _) => u
           | (none, _) => (s.farReply use len write bad bs).2)
        | _ => s

/- SHOOT. -/

/-- A translated access of a carrel inside a range. -/
def FarReq.shot (r : FarReq) (x : Shoot) : Bool :=
  r.phys.isSome && r.carrel == x.carrel && decide (x.lo < r.va + r.len) && decide (r.va < x.hi)

/-- The invalidation of a range at a port (R88). -/
def EdgePort.shoot (p : EdgePort) (x : Shoot) : EdgePort :=
  { p with tlb := p.tlb.filter fun t => !(t.carrel == x.carrel && decide (x.lo < t.va + t.size) && decide (t.va < x.hi)) }

/-- An agent has acknowledged: with the last the token is written with 48 (R257). -/
def State.shootAck (s : State) (x : Shoot) (n : Nat) : State :=
  let y := { x with missing := x.missing.erase n }
  if y.missing = [] then
    { s with wafer.shoots := s.wafer.shoots.erase x }.tokenAt x.steward x.mark 48
  else { s with wafer.shoots := s.wafer.shoots.map fun z => if z = x then y else z }

/-- SHOOT_AGENT_ACK (R88): agent `n` answers the SHOOT at place `m`; a translated access of the range must be performed first. -/
def execShootAgentAck (s : State) : Host.Outcome State Fault Refusal :=
  s.become fun s =>
    match s.wafer.shoots[s.inp.m]? with
    | none => s
    | some x =>
      let n := s.inp.n
      if !x.missing.contains n then s
      else
        let s := s.updPort n (·.shoot x)
        if (s.port n).reqs.any (·.shot x) then s else s.shootAck x n

/-- A change of a port's state: steward event 0xD4 at the acting steward of its field and host notice 0x69 (R369, R377). -/
def State.portChange (s : State) (n : Nat) (back : Bool) : State :=
  let info := BitVec.ofNat 32 (n + (if (s.port n).upstream then 256 else 0) + if back then 512 else 0)
  (s.stewardEvent (edgeField n) 0xD4 0 info).notifyAll 0x69 0 info

/-- SHOOT_TIMEOUT (R378): the silent agent `n` of the SHOOT at place `m` is forced, and is unavailable from now on, which is a change of its port (R377). -/
def execShootTimeout (s : State) : Host.Outcome State Fault Refusal :=
  s.become fun s =>
    match s.wafer.shoots[s.inp.m]? with
    | none => s
    | some x =>
      let n := s.inp.n
      if !x.missing.contains n ∨ x.clk < Config.shootLimit then s
      else
        let s := s.updTile x.steward (·.stewardEvent { cause := 0xD2, addr := 0, info := BitVec.ofNat 32 n })
        let hit (r : FarReq) : FarReq :=
          if r.phys.isSome then
            { r with phys := none, more := none, torn := false, failed := some (farFault 0x5D r.va (s.reqSlot r) n (2 ^ 4 * n) r.precise) }
          else r
        (((s.updPort n fun p => { p.shoot x with forced := true, reqs := p.reqs.map hit }).updField (edgeField n)
          fun fl => { fl with did := portKey n :: fl.did }).portChange n false).shootAck x n

/- Links. -/

/-- A write admitted to the memory of port `n` is under way to it when the link goes down. -/
def FarReq.tear (n : Nat) (r : FarReq) : FarReq :=
  if r.write && r.admitted.isSome && r.failed.isNone && r.spans.any (farOwner ·.1 == n) then { r with torn := true } else r

/-- CXL_LINK_DOWN (R377): port `n`. -/
def execCxlLinkDown (s : State) : Host.Outcome State Fault Refusal :=
  s.become fun s =>
    let n := s.inp.n
    if (s.port n).up && decide (n < 48) then
      let s := s.updPort n fun (p : EdgePort) => { p with up := false }
      let s := { s with wafer.ports := s.wafer.ports.map fun (p : EdgePort) => { p with reqs := p.reqs.map (FarReq.tear n) } }
      (s.updField (edgeField n) fun fl => { fl with did := portKey n :: fl.did }).portChange n false
    else s

/-- The lanes and GT/s to which a port trains (R171). -/
def trainedWidth (x : Nat) : Nat := if x % 3 = 0 then 16 else if x % 3 = 1 then 8 else 4
def trainedRate (x : Nat) : Nat := if x / 3 % 2 = 0 then 64 else 32

/-- CXL_LINK_RETRAIN (R377): Genesh has retrained port `n`, with success if `ok`; a port serves again with the frame that follows, so that this comes in slot 0,
once, and not in the frame in which the link went down. The width and the rate are those to which it has trained now (R171). -/
def execCxlLinkRetrain (s : State) : Host.Outcome State Fault Refusal :=
  s.become fun s =>
    let n := s.inp.n
    let p := s.port n
    let fl := s.fieldAt (edgeField n)
    if (p.up && !p.forced) || !decide (n < 48) || fl.slot ≠ 0 || fl.did.contains (portKey n) || !fl.served then s
    else
      let s := s.updField (edgeField n) fun fl => { fl with did := portKey n :: fl.did }
      if s.inp.ok then
        let x := Config.training (48 + s.free)
        ({ s with free := s.free + 1 }.updPort n fun p =>
          { p with up := true, forced := false, width := trainedWidth x, rate := trainedRate x }).portChange n true
      else s

/-- CXL_LINK_RETURNED (R377): the link of port `n` returns by its own recovery. -/
def execCxlLinkReturned (s : State) : Host.Outcome State Fault Refusal :=
  s.become fun s => if !(s.port s.inp.n).up && decide (s.inp.n < 48) then (s.updPort s.inp.n fun p => { p with up := true }).portChange s.inp.n true else s

/-- IDE_INTEGRITY_FAILURE (R377): port `n` is unavailable until keys are set again. -/
def execIdeIntegrityFailure (s : State) : Host.Outcome State Fault Refusal :=
  s.become fun s =>
    if (s.port s.inp.n).secure && decide (s.inp.n < 48) then (s.updPort s.inp.n fun p => { p with secure := false }).portChange s.inp.n false else s

/-- IDE_KM_KEY_EXCHANGE (R171, R377): keys of port `n` are set. -/
def execIdeKmKeyExchange (s : State) : Host.Outcome State Fault Refusal :=
  s.become fun s =>
    if !(s.port s.inp.n).secure && decide (s.inp.n < 48) then (s.updPort s.inp.n fun p => { p with secure := true }).portChange s.inp.n true else s

end Sys2Proof.Machine
end

