-- ==== Sys2Proof/Machine/Grid.lean ====
section
/-!
DEFINITION. The stewards' books: which group stands where (R60, R65, R194), who owns a tile (R145), whether a group's routes stay inside its
carrel (R140), and the bound on the distance of logical neighbours (R72).
-/

namespace Sys2Proof.Machine

/- Nonets and groups. -/

/-- The group that stands on a nonet by the published catalogue (R60). -/
def Field.groupOn (f : Field) (n : Nat × Nat) : Option Nat := (List.range 2048).find? fun g => slotNonet (f.readEntry g) == n

/-- The member position of a slot that names a position of its nonet. -/
def memberAt (c : CatSlot) (pos : Nat) : Option Nat := (List.range 8).find? fun m => slotPos c m == pos

/-- A tile is named by a member position of its nonet's group. -/
def Field.names (f : Field) (p : Phys) : Bool :=
  match f.groupOn p.nonet with
  | none => false
  | some g => (memberAt (f.readEntry g) p.pos).isSome

/-- The 62 replacement spares of a field (R194). -/
def spareNonet (n : Nat × Nat) : Bool := (n.2 == 0 && decide (1 ≤ n.1) && decide (n.1 ≤ 47)) || (n.2 == 43 && n.1 % 3 == 2 && decide (n.1 ≤ 44))

/-- The nine tiles of a nonet. -/
def nonetTiles (f n : Nat × Nat) : List Phys := (List.range 9).map (Phys.ofNonet f n)

/-- The fuse code of a tile (R194). -/
def State.fuse (s : State) (p : Phys) : BitVec 2 := ((s.wafer.fuses.find? (·.1 = p)).map (·.2)).getD 0

/-- A tile to which a residency is on its way, or to which a publish that waits moves a member: no other goes there, or a slot would name one position twice (R60; log
entry 102). -/
def State.targeted (s : State) (q : Phys) : Bool :=
  let f := s.fieldAt q.field
  s.tiles.any (fun t => t.net.mig.any (·.dst == q)) || f.queued.any fun r => r.slots.any fun x => match x with
    | .place g _ p => slotNonet (f.readEntry g) == q.nonet && p == q.pos
    | .spare _ n => n == q.nonet

/-- A free, flawless replacement spare (R194, R253). -/
def State.freeSpare (s : State) (f n : Nat × Nat) : Bool :=
  let fl := s.fieldAt f
  spareNonet n && (fl.groupOn n).isNone
    && (nonetTiles f n).all fun p => s.fuse p == 0 && !fl.defects.contains p && !(s.tileAt p).stop.off && !s.targeted p

/- Carrels on the grid. -/

/-- A carrel that holds its rectangle (R19). -/
def Carrel.live (c : Carrel) : Bool := c.state != .archived

/-- The wafer-logical coordinates of a group's first member (R10, R254). -/
def groupXY (f : Nat × Nat) (g : Nat) : Nat × Nat := (128 * f.1 + 4 * (g % 32), 128 * f.2 + 2 * (g / 32))

/-- The carrel that a group belongs to (R17). -/
def State.groupCarrel (s : State) (f : Nat × Nat) (g : Nat) : Option Carrel :=
  let (x, y) := groupXY f g
  s.carrels.find? fun c => c.live && decide (c.ox ≤ x) && decide (x < c.ox + c.w) && decide (c.oy ≤ y) && decide (y < c.oy + c.h)

/-- The logical names of a group's members (R58, R60). -/
def Carrel.groupNames (c : Carrel) (f : Nat × Nat) (g : Nat) : List Word :=
  let (x, y) := groupXY f g
  (List.range 8).map fun m => mkName 0 (x - c.ox + m % 4) (y - c.oy + m / 4)

/-- The groups of a carrel on this wafer, row by row. -/
def Carrel.groups (c : Carrel) : List ((Nat × Nat) × Nat) :=
  (List.range (c.w / 4 * (c.h / 2))).map fun i => let (f, g, _) := c.place (i % (c.w / 4) * 4) (i / (c.w / 4) * 2); (f, g)

/-- The nonet on which a group stands. -/
def State.nonetOf (s : State) (f : Nat × Nat) (g : Nat) : Nat × Nat := slotNonet ((s.fieldAt f).readEntry g)

/-- The router of a tile is defective, or the tile has no power (R194). -/
def State.noRouter (s : State) (p : Phys) : Bool := decide (2 ≤ (s.fuse p).toNat)

/-- The carrel that owns a tile (R145): of the group on its nonet, or of the group that its failed working nonet carried. A tile without a router is
marked invalid (R194). -/
def State.ownerOf (s : State) (p : Phys) : Option Nat :=
  if s.noRouter p then none
  else
  let fl := s.fieldAt p.field
  let g := match fl.groupOn p.nonet with
    | some g => some g
    | none => (List.range 2048).find? fun g => fieldMap g == p.nonet
  (g.bind (s.groupCarrel p.field)).map (·.num)

/-- The carrel to which a tile's own router says that it belongs. -/
def State.ownedNow (s : State) (p : Phys) : Option Nat :=
  let o := (s.tileAt p).router.own[0]
  if o.valid then some o.carrel.toNat else none

/-- The nonets whose tiles may carry no group: those of the stewards and the spares (R145, R194). -/
def loanNonet (n : Nat × Nat) : Bool := n == (0, 0) || n == (47, 43) || spareNonet n

/-- A tile that carries no group, that has a router and is no steward tile, and that is lent to no other carrel (R145): an ordinary tile of a steward nonet, or one of a
spare not in use. -/
def State.lendable (s : State) (c : Nat) (p : Phys) : Bool :=
  !p.steward && loanNonet p.nonet && ((s.fieldAt p.field).groupOn p.nonet).isNone && !s.noRouter p
    && (match s.ownedNow p with | none => true | some d => d == c)

/-- The neighbours of a tile with the port under which each one's router holds this tile: 1 west, 2 north, 3 east, 4 south. -/
def around (p : Phys) : List (Phys × Nat) :=
  [({ p with px := p.px - 1 }, 3), ({ p with py := p.py + 1 }, 4), ({ p with px := p.px + 1 }, 1), ({ p with py := p.py - 1 }, 2)].filter
    fun q => q.1 != p && q.1.onWafer

/-- Write what the routers of a tile and of its neighbours hold of its owner (R145). -/
def State.setOwner (s : State) (p : Phys) (o : Owner) : State :=
  let put (s : State) (q : Phys) (i : Nat) : State :=
    s.updTile q fun t => { t with router.own := t.router.own.set (i % 5) o (Nat.mod_lt _ (by decide)) }
  (around p).foldl (fun s q => put s q.1 q.2) (put s p 0)

/-- Tiles are given to a carrel; a tile without a router to none. -/
def State.give (s : State) (c : Carrel) (ps : List Phys) : State :=
  ps.foldl (fun s p => if s.noRouter p then s else s.setOwner p { carrel := BitVec.ofNat 11 c.num, valid := true }) s

/- Routes. -/

/-- The tiles that the routes between two nonets cross, both ways, detours included (R140). -/
def State.nonetRoutes (s : State) (a b : List Phys) : List Phys := a.flatMap fun p => b.flatMap fun q => s.routeTiles p q ++ s.routeTiles q p

/-- The tiles that the routes of a group of a carrel cross. -/
def State.groupRoutes (s : State) (c : Carrel) (f : Nat × Nat) (g : Nat) : List Phys :=
  let here := nonetTiles f (s.nonetOf f g)
  c.groups.flatMap fun x => if x = (f, g) then [] else s.nonetRoutes here (nonetTiles x.1 (s.nonetOf x.1 x.2))

/-- xr of a group (R140; log entry 26): 0 when every tile that its routes cross is the carrel's, or can be lent to it. -/
def State.groupXr (s : State) (c : Carrel) (f : Nat × Nat) (g : Nat) : Bool :=
  !(s.groupRoutes c f g).all fun p => s.ownerOf p == some c.num || s.lendable c.num p

/-- Lend a carrel the unowned tiles that the routes of its groups with xr = 0 need, and take back what they need no more (R140, R145); a tile on which a
forwarding entry lives stays (R382). -/
def State.loans (s : State) (c : Carrel) : State :=
  let need := c.groups.flatMap fun x => if s.groupXr c x.1 x.2 then [] else s.groupRoutes c x.1 x.2
  let s := need.foldl (fun s p =>
    if s.lendable c.num p && (s.ownedNow p).isNone then s.setOwner p { carrel := BitVec.ofNat 11 c.num, valid := true } else s) s
  s.tiles.foldl (fun s t =>
    if s.ownedNow t.phys = some c.num ∧ (s.ownerOf t.phys).isNone ∧ !need.contains t.phys ∧ t.net.fwd.isNone then s.setOwner t.phys {} else s) s

/-- The slot with another xr bit (R60). -/
def slotSetXr (c : CatSlot) (x : Bool) : CatSlot :=
  BitVec.ofNat 64 (c.toNat - (if slotXr c then 2 ^ 61 else 0) + if x then 2 ^ 61 else 0)

/-- Compute xr again for every group of a carrel, with its loans (R140). A slot that changes is written in the field's generation in the fields
`now`, which are making a publish of it; in another field it is staged, and a publish is queued. -/
def State.stageXr (s : State) (c : Carrel) (now : List (Nat × Nat)) : State :=
  let s := c.groups.foldl (fun s x =>
    let e := (s.fieldAt x.1).readEntry x.2
    let b := s.groupXr c x.1 x.2
    let r : PubReq := { slots := [], mark := none }
    if b = slotXr e then s
    else if now.contains x.1 then s.updField x.1 fun f => f.write f.genWord x.2 (slotSetXr e b)
    else s.updField x.1 fun f =>
      let f := f.stage x.2 (slotSetXr e b)
      if f.queued.contains r then f else { f with queued := f.queued ++ [r] }) s
  s.loans c

/-- The carrels, but for one, that have borrowed some of these tiles (R145). -/
def State.borrowers (s : State) (c : Carrel) (ps : List Phys) : List Carrel :=
  s.carrels.filter fun d => d.live && d.num != c.num && ps.any fun p => s.ownedNow p == some d.num

/-- A nonet is given to a carrel (R145, R382): a carrel that has borrowed tiles of it has its xr taken again. -/
def State.giveNonet (s : State) (c : Carrel) (ps : List Phys) (now : List (Nat × Nat)) : State :=
  let lost := s.borrowers c ps
  lost.foldl (fun s d => s.stageXr d now) (s.give c ps)

/-- A nonet that a replacement was to have is free again, for every carrel that may borrow it (R382). -/
def State.takeBack (s : State) (f n : Nat × Nat) : State :=
  let s := (nonetTiles f n).foldl (fun s p => s.setOwner p {}) s
  (s.carrels.filter fun c => c.live && c.touches f).foldl (fun s c => s.stageXr c []) s

/- Detours round a router (R144, R194, R382). -/

/-- A sequence of hops from a tile stays on the wafer and clear of routers that do not work. -/
def State.clearHops (s : State) : Phys → List (BitVec 2) → Bool
  | _, [] => true
  | p, h :: hs => match physOver p h.toNat with
    | none => false
    | some q => !s.noRouter q && !(s.tileAt q).router.off && !(s.tileAt q).router.dead && State.clearHops s q hs

/-- The hops past a tile to which link `i` leads: beside it, or, on the way north or south, beside it and back to the column, as the detours of R399 go. -/
def sidesteps (i : Nat) : List (List (BitVec 2)) :=
  let b := BitVec.ofNat 2 i
  if i % 2 = 0 then [[3, b], [1, b]] else [[0, b, b, 2], [2, b, b, 0]]

/-- The detour that the stewards install for link `i` of a tile (log entry 7): of the sequences of the part and of the two sides the first that is a detour of R144 and leads
clear; none if none does. -/
def State.detourFor (s : State) (q : Phys) (i : Nat) : Detour :=
  match (Config.detourHops q.operand.toNat i :: sidesteps i).find? fun h => !h.isEmpty && decide (h.length ≤ 16) && s.clearHops q h with
  | some h => { valid := true, link := BitVec.ofNat 2 i, hops := h }
  | none => {}

/-- Detours round a tile whose router does not work, at each of its neighbours. -/
def State.detourRound (s : State) (p : Phys) : State :=
  (around p).foldl (fun s q =>
    let i := (q.2 - 1) % 8
    let d := s.detourFor q.1 i
    (s.updTile q.1 fun t => { t with router.detours := t.router.detours.set i d (Nat.mod_lt _ (by decide)) }).updField q.1.field fun f =>
      { f with detoured := f.detoured ++ [q.1] }) s

/- The distance bound (R72). -/

/-- The greatest hop distance between a tile of one nonet and a tile of another. -/
def nonetHops (a b : List Phys) : Nat :=
  a.foldl (fun m p => b.foldl (fun m q => max m ((p.px - q.px) + (q.px - p.px) + (p.py - q.py) + (q.py - p.py))) m) 0

/-- Two groups hold logical neighbours. -/
def adjacentGroups (a b : (Nat × Nat) × Nat) : Bool :=
  let (x, y) := groupXY a.1 a.2
  let (u, v) := groupXY b.1 b.2
  (decide (y = v) && (decide (x + 4 = u) || decide (u + 4 = x))) || (decide (x = u) && (decide (y + 2 = v) || decide (v + 2 = y))) || a == b

/-- c.distbound of a carrel: hops, 13 while every group stands on its field map's nonet, and spare (R72). -/
def State.distBound (s : State) (c : Carrel) : Nat × Bool :=
  let gs := c.groups
  let sp := gs.any fun x => spareNonet (s.nonetOf x.1 x.2)
  let off := gs.any fun x => s.nonetOf x.1 x.2 != fieldMap x.2
  let here (x : (Nat × Nat) × Nat) : List Phys := nonetTiles x.1 (s.nonetOf x.1 x.2)
  let d := gs.foldl (fun m x => gs.foldl (fun m y => if adjacentGroups x y then max m (nonetHops (here x) (here y)) else m) m) 13
  (if off then d else 13, sp)

/-- Write a distance bound to a carrel's books and to every residency of it (R72, R255). -/
def State.setBound (s : State) (c : BitVec 11) (hops : BitVec 10) (spare : Bool) : State :=
  (s.updCarrel c.toNat fun k => { k with hops := hops, spare := spare }).mapTiles fun t =>
    if t.inCarrel c.toNat then { t with id.hops := hops, id.spare := spare } else t

/-- Compute a carrel's bound again, and write it (R72). -/
def State.newBound (s : State) (c : Carrel) : State :=
  let (h, sp) := s.distBound c
  s.setBound (BitVec.ofNat 11 c.num) (BitVec.ofNat 10 h) sp

/-- The slot of a group put on a spare nonet (R382). -/
def slotOnSpare (c : CatSlot) (n : Nat × Nat) : CatSlot :=
  let x := c.toNat
  BitVec.ofNat 64 (x / 4096 * 4096 + n.1 + 64 * n.2) ||| BitVec.ofNat 64 (2 ^ 60)

end Sys2Proof.Machine
end

