-- ==== Sys2Proof/Machine/Steward.lean ====
section
/-!
DEFINITION. The steward-mode instructions (R251 to R261, R382): each issues only on a steward tile (R351). What a steward sends to a tile
of its field on the control channel is performed at issue (log entry 11); migrations, publishes, shoots and archives go on by the steps
of the other agents.
-/

namespace Sys2Proof.Machine

/-- Write a token at once: as a mark that is written in the same step (R251). -/
def State.tokenNow (s : State) (d : Reg) (x : Word) : State :=
  let (s, m) := s.markPlain d
  { s with tile := s.tile.writeToken m (x.setWidth 64) }

/-- The carrel to which the group on a tile's nonet belongs is being archived. -/
def State.archiving (s : State) (t : Tile) : Bool :=
  match ((s.fieldAt t.phys.field).groupOn t.phys.nonet).bind (s.groupCarrel t.phys.field) with
  | none => false
  | some c => match c.state with
    | .active => false
    | .creating _ => false
    | _ => true

/-- A residency that may not be moved (R253 status 4). -/
def State.immovable (s : State) (t : Tile) : Bool :=
  t.core.phase == .loading || t.stop.faulted.isSome || t.net.mig.isSome || s.archiving t

/-- Ask a residency to halt for a migration (R68 step 1). -/
def Tile.requestMove (t : Tile) (dst : Phys) (mark : Option (Phys × Nat)) (rotation order : Option Nat) : Tile :=
  { t with net.mig := some { src := t.phys, dst := dst, step := .requested, mark := mark, rotation := rotation, order := order } }

/-- Queue a publish at the field of the tile in focus (R61). -/
def State.queuePublish (s : State) (slots : List SlotChange) (mark : Option (Phys × Nat)) (order : Option Nat := none) : State :=
  s.updFld fun f => { f with queued := f.queued ++ [{ slots := slots, mark := mark, order := order }] }

/-- In a field without steward service no publish completes: a MIGR's token stays unwritten (R368). -/
def State.unserved (s : State) (d : Reg) : Res := .done (s.markPlain d).1

/-- The next place among the MIGRs issued (R253). -/
def State.ordered (s : State) : State × Nat := ({ s with serial := s.serial + 1 }, s.serial)

/-- MIGR (R253): the status cases, the republish of an Unbound member, or a migration by R68. A tile to which an earlier move goes is refused as one that a member
position names (log entry 102). -/
def execMigr (d a b : Reg) (s : State) : Host.Outcome State Fault Refusal :=
  s.issue (.migr d a b) { steward := true, reads := [a, b] } fun s =>
    let p := Phys.ofOperand (s.sr a)
    let q := Phys.ofOperand (s.sr b)
    let f := s.fld
    let refuse (st : Nat) : Res := .done (s.tokenNow d (BitVec.ofNat 32 (f.genWord.toNat + 65536 * st)))
    if !f.served then s.unserved d
    else if p = q ∨ p.field ≠ s.tile.phys.field ∨ !p.onWafer then refuse 3
    else match f.groupOn p.nonet with
      | none => refuse 1
      | some g =>
        let c := f.readEntry g
        match memberAt c p.pos with
        | none => refuse 1
        | some m =>
          if q.field ≠ p.field ∨ q.nonet ≠ p.nonet ∨ f.names q ∨ s.targeted q ∨ (s.tileAt q).stop.off ∨ f.defects.contains q then refuse 2
          else
            let t := s.tileAt p
            if s.immovable t then refuse 4
            else
              let (s, k) := s.markPlain d
              let (s, o) := s.ordered
              let mark := k.map (s.tile.phys, ·)
              if t.core.phase = .unbound then .done (s.queuePublish [.place g m q.pos] mark (some o))
              else .done (s.updTile p (·.requestMove q mark none (some o)))

/-- The members of a nonet's group on which a residency is bound; what a dead router has cut off does not move (R389). -/
def State.boundMembers (s : State) (f n : Nat × Nat) : List Tile :=
  ((nonetTiles f n).map s.tileAt).filter fun t => t.core.phase != .unbound && !t.router.dead && (s.fieldAt f).names t.phys

/-- A nonet that may not be replaced now (R253 status 4): but for the tiles that a dead router has cut off. -/
def State.heldBack (s : State) (f n : Nat × Nat) : Bool := ((nonetTiles f n).map s.tileAt).any fun t => !t.router.dead && s.immovable t

/-- Put a group on a free spare (R382): the spare's tiles are given to the carrel, detours round the dead routers of the old nonet installed, and every bound member is
asked to halt, or with none bound the group is republished. -/
def State.startReplace (s : State) (f : Nat × Nat) (g : Nat) (n : Nat × Nat) (mark : Option (Phys × Nat)) : State :=
  let old := slotNonet ((s.fieldAt f).readEntry g)
  let bound := s.boundMembers f old
  let s := match s.groupCarrel f g with
    | none => s
    | some c => s.giveNonet c (nonetTiles f n) []
  let s := ((nonetTiles f old).filter fun p => (s.tileAt p).router.off || (s.tileAt p).router.dead).foldl State.detourRound s
  let (s, o) := s.ordered
  if bound = [] then s.updField f fun fl => { fl with queued := fl.queued ++ [{ slots := [.spare g n], mark := mark, order := some o }] }
  else bound.foldl (fun s t => s.updTile t.phys (·.requestMove (Phys.ofNonet f n t.phys.pos) mark none (some o))) s

/-- MIGR.G (R253, R382): every bound member is asked to halt, or with none bound the group is republished. -/
def execMigrG (d a b : Reg) (s : State) : Host.Outcome State Fault Refusal :=
  s.issue (.migrG d a b) { steward := true, reads := [a, b] } fun s =>
    let p := Phys.ofOperand (s.sr a)
    let q := Phys.ofOperand (s.sr b)
    let f := s.fld
    let here := s.tile.phys.field
    let refuse (st : Nat) : Res := .done (s.tokenNow d (BitVec.ofNat 32 (f.genWord.toNat + 65536 * st)))
    if !f.served then s.unserved d
    else if p.field ≠ here ∨ q.field ≠ here ∨ !p.onWafer ∨ !q.onWafer then refuse 3
    else match f.groupOn p.nonet with
      | none => refuse 1
      | some g =>
        if q.pos ≠ 0 ∨ !s.freeSpare here q.nonet then refuse 2
        else if s.heldBack here p.nonet then refuse 4
        else
          let (s, k) := s.markPlain d
          .done (s.startReplace here g q.nonet (k.map (s.tile.phys, ·)))

/-- The first member whose position is out of range, or repeats an earlier one (R60, R254). -/
def badMember (c : CatSlot) : Option Nat :=
  (List.range 8).find? fun m =>
    let p := slotPos c m
    (decide (9 ≤ p) && decide (p ≤ 14)) || (decide (p < 9) && (List.range m).any fun k => slotPos c k == p)

/-- The token of a MAPWR with P = 1: everything staged is published (R255). -/
def State.publishNow (s : State) (d : Reg) (p : BitVec 1) : Res :=
  if p = 1 then
    let (s, k) := s.markPlain d
    .done (s.queuePublish [] (k.map (s.tile.phys, ·)))
  else .done s

/-- MAPWR function 0 (R254, R255): stage a group slot. A slot that names a steward's nonet is staged as any other, though no residency is ever given
one by the hardware (R9): the spec refuses it nowhere (log entry 84). -/
def execMapwrSlot (d a b : Reg) (p : BitVec 1) (s : State) : Host.Outcome State Fault Refusal :=
  s.issue (.mapwrSlot d a b p) { steward := true, reads := [a, b, b + 1] } fun s =>
    let g := s.sr a
    let c : CatSlot := s.pair b &&& 0x3FFFFFFFFFFFFFFF
    if 2048 ≤ g.toNat then .fault (limitFault g a 1 0x79) s
    else if 48 ≤ (slotNonet c).1 ∨ 44 ≤ (slotNonet c).2 then .fault (limitFault (s.sr b) b 2 0x79) s
    else match badMember c with
      | some m => .fault (if m < 5 then limitFault (s.sr b) b 2 0x79 else limitFault (s.sr (b + 1)) (b + 1) 4 0x79) s
      | none => (s.updFld fun f => f.stage g.toNat c).publishNow d p

/-- MAPWR function 1 (R254): a detour entry of a router. -/
def execMapwrDetour (d a b : Reg) (p : BitVec 1) (s : State) : Host.Outcome State Fault Refusal :=
  s.issue (.mapwrDetour d a b p) { steward := true, reads := [a, b, b + 1] } fun s =>
    let x := s.sr a
    let y := s.sr b
    let z := s.sr (b + 1)
    match (if x.toNat < 2 ^ 25 then s.physOf x else none) with
    | none => .fault (limitFault x a 1 0x79) s
    | some q =>
      if 128 ≤ y.toNat then .fault (limitFault y b 2 0x79) s
      else
        let e : Detour := { valid := y.getLsbD 0, link := (y >>> 1).setWidth 2,
                            hops := (List.range (y.toNat / 8 % 16 + 1)).map fun k => (z >>> (2 * k)).setWidth 2 }
        let i := x.toNat / 2 ^ 22 % 8
        ((s.updTile q fun t => { t with router.detours := t.router.detours.set i e (Nat.mod_lt _ (by decide)) }).updFld fun f =>
          { f with detoured := f.detoured ++ [q] }).publishNow d p

/-- MAPWR function 2 (R254): an ownership-map entry of a router. -/
def execMapwrOwnership (d a b : Reg) (p : BitVec 1) (s : State) : Host.Outcome State Fault Refusal :=
  s.issue (.mapwrOwnership d a b p) { steward := true, reads := [a, b] } fun s =>
    let x := s.sr a
    let y := s.sr b
    let i := x.toNat / 2 ^ 22
    match (if i < 5 then s.physOf x else none) with
    | none => .fault (limitFault x a 1 0x79) s
    | some q =>
      if 4096 ≤ y.toNat then .fault (limitFault y b 2 0x79) s
      else
        let e : Owner := { carrel := y.setWidth 11, valid := y.getLsbD 11 }
        (s.updTile q fun t => { t with router.own := t.router.own.set (i % 5) e (Nat.mod_lt _ (by decide)) }).publishNow d p

/-- MAPWR function 3 (R254, R255): a distance bound, held until the next publish. -/
def execMapwrDistbound (d a b : Reg) (p : BitVec 1) (s : State) : Host.Outcome State Fault Refusal :=
  s.issue (.mapwrDistbound d a b p) { steward := true, reads := [a, b] } fun s =>
    let x := s.sr a
    let y := s.sr b
    if 2048 ≤ x.toNat then .fault (limitFault x a 1 0x79) s
    else if 2048 ≤ y.toNat then .fault (limitFault y b 2 0x79) s
    else (s.updFld fun f => { f with bounds := f.bounds ++ [(x.setWidth 11, y.setWidth 10, y.getLsbD 10)] }).publishNow d p

/-- MAPRD (R62, R256). -/
def execMaprd (d a : Reg) (s : State) : Host.Outcome State Fault Refusal :=
  s.issue (.maprd d a) { steward := true, reads := [a] } fun s => .done (s.setPair d (s.fld.readEntry ((s.sr a).toNat % 2048)))

/-- SHOOT (R88, R257): the range goes to every edge agent of the wafer. -/
def execShoot (d a b : Reg) (s : State) : Host.Outcome State Fault Refusal :=
  s.issue (.shoot d a b) { steward := true, reads := [a, b, a + 1] } fun s =>
    let x := s.sr a
    let y := s.sr (a + 1)
    let n := (s.sr b).toNat
    if 2 ^ 27 ≤ y.toNat then .fault (limitFault y (a + 1) 4 0x7B) s
    else
      let lo := (x.toNat + 2 ^ 32 * (y.toNat % 65536)) / 4096 * 4096
      let id := s.tile.net.nextId
      let (s, k) := s.markPlain d
      let sh : Shoot := { id := id, carrel := (y >>> 16).setWidth 11, lo := if n = 0 then 0 else lo,
                          hi := if n = 0 then 2 ^ 48 else min (lo + 4096 * n) (2 ^ 48), missing := List.range 48, steward := s.tile.phys, mark := k }
      .done { s with wafer.shoots := s.wafer.shoots ++ [sh] }

/-- The field that keeps the table of an almanac resource: edge ports' tables stand at field (0, 0) (log entry 12). -/
def State.almanacField (s : State) (r : Nat) : Nat × Nat := if r < 48 then (0, 0) else s.tile.phys.field

/-- ALMSET (R147, R258): held for the next frame; the mirror has it at once. -/
def execAlmset (d a b : Reg) (s : State) : Host.Outcome State Fault Refusal :=
  s.issue (.almset d a b) { steward := true, reads := [a, b] } fun s =>
    let x := s.sr a
    let y := s.sr b
    let slot := x.toNat % 4096
    let r := x.toNat / 65536 % 64
    if 57 ≤ r then .fault (limitFault x a 1 0x7C) s
    else if 65536 ≤ y.toNat then .fault (limitFault y b 2 0x7C) s
    else
      let s := if serviceSlot slot then
          s.updField (s.almanacField r) fun f => { f with almNext := f.almNext ++ [(r, slot, y.setWidth 16 &&& 0x87FF)] }
        else s
      .done (s.tokenNow d 1)

/-- TILEOFF (R260). -/
def execTileoff (d a : Reg) (s : State) : Host.Outcome State Fault Refusal :=
  s.issue (.tileoff d a) { steward := true, reads := [a] } fun s =>
    match s.physOf (s.sr a) with
    | none => .done (s.tokenNow d 2)
    | some p =>
      if p.steward || s.fld.names p then .done (s.tokenNow d 1)
      else
        let r := (s.sr a).getLsbD 22
        let s := s.updTile p fun t => { t with stop.off := true, router.off := t.router.off || r }
        .done ((s.updFld fun f => { f with defects := f.defects ++ [p] }).tokenNow d 0)

/-- ERET (R252): the next step enters the oldest held exception. -/
def execEret (s : State) : Host.Outcome State Fault Refusal :=
  s.issue .eret { steward := true } fun s => .goto s.tile.stw.sepc.toNat { s with tile.stw.active := false }

/-- The registers of ECCRD (R261): the counters and the address of the last corrected error. -/
def View.eccWords (v : View) : Word × Word :=
  (BitVec.ofNat 32 (min v.ce 4095 + 4096 * min v.ice 255 + 2 ^ 20 * min v.ue 255), BitVec.ofNat 32 (8 * v.ceAddr.toNat))

/-- ECCRD (R261): read, and with bit 31 clear, a tile's error counters. -/
def execEccrd (d a : Reg) (s : State) : Host.Outcome State Fault Refusal :=
  s.issue (.eccrd d a) { steward := true, forbidden := true, reads := [a] } fun s =>
    match s.physOf (s.sr a) with
    | none => .fault (limitFault (s.sr a) a 1 0x7E) s
    | some p =>
      let v := (s.tileAt p).view
      let (x, y) := v.eccWords
      let s := if (s.sr a).getLsbD 31 then s.updTile p fun t => { t with view.ce := 0, view.ice := 0, view.ue := 0 } else s
      .done ((s.setS d x).setS (d + 1) y)

end Sys2Proof.Machine
end

