-- ==== Sys2Proof/Machine/Catalogue.lean ====
section
/-!
DEFINITION. Publishes (R61 to R64, R379), shade rotation (R67), migration with its forwarding (R68 to R71, R381, R382), and the name walker
(R64, R182, R183).
-/

namespace Sys2Proof.Machine

/- Publishes. -/

/-- A group's slot as it stands staged for the next generation, or else as it was last published (R255). -/
def Field.latest (f : Field) (g : Nat) : CatSlot := { f with genWord := f.genWord + 1 }.readEntry g

/-- Stage a change of a group's slot on top of what is staged of it (R61 step 1, R253); the group of a spare takes its xr again with its carrel. A slot that would name a
position twice is never published (R60): the change is then made to the slot as it was published, or not at all. -/
def Field.stageChange (f : Field) : SlotChange → Field
  | .place g m p =>
    match [f.latest g, f.readEntry g].find? fun c => (badMember (slotSetPos c m p)).isNone with
    | some c => f.stage g (slotSetPos c m p)
    | none => f
  | .spare g n => f.stage g (slotOnSpare (f.latest g) n)

/-- A group has a slot of a generation. -/
def Field.writtenIn (f : Field) (n : BitVec 16) (g : Nat) : Bool :=
  let e := f.entry g
  slotGen e.a == n || slotGen e.b == n

/-- The groups whose newer slot would fall 16,384 generations behind are written again (R61). -/
def Field.refresh (f : Field) : Field :=
  (List.range 2048).foldl (fun f g =>
    if !f.writtenIn (f.genWord + 1) g && slotGen (f.readEntry g) == f.genWord + 1 - 16384 then f.stage g (f.readEntry g) else f) f

/-- The groups that a publish of generation `n` changes. -/
def Field.changed (f : Field) (n : BitVec 16) : List Nat := (List.range 2048).filter (f.writtenIn n)

/-- The groups that the next generation puts on another nonet. -/
def Field.movers (f : Field) : List Nat :=
  let g := { f with genWord := f.genWord + 1 }
  (List.range 2048).filter fun i => slotNonet (f.readEntry i) != slotNonet (g.readEntry i)

/-- The invalidation of the publish in progress goes out to every tile that has not acknowledged it (R61 step 4, R142, R379; log entry 98). -/
def State.broadcast (s : State) (f : Nat × Nat) : State :=
  match (s.fieldAt f).publish with
  | none => s
  | some x => x.missing.foldl (fun s q =>
      s.emitFrom (s.stewardOf f) { hdr := stewardHdr (s.tileAt q).id.carrel (s.tileAt q).id.name 0 0 0 false, body := .invalidate f.1 f.2 x.gen q, dest := some q }) s

/-- A publish becomes visible (R61 steps 1 to 4) at a field: what is staged, the changes of a request, the refreshed groups and the bounds. In the same
generation the carrels of groups put on another nonet take those tiles, and their xr and distance bound again, and a detour has xr taken again where it may
lie on a route (R72, R140, R145, R382); then the invalidation goes out. The nonets that groups leave for a spare are noted. -/
def State.publish (s : State) (f : Nat × Nat) (q : PubReq) : State :=
  let left := q.slots.filterMap fun x => match x with
    | .spare g _ => some (Phys.ofNonet f (s.nonetOf f g) 0)
    | .place _ _ _ => none
  let s := s.updField f fun fl => (q.slots.foldl Field.stageChange fl).refresh
  let fl := s.fieldAt f
  let gen := fl.genWord + 1
  let moved := fl.movers
  let cs := s.carrels.filter fun c => c.live && moved.any fun g => (s.groupCarrel f g).map (·.num) == some c.num
  let near := s.carrels.filter fun c => c.live && !fl.detoured.isEmpty && c.touches f && !cs.contains c
  let s := s.updField f fun fl => { fl with genWord := gen, bounds := [], detoured := [] }
  let s := moved.foldl (fun s g => match s.groupCarrel f g with
    | some c => s.giveNonet c (nonetTiles f (s.nonetOf f g)) [f]
    | none => s) s
  let s := (cs ++ near).foldl (fun s c => s.stageXr c [f]) s
  let s := cs.foldl State.newBound s
  let s := fl.bounds.foldl (fun s b => s.setBound b.1 b.2.1 b.2.2) s
  let gs := (s.fieldAt f).changed gen
  let cs := gs.filterMap (s.groupCarrel f)
  let names := gs.flatMap fun g => match s.groupCarrel f g with
    | none => []
    | some c => (c.groupNames f g).map fun n => ((BitVec.ofNat 11 c.num : BitVec 11), n)
  let missing := (s.tiles.filter fun t => cs.any fun c => t.inCarrel c.num).map (·.phys)
  (s.updField f fun fl => { fl with publish := some { gen := gen, names := names, missing := missing, marks := q.mark.toList, moves := q.moves, left := left } }).broadcast f

/-- A rotation of the field in a slot, counted from time 0, has not yet reached step 6 (R68). -/
def State.rotating (s : State) (f : Nat × Nat) (k : Nat) : Bool :=
  s.tiles.any fun t => t.phys.field == f && (match t.net.mig with
    | some m => m.rotation == some k && (m.step == .requested || m.step == .halted || m.step == .frozen)
    | none => false)

/-- In a field a MIGR that was issued before place `o` still moves its residency (R253). -/
def State.earlierMigr (s : State) (f : Nat × Nat) (o : Nat) : Bool :=
  s.tiles.any fun t => t.net.mig.any fun k =>
    k.src.field == f && k.order.any (decide <| · < o) && (k.step == .requested || k.step == .halted || k.step == .frozen)

/-- A queued publish must wait: the shared one of a rotation slot, for the end of the slot and its rotations (R68); a MIGR's, for an earlier MIGR and its publish (R253). -/
def State.mustWait (s : State) (f : Nat × Nat) (q : PubReq) : Bool :=
  q.rotation.any (fun k => (s.fieldAt f).slotCount == k || s.rotating f k)
    || q.order.any fun o => s.earlierMigr f o || (s.fieldAt f).queued.any (·.order.any (decide <| · < o))

/-- CATALOGUE_PUBLISH (R61): one publish at a time in a field, the oldest request that need not wait. -/
def execCataloguePublish (s : State) : Host.Outcome State Fault Refusal :=
  s.become fun s =>
    let f := s.tile.phys.field
    let fl := s.fld
    match fl.queued.find? fun q => !s.mustWait f q with
    | none => s
    | some q => if fl.publish.isSome || !fl.served then s else (s.updField f fun fl => { fl with queued := fl.queued.erase q }).publish f q

/-- The field that an event's number names: fx + 8 fy. -/
def fieldOf (n : Nat) : Nat × Nat := (n % 8, n / 8 % 8)

/-- Where a name leads on another virtual channel than the cached entry, the source ends the old one with a marker on each logical channel (R140). -/
def State.endOld (s : State) (e : NameEntry) : State :=
  match s.myCarrel with
  | none => s
  | some c =>
    let was := e.xr || s.tile.net.xr
    if nameWafer e.name ≠ 0 ∨ was = (slotXr (s.slotOf c (nameX e.name) (nameY e.name)) || s.tile.net.xr) then s
    else ([0, 1, 2, 3] : List (BitVec 2)).foldl (fun s ch => s.sendTo s.tile.phys e.phys was { hdr := s.hdr e.name 0, body := .endMarker ch }) s

/-- CATALOGUE_INVALIDATION (R61, R63, R64, R140): the invalidation has reached the tile in focus, whose network interface applies it and acknowledges, whether or not its
residency stands still (R70 has a publish end while arrivals are held); what comes again (R379) changes nothing more. -/
def execCatalogueInvalidation (s : State) : Host.Outcome State Fault Refusal :=
  s.become fun s =>
    match s.reached with
    | none => s
    | some x =>
      match x.body with
      | .invalidate fx fy gen q =>
        let s := s.unsend x
        (match (s.fieldAt (fx, fy)).publish with
         | none => s
         | some p =>
           if p.gen ≠ gen ∨ !p.missing.contains q then s
           else
             let gone (n : Word) : Bool := p.names.contains (s.tile.id.carrel, n)
             let s := (s.tile.net.names.filter fun e => gone e.name).foldl State.endOld s
             let s := { s with tile.net.names := s.tile.net.names.filter fun e => !gone e.name,
                               tile.net.unmapped := s.tile.net.unmapped.filter fun n => !gone n }
             s.updField (fx, fy) fun fl => { fl with publish := some { p with missing := p.missing.erase q } })
      | _ => s

/-- A residency that a publish lands is told so, and of its group's xr (R64): step 7 may follow (R68). -/
def Tile.published (t : Tile) (gen : BitVec 16) (xr : Bool) : Tile :=
  match t.net.mig with
  | some m => if m.step = .copied then { t with id.gen := gen, net.xr := xr, net.mig := some { m with step := .published } } else t
  | none => t

/-- The xr bit of the group on the nonet of a tile. -/
def State.xrAt (s : State) (p : Phys) : Bool :=
  let f := s.fieldAt p.field
  ((f.groupOn p.nonet).map fun g => slotXr (f.readEntry g)).getD false

/-- The residencies that a publish lands resume (R68 step 7). -/
def State.landed (s : State) (p : Publish) : State :=
  s.mapTiles fun t => if p.moves.contains t.phys then t.published p.gen (s.xrAt t.phys) else t

/-- The forwarding entries of the residencies that a publish lands: the publish has completed, and the acting steward's own marker follows what it wrote to
the old tiles (R70). -/
def State.closeOld (s : State) (p : Publish) : State :=
  (s.tiles.filter fun t => t.net.fwd.any fun w => p.moves.contains w.dst).foldl (fun s t => match t.net.fwd with
    | none => s
    | some w =>
      (s.updTile t.phys fun t => { t with net.fwd := some { w with published := true } }).emitFrom (s.stewardOf t.phys.field)
        { hdr := stewardHdr (s.tileAt w.dst).id.carrel (s.tileAt w.dst).id.name 0 0 0 false, body := .endMarker 3, dest := some t.phys }) s

/-- A nonet that its group has left for a spare is turned off, once no forwarding entry lives on it (R382). -/
def State.leaveNonet (s : State) (p : Phys) : State :=
  let f := p.field
  let ps := nonetTiles f p.nonet
  if ps.any fun q => (s.tileAt q).net.fwd.isSome then s
  else
    let s := ps.foldl (fun s q => s.updTile q fun t => { t with stop.off := true }) s
    s.updField f fun fl => { fl with defects := fl.defects ++ ps.filter fun q => !fl.defects.contains q }

/-- PUBLISH_TOKEN (R61 step 5, R70, R382): every tile has acknowledged, in a field that has a steward (R368). -/
def execPublishToken (s : State) : Host.Outcome State Fault Refusal :=
  s.become fun s =>
    let f := s.tile.phys.field
    match s.fld.publish with
    | none => s
    | some p =>
      if p.missing ≠ [] ∨ !s.fld.served then s
      else
        let s := s.updField f fun fl => { fl with publish := none }
        let s := p.marks.foldl (fun s m => s.tokenAt m.1 (some m.2) (p.gen.setWidth 32)) s
        p.left.foldl State.leaveNonet ((s.landed p).closeOld p)

/-- PUBLISH_STALL_TIMEOUT (R379): 0xD0 and another broadcast, and after three more 0xD1, notice 0x6B, and step 7 without the token. -/
def execPublishStallTimeout (s : State) : Host.Outcome State Fault Refusal :=
  s.become fun s =>
    let f := s.tile.phys.field
    match s.fld.publish with
    | none => s
    | some p =>
      if p.missing = [] ∨ p.clk < Config.publishLimit then s
      else if p.stalled then (s.updField f fun fl => { fl with publish := some { p with clk := 0 } }).broadcast f
      else if p.rounds = 0 then
        ((s.updField f fun fl => { fl with publish := some { p with clk := 0, rounds := 1 } }).broadcast f).stewardEvent f 0xD0 0 (p.gen.setWidth 32)
      else if p.rounds < 4 then (s.updField f fun fl => { fl with publish := some { p with clk := 0, rounds := p.rounds + 1 } }).broadcast f
      else
        let info := BitVec.ofNat 32 (p.gen.toNat + 65536 * (f.1 + 8 * f.2))
        let s := s.updField f fun fl => { fl with publish := some { p with clk := 0, stalled := true } }
        let s := (s.stewardEvent f 0xD1 0 (p.gen.setWidth 32)).notifyField f 0x6B 0 info
        s.landed p

/- Shade rotation. -/

/-- The colour's rotation slot of a nonet (R67). -/
def rotationSlot (n : Nat × Nat) : Nat := 0x100 + 0x400 * (n.1 % 2 + 2 * (n.2 % 2))

/-- The first tile of a list that no later one beats. -/
def bestTile (better : Tile → Tile → Bool) : List Tile → Option Tile
  | [] => none
  | t :: ts => match bestTile better ts with
    | none => some t
    | some u => if better u t then some u else some t

/-- Queue a publish: the rotations of one slot share one (R61, R68). -/
def queuePub (q : PubReq) : List PubReq → List PubReq
  | [] => [q]
  | r :: rs => if r.rotation.isSome && r.rotation == q.rotation then { r with slots := r.slots ++ q.slots, moves := r.moves ++ q.moves } :: rs else r :: queuePub q rs

/-- SHADE_ROTATION (R67): the nonet of the tile in focus, once in its rotation slot. A spare that carries a group rotates as the working nonet does for which
it stands (the rule speaks of working nonets: the model's choice, log entry 78). -/
def execShadeRotation (s : State) : Host.Outcome State Fault Refusal :=
  s.become fun s =>
    let f := s.tile.phys.field
    let n := s.tile.phys.nonet
    let fl := s.fld
    let key := 16 + n.1 + 64 * n.2
    match fl.groupOn n with
    | none => s
    | some g =>
      if fl.slot ≠ rotationSlot n ∨ fl.did.contains key ∨ !fl.served then s
      else
        let s := s.updField f fun fl => { fl with did := key :: fl.did }
        let c := fl.readEntry g
        let ts := (nonetTiles f n).map s.tileAt
        let hot := bestTile (fun a b => decide (b.id.temp.toInt < a.id.temp.toInt)) (ts.filter fun t => (memberAt c t.phys.pos).isSome)
        let cool := bestTile (fun a b => decide (a.id.temp.toInt < b.id.temp.toInt))
          (ts.filter fun t => (memberAt c t.phys.pos).isNone && !t.stop.off && !fl.defects.contains t.phys && t.net.fwd.isNone && t.core.phase == .unbound && !s.targeted t.phys)
        match hot, cool with
        | some h, some d =>
          if h.id.temp.toInt - d.id.temp.toInt < 64 || s.immovable h || h.id.pin || h.stop.archived || h.net.fwd.isSome then s
          else if h.core.phase = .unbound then
            match memberAt c h.phys.pos with
            | none => s
            | some m => s.updField f fun fl =>
                { fl with queued := queuePub { slots := [.place g m d.phys.pos], mark := none, rotation := some fl.slotCount } fl.queued }
          else s.updTile h.phys (·.requestMove d.phys none (some fl.slotCount) none)
        | _, _ => s

/- Migration. -/

/-- The members of the replacement that a migration belongs to, or the migrating residency alone (R382). -/
def State.moveGroup (s : State) (t : Tile) (m : Migration) : List Tile :=
  if m.src.nonet = m.dst.nonet then [t]
  else s.tiles.filter fun u => match u.net.mig with
    | some k => k.src.field == m.src.field && k.src.nonet == m.src.nonet && k.dst.nonet == m.dst.nonet
    | none => false

/-- The token of a MIGR is written once no other residency moves for it (R253). -/
def State.moveToken (s : State) (mark : Option (Phys × Nat)) (x : Word) : State :=
  match mark with
  | none => s
  | some (p, id) =>
    if s.tiles.any fun t => (t.net.mig.bind (·.mark)) == some (p, id) then s else s.tokenAt p (some id) x

/-- The copies that residencies of a list of tiles have sent are discarded (R381). -/
def State.dropCopies (s : State) (ps : List Phys) : State :=
  { s with net := s.net.filter fun p => match p.body with
      | .migCopy q => !ps.contains q
      | _ => true }

/-- A migration, with every other of its replacement, ends as if it had never begun (R381): the residencies resume at their old tiles, notices held meanwhile
are applied, the spare's tiles are nobody's again, and its token has status 4. -/
def State.endMove (s : State) (m : Migration) : State :=
  let ps := (s.moveGroup s.tile m).map (·.phys)
  let s := (s.dropCopies ps).atEach (fun s =>
    let held := s.tile.net.heldCancels
    held.foldl State.applyNotice { s with tile.net.mig := none, tile.net.heldCancels := [] }) ps
  let s := if m.src.nonet = m.dst.nonet then s else s.takeBack m.src.field m.dst.nonet
  s.moveToken m.mark (BitVec.ofNat 32 ((s.fieldAt m.src.field).genWord.toNat + 65536 * 4))

/-- MIGRATION_HALT (R68 steps 1 and 2, R130): at a boundary with no urgent handler running and no window open; the store queue is performed. A fault comes
first, and a Faulted residency is not moved (R363), nor then its nonet (R382). -/
def execMigrationHalt (s : State) : Host.Outcome State Fault Refusal :=
  s.become fun s =>
    match s.tile.net.mig with
    | none => s
    | some m =>
      if m.step ≠ .requested || s.urgent || s.tile.core.mask.isSome || s.nextPend.isSome || s.tile.net.holding then s
      else if s.tile.stop.faulted.isSome || !s.fld.served then s.endMove m
      else { s with tile := { s.tile.drain with net.mig := some { m with step := .halted }, core.wait := none, strm.farWord := none } }

/-- MIGRATION_FREEZE_DONE (R68 step 3, R142): the k-step in progress has completed, and the copy of step 4 sets out (one message stands for it, log entry 98). -/
def execMigrationFreezeDone (s : State) : Host.Outcome State Fault Refusal :=
  s.become fun s =>
    match s.tile.net.mig with
    | some m =>
      if m.step = .halted ∧ s.tile.tens.kstep.isNone then
        { s with tile.net.mig := some { m with step := .frozen } }.emitFrom s.tile.phys
          { hdr := { dst := s.tile.id.name, src := s.tile.id.name, scope := 0, cls := 0, prio := 0, urgent := false, carrel := s.tile.id.carrel },
            body := .migCopy s.tile.phys, dest := some m.dst }
      else s
    | none => s

/-- What stays at a tile when its residency has left for tile `d`, with the forwarding entry (R66, R69, R70); the phase bits of the two tiles change places (R164). -/
def Tile.left (t d : Tile) (agents : List Nat) : Tile :=
  { Tile.fresh t.phys with
    task.linePhase := d.task.linePhase,
    id.temp := t.id.temp, router := t.router, stw := t.stw, net.fwd := some { dst := d.phys, agents := agents },
    view.ce := t.view.ce, view.ice := t.view.ice, view.ue := t.view.ue, view.ceAddr := t.view.ceAddr, view.soft := t.view.soft,
    view.bad := t.view.bad, view.badIst := t.view.badIst }

/-- A residency at its new tile (R68 step 4, R71): the name cache starts empty (R64), the words copied have new check bits (R345), direct arrivals
are held (R69). -/
def Tile.moveTo (t d : Tile) (m : Migration) : Tile :=
  { t with
    phys := d.phys, id.temp := d.id.temp, router := d.router, stw := d.stw,
    view.bad := d.view.bad.filter (!t.view.carries ·), view.badIst := [], view.ce := d.view.ce, view.ice := d.view.ice, view.ue := d.view.ue,
    view.ceAddr := d.view.ceAddr, view.soft := d.view.soft.filter fun x => !x.1 && !t.view.carries x.2, net.names := [], net.walks := [], net.unmapped := [], net.holding := true, net.fwd := none,
    net.mig := some { m with step := .copied } }

/-- Two tiles change places. -/
def swapTiles (p q x : Phys) : Phys := if x = p then q else if x = q then p else x

/-- What names the tiles of residencies names the tiles at which they are now. -/
def Carrel.rename (c : Carrel) (r : Phys → Phys) : Carrel :=
  let w (x : Sweep) : Sweep := { x with missing := x.missing.map r, token := x.token.map fun t => (r t.1, t.2) }
  { c with sweeps := c.sweeps.map w, retires := c.retires.map w, lineWaves := c.lineWaves.map fun x => (x.1, x.2.map r) }

/-- A far request or its reply between a tile and edge agent `n` is under way. -/
def Packet.farBetween (p : Packet) (q : Phys) (n : Nat) : Bool :=
  match p.body with
  | .farReq _ _ _ _ _ => p.origin == q && p.dest == some (edgeAgent n)
  | .farReply _ _ _ _ _ => p.origin == edgeAgent n && p.dest == some q && p.way.isSome
  | _ => false

/-- The edge agents that owe far replies to requests from a tile (R70). -/
def State.owing (s : State) (q : Phys) : List Nat :=
  (List.range 48).filter fun n => (s.port n).reqs.any (·.tile == q) || s.net.any (Packet.farBetween · q n)

/-- The copy of a residency lands (R68 steps 4 and 5). -/
def State.land (s : State) (t : Tile) (m : Migration) : State :=
  let s : State := (s.setTile (t.moveTo (s.tileAt m.dst) m)).setTile (t.left (s.tileAt m.dst) (s.owing t.phys))
  { s with carrels := s.carrels.map fun (c : Carrel) => c.rename (swapTiles t.phys m.dst) }

/-- No word of the state being copied fails its check (R381). -/
def Tile.sound (t : Tile) : Bool := (t.view.bad.filter t.view.carries).isEmpty && t.view.badIst.isEmpty

/-- The publish of step 6 for residencies that have landed (R68, R253, R382): rotations of one slot share one. -/
def State.queueMove (s : State) (f : Nat × Nat) (ms : List Migration) : State :=
  match ms with
  | [] => s
  | m :: _ =>
    let fl := s.fieldAt f
    match fl.groupOn m.src.nonet with
    | none => s
    | some g =>
      let q : PubReq :=
        if m.src.nonet = m.dst.nonet then
          { slots := ((memberAt (fl.readEntry g) m.src.pos).map fun k => SlotChange.place g k m.dst.pos).toList, mark := none,
            rotation := m.rotation, moves := [m.dst], order := m.order }
        else { slots := [.spare g m.dst.nonet], mark := none, moves := ms.map (·.dst), order := m.order }
      s.updField f fun fl => { fl with queued := queuePub q fl.queued }

/-- MIGRATION_COPY_LANDED (R68 steps 4 and 5, R253, R382), once the copies have come: a replacement's members land together, and MIGRs land in issue order. -/
def execMigrationCopyLanded (s : State) : Host.Outcome State Fault Refusal :=
  s.become fun s =>
    match s.tile.net.mig with
    | none => s
    | some m =>
      let ts := s.moveGroup s.tile m
      let come (p q : Phys) : Bool := s.net.any fun x => x.body == .migCopy p && x.place.map (·.1) == some q
      let ok (t : Tile) : Bool := match t.net.mig with
        | some k => k.step == .frozen && come t.phys k.dst && t.sound && (s.tileAt k.dst).net.fwd.isNone && (s.tileAt k.dst).core.phase == .unbound
        | none => false
      if !s.fld.served ∨ !ts.all ok ∨ m.order.any (s.earlierMigr m.src.field) then s
      else
        let s := ts.foldl (fun (s : State) t => match t.net.mig with
          | some k => s.land t k
          | none => s) (s.dropCopies (ts.map (·.phys)))
        s.queueMove m.src.field (ts.filterMap (·.net.mig))

/-- MIGRATION_RESUME (R68 step 7, R40): held notices are applied before the first instruction, and slots are evaluated again (R163). -/
def execMigrationResume (s : State) : Host.Outcome State Fault Refusal :=
  s.become fun s =>
    match s.tile.net.mig with
    | none => s
    | some m =>
      if m.step ≠ .published then s
      else
        let held := s.tile.net.heldCancels
        let s := { s with tile.net.mig := none, tile.net.heldCancels := [] }
        let s := held.foldl State.applyNotice s
        let s := ((List.range 16).foldl (fun s i => s.evalSlots (BitVec.ofNat 4 i)) s).retryFires
        s.moveToken m.mark (s.tile.id.gen.setWidth 32)

/-- The hard fault of a word that stopped a migration (R381). -/
def Tile.badState (t : Tile) : Option FaultRec :=
  match t.view.bad.filter t.view.carries, t.view.badIst with
  | w :: _, _ =>
    let a := (t.view.pageOfWord w).map fun p => p.vbase + (8 * w - p.pbase)
    some { code := 0x80, hard := true, agent := 6, addr := BitVec.ofNat 32 (a.getD 0), info := BitVec.ofNat 32 (w + 2 ^ 14 * 6) }
  | [], w :: _ => some { code := 0x81, hard := true, agent := 6, addr := BitVec.ofNat 32 (4 * w), info := BitVec.ofNat 32 w }
  | [], [] => none

/-- MIGRATION_ABORT (R381, R382): in step 4, for the loss of both routes (`n` 0) or an uncorrectable word (`n` 1); a replacement is aborted
as a whole. Notices held meanwhile are applied. -/
def execMigrationAbort (s : State) : Host.Outcome State Fault Refusal :=
  s.become fun s =>
    match s.tile.net.mig with
    | none => s
    | some m =>
      if m.step ≠ .frozen ∨ (s.inp.n = 1 ∧ s.tile.sound) then s
      else
        let s := s.stewardEvent m.src.field 0xD3 0 (if s.inp.n = 1 then 1 else 0)
        let s := match s.tile.badState with
          | some b => if s.inp.n = 1 then { s with tile := s.tile.addPend b } else s
          | none => s
        s.endMove m

/- Forwarding. -/

/-- The packets that have arrived at a tile, and the number of an arrival. -/
def State.arrived (s : State) (q : Phys) : List Packet := s.net.filter fun p => p.place.map (·.1) == some q
def arrivalNo (p : Packet) : Nat := (p.place.map (·.2)).getD 0

/-- A marker that ends the traffic addressed to the old tile itself (R70). -/
def forOld (p : Packet) : Bool := match p.body with
  | .endMarker _ => p.dest.isSome
  | _ => false

/-- FORWARDED_ARRIVAL (R69): of what has reached the old tile, the oldest arrival goes on to the new tile on the control channel. -/
def execForwardedArrival (s : State) : Host.Outcome State Fault Refusal :=
  s.become fun s =>
    let here := s.tile.phys
    match s.tile.net.fwd, s.inp.pkt with
    | some w, some p =>
      let ps := (s.arrived here).filter fun q => !forOld q
      if !ps.contains p ∨ ps.any (fun q => decide (arrivalNo q < arrivalNo p)) then s
      else
        { s.putPacket p { p with
            dest := if p.dest = some here then some w.dst else p.dest, place := none, fwd := true,
            way := some { id := s.serial, src := here, dst := w.dst, vc := 4, fwd := true, left := p.len + 1 } } with serial := s.serial + 1 }
    | _, _ => s

/-- The tiles that routes of a carrel may cross on their way to one of its tiles: the rectangle round its nonets. -/
def State.hull (s : State) (c : Carrel) (p : Phys) : Bool :=
  let ps := c.groups.flatMap fun x => nonetTiles x.1 (s.nonetOf x.1 x.2)
  ps.any (decide <| ·.px ≤ p.px) && ps.any (decide <| p.px ≤ ·.px) && ps.any (decide <| ·.py ≤ p.py) && ps.any (decide <| p.py ≤ ·.py)

/-- A message of a channel on its way to a coordinate, that no forwarding entry has sent. -/
def onWayTo (q : Phys) (ch : BitVec 2) (p : Packet) : Option Way :=
  p.way.filter fun w => w.dst == q && !w.fwd && p.lch w == ch.toNat && !forOld p

/-- Flits of a channel to a coordinate stand in a router, or are on the wires to it. -/
def State.holds (s : State) (t : Tile) (q : Phys) (ch : BitVec 2) : Bool :=
  let of (x : Flit) : Bool := x.hdr.dst == q && !x.hdr.fwd && x.hdr.lch == ch && s.under x
  t.router.bufs.any (fun x => of x.2) || t.router.links.toList.any (·.accepted.any of)
    || (around t.phys).any fun y => ((s.tileAt y.1).router.link (y.2 - 1)).unacked.any fun g => g.flits.any fun z => z.any fun v => of v.2.1

/-- The drain wave of a channel passes the router in focus on its way to the old tile `q` (R70): the invalidation has been applied there and no send made before
is left at its network interface, nor a flit in the router, and the wave has passed every neighbour whose route leads through it. It reaches the old tile behind all
traffic of its channel, by whatever detour that comes (R144). -/
def State.wavePasses (s : State) (q : Phys) (w : Forward) (ch : BitVec 2) : Bool :=
  match s.carrel (s.tileAt w.dst).id.carrel.toNat with
  | none => true
  | some c =>
    let p := s.tile.phys
    let applied := w.published || (s.fieldAt q.field).publish.any fun x => x.moves.contains w.dst && !x.missing.contains p
    let sent := s.net.all fun x => (onWayTo q ch x).all fun v => home v.src != p || x.len < v.sent
    let upstream := (around p).filter fun y => s.hull c y.1 && ((s.tileAt y.1).hop q []).bind (fun h => physOver y.1 h.1) == some p
    applied && sent && !s.holds s.tile q ch && upstream.all (fun y => w.passed.contains (ch, y.1))
      && (p != q || s.net.all fun x => (onWayTo q ch x).isNone)

/-- A marker at the tile in focus, on a channel. -/
def State.marked (s : State) (ch : BitVec 2) : State :=
  match s.tile.net.fwd with
  | none => s
  | some w => { s with tile.net.fwd := some { w with markers := if w.markers.contains ch then w.markers else w.markers ++ [ch] } }

/-- END_MARKER (R70, R140). Given a message, a marker that has arrived: the acting steward's or an edge agent's at the old tile, or a source's that has changed its
virtual channel. With `k` = 1 edge agent `n` sends its marker to the old tile `word`, to which it owes no reply any more. Else the drain wave of channel `n`, 0 to 2, passes
the router in focus on its way to the old tile `word`, or reaches it. -/
def execEndMarker (s : State) : Host.Outcome State Fault Refusal :=
  s.become fun s =>
    let q := Phys.ofOperand s.inp.word
    let n := s.inp.n
    match s.inp.pkt with
    | some p =>
      (match p.body with
       | .endMarker ch =>
         if forOld p then
           if !(s.arrived s.tile.phys).contains p then s
           else if ch = 3 then (s.unsend p).marked 3
           else match s.tile.net.fwd with
             | none => s.unsend p
             | some w => { s.unsend p with tile.net.fwd := some { w with agents := w.agents.filter fun a => edgeAgent a != p.origin } }
         else (match s.arriving with
           | some p => s.unsend p
           | none => s)
       | _ => s)
    | none =>
      match (s.tileAt q).net.fwd with
      | none => s
      | some w =>
        if s.inp.k = 1 then
          if !w.agents.contains n ∨ (s.port n).reqs.any (·.tile == q) ∨ s.net.any (fun p => Packet.farBetween p q n && p.origin == q)
              ∨ s.net.any (fun p => forOld p && p.origin == edgeAgent n && p.dest == some q) then s
          else s.emitFrom (edgeAgent n)
            { hdr := stewardHdr (s.tileAt w.dst).id.carrel (s.tileAt w.dst).id.name 0 0 0 false, body := .endMarker 1, dest := some q }
        else
          let ch : BitVec 2 := BitVec.ofNat 2 (n % 3)
          if w.passed.contains (ch, s.tile.phys) ∨ !s.wavePasses q w ch then s
          else if s.tile.phys = q then s.marked ch
          else s.updTile q fun t => { t with net.fwd := some { w with passed := w.passed ++ [(ch, s.tile.phys)] } }

/-- FORWARDING_RETIRE (R70, R145, R382): the publish has completed, every marker has come, and what had arrived is sent on; the final marker follows it. A spare that the
group has left is nobody's again. -/
def execForwardingRetire (s : State) : Host.Outcome State Fault Refusal :=
  s.become fun s =>
    let here := s.tile.phys
    match s.tile.net.fwd with
    | none => s
    | some w =>
      if !w.published ∨ w.markers.length < 4 ∨ w.agents ≠ [] ∨ s.arrived here ≠ [] then s
      else
        let d := s.tileAt w.dst
        let s := { s with tile.net.fwd := none }.emitFrom here
          { hdr := { dst := d.id.name, src := d.id.name, scope := 0, cls := 0, prio := 0, urgent := false, carrel := d.id.carrel },
            body := .finalMarker, dest := some w.dst }
        if w.dst.nonet = here.nonet then s
        else
          let s := match (s.ownedNow here).bind s.carrel with
            | some c => s.loans c
            | none => s
          s.leaveNonet here

/-- FINAL_MARKER (R70): behind all forwarded traffic, it releases the arrivals held at the new tile. -/
def execFinalMarker (s : State) : Host.Outcome State Fault Refusal :=
  s.become fun s =>
    match s.inp.pkt with
    | none => s
    | some p =>
      let here := s.tile.phys
      if p.body ≠ .finalMarker ∨ !(s.arrived here).contains p
          ∨ s.net.any (fun q => q.fwd && (q.place.map (·.1) == some here || q.way.any (·.dst == here))) then s
      else { s.unsend p with tile.net.holding := false }

/- The name walker. -/

/-- A walker lane starts a walk for the carrel that owns its slot, at most one in 200 clk (R148). -/
def Field.walkerFree (f : Field) (lane : Nat) (c : BitVec 11) : Bool :=
  f.owns (49 + lane) c && decide (((f.walked.find? (·.1 = lane)).map fun x => x.2 + 200).getD 0 ≤ f.clk)

/-- NAME_WALK_DONE (R62, R64, R148, R374): lane `n` of the field that holds the entry walks name `word`, which fills the cache, least recently used out first, or is
unmapped. A name on another wafer leads to its egress port (R183): it is walked at the tile's own field. A field without steward service leaves a walk waiting (R368). -/
def execNameWalkDone (s : State) : Host.Outcome State Fault Refusal :=
  s.become fun s =>
    let n := s.inp.word
    let lane := s.inp.n % 4
    match s.myCarrel with
    | none => s
    | some c =>
      let f := if nameWafer n ≠ 0 then s.tile.phys.field else (c.place (nameX n) (nameY n)).1
      let fl := s.fieldAt f
      if !s.tile.net.walks.contains n ∨ !fl.served ∨ !fl.walkerFree lane s.tile.id.carrel then s
      else
        let done := { s with tile.net.walks := s.tile.net.walks.filter (· ≠ n) }.updField f fun fl => { fl with walked := putAt lane fl.clk fl.walked }
        let fill (p : Phys) (g : BitVec 16) (xr : Bool) : State :=
          { done with tile.net.names := (({ name := n, phys := p, gen := g, xr := xr } : NameEntry) :: s.tile.net.names).take 64 }
        if nameWafer n ≠ 0 then fill (c.egress s.tile.id.name n) 0 true
        else
          let e := s.slotOf c (nameX n) (nameY n)
          match s.locate c (nameX n) (nameY n) with
          | some p => fill p (slotGen e) (slotXr e)
          | none => { done with tile.net.unmapped := s.tile.net.unmapped ++ [n] }

end Sys2Proof.Machine
end

