-- ==== Sys2Proof/Machine/Carrels.lean ====
section
/-!
DEFINITION. Carrels from the host (R17 to R19, R180): creation, destruction, archive and restore (R186 to R188), and ARCHIVE (R259).
-/

namespace Sys2Proof.Machine

/- The host's payloads. -/

/-- The edge SRAM of an upstream port (R172, R174). -/
def State.edgeMem (s : State) (p : Nat) : Memory := ((s.wafer.edge.find? (·.1 = p)).map (·.2)).getD []
def State.updEdge (s : State) (p : Nat) (f : Memory → Memory) : State := { s with wafer.edge := putAt p (f (s.edgeMem p)) s.wafer.edge }

/-- The management queue of an upstream port (R174). -/
def State.mqueue (s : State) (p : Nat) : HostQueue :=
  ((s.wafer.mqueues.find? (·.1 = p)).map (·.2)).getD { off := 0, slots := 256, port := p }
def State.updMqueue (s : State) (p : Nat) (f : HostQueue → HostQueue) : State := { s with wafer.mqueues := putAt p (f (s.mqueue p)) s.wafer.mqueues }

/-- An n-byte little-endian number of a payload. -/
def field (bs : List Byte) (off n : Nat) : Nat := leNat ((bs.drop off).take n)

/-- The oldest forwarded payload of a port's management queue, when it has a kind (R177). -/
def State.request (s : State) (p kind : Nat) : Option (List Byte) :=
  match (s.mqueue p).fwd with
  | b :: _ => if field b 0 1 = kind then some b else none
  | [] => none

/-- A request has been taken. -/
def State.took (s : State) (p : Nat) : State := s.updMqueue p fun q => { q with fwd := q.fwd.drop 1 }

/-- The bytes of a payload from `a` to `b` − 1 are 0. -/
def zeros (p : List Byte) (a b : Nat) : Bool := field p a (b - a) == 0

/-- The bytes of a management payload that R177 does not name are 0. -/
def requestForm (b : List Byte) : Bool := zeros b 1 4 && zeros b 8 240

/-- The answer to a management request (R178). -/
def State.answerMgmt (s : State) (p kind code carrel : Nat) (arg : Word) : State :=
  s.notifyMgmt p (plainNotice kind code carrel arg (s.fieldAt (0, 0)).ns)

/- Creation records (R180). -/

/-- The downstream ports. -/
def State.downstream (s : State) : List Nat := (List.range 48).filter fun p => !s.wafer.strapped.contains p

/-- Bytes of a queue in the pool: the control block and the ring, in 4 KiB units (R174). -/
def queueBytes (slots : Nat) : Nat := 4096 + (slots * 256 + 4095) / 4096 * 4096

/-- The lowest free offset of the queue pool of a port with room for n bytes (R174). -/
def State.poolOffset (s : State) (p n : Nat) : Option Nat :=
  ((List.range 3840).map fun i => 0x100000 + 4096 * i).find? fun o => decide (o + n ≤ 0x1000000) &&
    s.carrels.all fun c => !c.live || c.queue.port != p || decide (o + n ≤ c.queue.off) || decide (c.queue.off + queueBytes c.queue.slots ≤ o)

/-- The lowest free carrel number (R180). -/
def State.freeNumber (s : State) : Option Nat := (List.range 2048).find? fun n => s.carrels.all (·.num ≠ n)

/-- A creation record's carrel, with its number and queue offset still to be given. -/
def recordCarrel (m : Memory) (a : Nat) : Carrel :=
  let w (off : Nat) : Nat := m.getN (a + off) 4
  let d (off : Nat) : Nat := m.getN (a + off) 8 % 2 ^ 47
  { num := 0, key := BitVec.ofNat 32 (w 4), nw := w 0 % 4096, k := w 0 / 4096 % 4096, ox := w 8 % 1024, oy := w 8 / 1024 % 1024,
    w := w 12 % 2048, h := w 12 / 2048 % 2048, root := d 32, spill := d 40, archive := d 48,
    ports := (List.range (w 56 % 64)).map fun i => m.getN (a + 64 + i) 1 % 64,
    extents := ((List.range 16).map fun x => (m.getN (a + 112 + 16 * x) 8 % 2 ^ 47 / 4096 * 4096, w (120 + 16 * x), BitVec.ofNat 2 (w (124 + 16 * x)))).filter
      fun e => e.2.1 != 0,
    wlist := (List.range (w 0 % 4096)).map fun i => m.getN (0x20000 + w 368 + 2 * i) 2,
    msix := BitVec.ofNat 8 (w 16 / 65536),
    queue := { slots := 2 ^ (w 16 / 256 % 16), port := w 16 % 64 },
    ring := { base := m.getN (a + 24) 8, slots := 2 ^ (6 + w 16 / 4096 % 16) } }

/-- Code 1 of R180: every reserved bit is 0 and every value in range, and the record and its wafer list lie in the staging area (R174). -/
def State.recordForm (s : State) (m : Memory) (a : Nat) : Bool :=
  let w (off : Nat) : Nat := m.getN (a + off) 4
  let d (off : Nat) : Nat := m.getN (a + off) 8
  let n := w 56 % 64
  decide (a % 16 = 0) && decide (a + 372 ≤ 0x100000) && decide (0x20000 + w 368 + 2 * (w 0 % 4096) ≤ 0x100000) && decide (w 0 < 2 ^ 24) && decide (1 ≤ w 0 % 4096) && decide (w 0 / 4096 < w 0 % 4096) && decide (w 8 < 2 ^ 20)
    && decide (w 12 < 2 ^ 22) && decide (w 16 < 2 ^ 24) && decide (w 16 / 64 % 4 = 0) && s.wafer.strapped.contains (w 16 % 64)
    && decide (4 ≤ w 16 / 256 % 16) && decide (w 16 / 256 % 16 ≤ 12) && decide (w 16 / 4096 % 16 ≤ 10) && decide (w 20 = 0)
    && decide (d 24 % 64 = 0) && decide (d 32 < 2 ^ 47) && decide (d 40 < 2 ^ 47) && decide (d 48 < 2 ^ 47)
    && decide (w 56 < 64) && decide (w 60 = 0) && decide (1 ≤ n) && decide (n ≤ s.downstream.length)
    && ((List.range 48).all fun i => let b := m.getN (a + 64 + i) 1
        if i < n then s.downstream.contains b else b == 0)
    && (List.range 16).all fun x => decide (d (112 + 16 * x) < 2 ^ 47) && decide (d (112 + 16 * x) % 4096 = 0) && decide (w (124 + 16 * x) < 4)

/-- Code 2 of R180: the rectangle is aligned and large enough (R17), on the wafer, and wholly free. -/
def State.rectFree (s : State) (c : Carrel) : Bool :=
  decide (c.ox % 4 = 0) && decide (c.oy % 2 = 0) && decide (c.w % 4 = 0) && decide (c.h % 2 = 0) && decide (32 ≤ c.w) && decide (16 ≤ c.h)
    && decide (c.ox + c.w ≤ 1024) && decide (c.oy + c.h ≤ 1024)
    && s.carrels.all fun d => !d.live || decide (c.ox + c.w ≤ d.ox) || decide (d.ox + d.w ≤ c.ox) || decide (c.oy + c.h ≤ d.oy) || decide (d.oy + d.h ≤ c.oy)

/-- Code 3 of R180: no extent overlaps another live carrel's, and root, spill and archive areas lie inside extents (R186). -/
def State.extentsOk (s : State) (c : Carrel) : Bool :=
  (c.extents.all fun e => s.carrels.all fun d => !d.live || d.extents.all fun g =>
      decide (e.1 + 4096 * e.2.1 ≤ g.1) || decide (g.1 + 4096 * g.2.1 ≤ e.1))
    && c.extentOk c.root 32768 0 && c.extentOk c.spill (c.w * c.h * 98304) 0 && c.extentOk c.archive (c.w * c.h * 131072 + 65536) 0

/-- Code 4 of R180: this wafer stands at position k of the list, and no wafer is named twice. -/
def waferListOk (c : Carrel) : Bool := decide (c.wlist[c.k]? = some Config.waferId.toNat) && decide c.wlist.Nodup

/-- The checks of R180 in the order of their codes, of which the first that fails answers (the model's choice, log entry 106); with none failing, the number and the queue
offset. -/
def State.checkRecord (s : State) (m : Memory) (a : Nat) : Sum Nat (Nat × Nat) :=
  let c := recordCarrel m a
  if !s.recordForm m a then .inl 1
  else if !s.rectFree c then .inl 2
  else if !s.extentsOk c then .inl 3
  else if !waferListOk c then .inl 4
  else match s.freeNumber, s.poolOffset c.queue.port (queueBytes c.queue.slots) with
    | some n, some o => .inr (n, o)
    | _, _ => .inl 5

/- Creation. -/

/-- A tile on which no residency is bound and whose SRAM holds zeros (R19, R56): what belongs to the tile itself stays. -/
def Tile.emptied (t : Tile) : Tile :=
  { Tile.fresh t.phys with
    id.temp := t.id.temp, router := t.router, stw := t.stw, stop.off := t.stop.off, net.fwd := t.net.fwd, net.nextId := t.net.nextId,
    task.linePhase := t.task.linePhase, view.ce := t.view.ce, view.ice := t.view.ice, view.ue := t.view.ue, view.ceAddr := t.view.ceAddr }

/-- The tiles of the nonets that carry a carrel's groups, and with them those of the failed working nonets that carried one (R145). -/
def State.carrelTiles (s : State) (c : Carrel) : List Phys := c.groups.flatMap fun x => nonetTiles x.1 (s.nonetOf x.1 x.2)
def State.ownedTiles (s : State) (c : Carrel) : List Phys :=
  s.carrelTiles c ++ c.groups.flatMap fun x => if s.nonetOf x.1 x.2 = fieldMap x.2 then [] else nonetTiles x.1 (fieldMap x.2)

/-- The fields that a carrel touches (R19). -/
def Carrel.fields (c : Carrel) : List (Nat × Nat) := allFields.filter c.touches

/-- The slot of a group as creation builds it (R180): on the field map's nonet or the replacement's, with the positions of bring-up; where one of those
tiles has been turned off since, the positions stay as they are (log entry 79). -/
def State.builtSlot (s : State) (f : Nat × Nat) (g : Nat) : CatSlot :=
  let e := (s.fieldAt f).readEntry g
  let n := if slotSpare e then slotNonet e else fieldMap g
  let c := mkSlot n bringUpPos 0 (slotSpare e) (slotXr e)
  if (List.range 8).any fun m => (s.tileAt (Phys.ofNonet f n (slotPos c m))).stop.off then e else c

/-- Build the catalogue entries of a carrel's groups, in the present generation of their field (R180). -/
def State.buildEntries (s : State) (c : Carrel) : State :=
  c.groups.foldl (fun s x =>
    let e := s.builtSlot x.1 x.2
    s.updField x.1 fun f => f.setEntry x.2 { a := slotSetGen e f.genWord, b := slotSetGen e (f.genWord - 1) }) s

/- Grants (R149). -/

/-- The service slots of a frame in ascending order, and in bit-reversed order. -/
def serviceSlots : List Nat := (List.range 4096).filter serviceSlot
def bitReversed (n : Nat) : Nat := (List.range 12).foldl (fun a i => 2 * a + n / 2 ^ i % 2) 0
def spreadSlots : List Nat := ((List.range 4096).map bitReversed).filter serviceSlot

/-- No carrel owns a slot of a resource, now or from the next frame on. -/
def Field.slotFree (f : Field) (r t : Nat) : Bool := ({ f with almanac := f.almNext.foldl putEntry f.almanac }.owner r t).isNone

/-- An entry that makes a carrel the owner of a slot (R147). -/
def ownEntry (r t num : Nat) : Nat × Nat × BitVec 16 := (r, t, BitVec.ofNat 16 (num % 2048 + 32768))

/-- Grant a carrel `k` free slots of a resource, evenly spaced: the first free ones in bit-reversed order. -/
def Field.grantSpread (f : Field) (r num k : Nat) : Field :=
  { f with almNext := f.almNext ++ ((spreadSlots.filter (f.slotFree r)).take k).map fun t => ownEntry r t num }

/-- The carrels of a field share its walker lanes equally: the service slots in bit-reversed order go to them in turn. -/
def State.shareWalkers (s : State) (f : Nat × Nat) : State :=
  let cs := (s.carrels.filter fun c => c.live && c.touches f).map (·.num)
  if cs = [] then s
  else s.updField f fun fl => { fl with almNext := fl.almNext ++
    ([49, 50, 51, 52].flatMap fun r => spreadSlots.zipIdx.map fun x => ownEntry r x.1 (cs.getD (x.2 % cs.length) 0)) }

/-- The first run of 36 free service slots, lane by lane. -/
def Field.freeRun (f : Field) : Option (Nat × List Nat) :=
  ([53, 54, 55, 56].flatMap fun r => (List.range 3549).map fun i => (r, (serviceSlots.drop i).take 36)).find? fun x => x.2.all (f.slotFree x.1)

/-- Grant a carrel a transit run, in the tables of every field; where no room is left in the frame, its run comes with the transit cycle (`State.cycleTables`). -/
def State.grantRun (s : State) (num : Nat) : State :=
  match (s.fieldAt (0, 0)).freeRun with
  | none => s
  | some (r, ts) => allFields.foldl (fun s f => s.updField f fun fl => { fl with almNext := fl.almNext ++ ts.map fun t => ownEntry r t num }) s

/-- The numbers of the carrels that hold grants. -/
def State.liveNums (s : State) : List Nat := (s.carrels.filter (·.live)).map (·.num)

/-- The transit tables of a frame of the transit cycle (R149): of the 36-slot runs 99 fit into a lane's frame and 396 into a frame, and where there are more carrels the
frames take them in turn, so that a cycle of 16 frames holds a run of each (log entry 80). -/
def State.cycleTables (s : State) (frame : Nat) : List (Nat × Nat × BitVec 16) :=
  let cs := s.liveNums
  let m := max 1 ((cs.length + 395) / 396)
  [53, 54, 55, 56].flatMap fun r => serviceSlots.zipIdx.map fun x =>
    match if x.2 < 3564 then cs[396 * (frame % 16 % m) + 99 * (r - 53) + x.2 / 36]? else none with
    | some n => ownEntry r x.1 n
    | none => (r, x.1, 0)

/-- Some carrel has no transit run in a field's tables. -/
def State.runless (s : State) (f : Field) : Bool :=
  s.liveNums.any fun n => !f.almanac.any fun x => decide (53 ≤ x.1) && decide (x.1 ≤ 56) && x.2.2 == BitVec.ofNat 16 (n % 2048 + 32768)

/-- During a frame Genesh writes the transit tables of the next by ALMSET, where not every carrel's run fits into one frame (R149). -/
def State.writeCycle (s : State) (f : Nat × Nat) : State :=
  let fl := s.fieldAt f
  if fl.cycled || s.runless fl then
    s.updField f fun fl => { fl with almNext := s.cycleTables (fl.frame + 1), cycled := decide (396 < s.liveNums.length) }
  else s

/-- The default grants of a carrel (R149): slots of its entry ports and its upstream port, of the steward service and the walker lanes of its fields, and a
transit run. -/
def State.grant (s : State) (c : Carrel) : State :=
  let s := ((c.ports ++ [c.queue.port]).eraseDups).foldl (fun s r => s.updField (0, 0) (·.grantSpread r c.num (1 + Config.grantSlots r c.num))) s
  let s := c.fields.foldl (fun s f => (s.updField f (·.grantSpread 48 c.num (1 + Config.grantSlots 48 c.num))).shareWalkers f) s
  s.grantRun c.num

/-- A carrel's grants end; those that remain share the walker lanes (R149, R187). -/
def State.ungrant (s : State) (c : Carrel) : State :=
  let keep (x : Nat × Nat × BitVec 16) : Bool := x.2.2.toNat % 2048 != c.num
  let s := { s with flds := s.flds.map fun f => { f with almanac := f.almanac.filter keep, almNext := f.almNext.filter keep } }
  c.fields.foldl State.shareWalkers s

/-- The books of a carrel on this wafer are set up (R19, R180): its catalogue entries, ownership, xr with lent tiles, distance bound, grants, the empty
host queue. -/
def State.install (s : State) (c : Carrel) : State :=
  let s := { s with carrels := s.carrels ++ [c] }.buildEntries c
  let ps := s.carrelTiles c
  let s := s.mapTiles fun t => if ps.contains t.phys then t.emptied else t
  let s := (((s.give c (s.ownedTiles c)).stageXr c c.fields).newBound c).grant c
  s.updEdge c.queue.port fun m => m.clear c.queue.off (queueBytes c.queue.slots)

/-- The carrel of a record, with its number, queue offset and peer routes (R182). -/
def newCarrel (m : Memory) (a n o : Nat) : Carrel :=
  let c := recordCarrel m a
  { c with num := n, queue := { c.queue with off := o },
           peers := ((List.range c.nw).filter (0 < ·)).map fun w => (w, ((Config.peerList c.k w).take 8).map (· % 144)) }

/-- A carrel becomes Active, and notice 0x84 follows (R180). -/
def State.activate (s : State) (c : Carrel) (p : Nat) : State :=
  (s.updCarrel c.num fun k => { k with state := .active, sizes := (List.range c.nw).map fun i => (field s.inp.bytes (4 * i) 2, field s.inp.bytes (4 * i + 2) 2) }).answerMgmt p 0x84 0 c.num (BitVec.ofNat 32 c.queue.off)

/-- CREATE_CARREL (R180): the oldest request of port `n`'s management queue, of kind 0x20. A carrel that spans wafers becomes Active when it is carrel `m` and
`ok` says that every other wafer has created it and its peer routes are installed; `bytes` give the width and height of its part on each, two bytes each. -/
def execCreateCarrel (s : State) : Host.Outcome State Fault Refusal :=
  s.become fun s =>
    let p := s.inp.n
    match if s.inp.ok then s.carrel s.inp.m else none with
    | some c => (match c.state with
      | .creating q => s.activate c q
      | _ => s)
    | none =>
      match s.request p 0x20 with
      | none => s
      | some b =>
        let s := s.took p
        let a := 0x20000 + field b 4 4
        let m := s.edgeMem p
        if !requestForm b then s.answerMgmt p 0x8F 1 0 0
        else match s.checkRecord m a with
          | .inl code => s.answerMgmt p 0x8F code 0 0
          | .inr (n, o) =>
            let c := newCarrel m a n o
            if c.nw = 1 then (s.install c).activate c p else s.install { c with state := .creating p }

/- The end of carrels and gangs. -/

/-- The completion message of a gang (R57), but for its end time. -/
def completion (stage : BitVec 8) (status reason gang wafer : Nat) (tag : Word) (x y start : Nat) : List Byte :=
  natBytes 4 (0x81 + 256 * stage.toNat + 65536 * status + 2 ^ 18 * reason) ++ natBytes 4 (gang + 65536 * wafer) ++ natBytes 4 tag.toNat
    ++ natBytes 4 (x + 1024 * y) ++ natBytes 8 start

/-- A member of a retired gang (R56): the tile is Unbound; the notices still to be acknowledged stay with it, and its cancel list is the carrel's when a residency
is bound there again. -/
def Tile.unbound (t : Tile) : Tile :=
  { t.emptied with id.carrel := t.id.carrel, task.drops := t.task.drops, net.names := t.net.names, comb := t.comb, net.holding := t.net.holding }

/-- What a retired residency has under way is no longer its own: nothing counts an acknowledgement, and far replies are taken by nobody. -/
def State.orphan (s : State) (c : BitVec 11) (n : Word) : State :=
  let mine (h : Hdr) : Bool := h.carrel == c && h.src == n
  let net := (s.net.filter fun (p : Packet) => !(p.hdr.carrel == c && p.hdr.dst == n && pktChannel p == 1)).map fun (p : Packet) =>
    if mine p.hdr then { p with orphan := true, body := match p.body with
      | .farReq _ va len w bs => .farReq .gone va len w bs
      | b => b } else p
  { s with net := net, wafer.ports := s.wafer.ports.map fun (q : EdgePort) =>
      { q with reqs := q.reqs.map fun (r : FarReq) => if r.carrel = c ∧ r.name = n then { r with use := .gone } else r } }

/-- A gang's retirement (R56): the tiles on which its members are bound, its rectangle and number, which are free from now on, its fresh scope, its completion message
with this step's time as the end time (the model's choices, log entries 99 and 100). A fresh scope that the cancel list counts is closed by retire notices, and the message waits
for them (R332); its tiles acknowledge the cancels under it that have still to reach them. Of a gang that another wafer's home steward leads, that steward closes the
scope and writes the message. -/
def State.retireGang (s : State) (c : Carrel) (g : Gang) (status : Nat) : State :=
  let ts := s.tiles.filter fun t => t.inCarrel c.num && t.id.gang.toNat == g.num
  let s := if g.fresh then s.atEach (·.absorbSweeps g.scope) (ts.map (·.phys)) else s
  let s := ts.foldl (fun s t => (s.updTile t.phys Tile.unbound).orphan t.id.carrel t.id.name) s
  let s := s.updCarrel c.num fun k => { k with gangs := k.gangs.filter (·.num ≠ g.num) }
  let note := completion g.launch.stage status 0 g.num g.wafer g.launch.tag g.x g.y g.start
  if !g.led then s
  else if g.fresh && c.listed.any (fun y => isDescendant y g.scope) then s.startRetireOf c.num g.scope 0 none (some note) none
  else
    let s := if g.fresh then s.updCarrel c.num fun k => { k with kids := k.kids &&& ~~~(BitVec.ofNat 16 (2 ^ scopeIndex g.scope)) } else s
    s.notify c.num (note ++ natBytes 8 (s.fieldAt c.home).ns)

/-- A carrel gives up its rectangle, number, grants and pool (R19, R187); no publish waits for its tiles any more. -/
def State.uninstall (s : State) (c : Carrel) : State :=
  let ps := s.carrelTiles c
  let s := { s with carrels := s.carrels.map fun (k : Carrel) => if k.num = c.num then { k with state := .archived } else k }.ungrant c
  let s := s.mapTiles fun t =>
    let o := t.router.own
    let t := if ps.contains t.phys then t.emptied else t
    { t with router.own := o.map fun (e : Owner) => if e.carrel = BitVec.ofNat 11 c.num then { e with valid := false } else e }
  let s := { s with flds := s.flds.map fun (f : Field) => { f with publish := f.publish.map fun (x : Publish) => { x with missing := x.missing.filter fun p => !ps.contains p } } }
  { s with net := s.net.filter fun p => p.hdr.carrel ≠ BitVec.ofNat 11 c.num }

/-- DESTROY_CARREL (R19, R187): first every gang of the carrel named by the oldest request of port `n` is retired as cancelled; the carrel
goes once its notices are written. A destroy waits for an archive in progress; an archived carrel's region is released. -/
def execDestroyCarrel (s : State) : Host.Outcome State Fault Refusal :=
  s.become fun s =>
    let p := s.inp.n
    match s.carrels.find? fun c => c.state == .destroying p && c.ring.waiting.isEmpty && !c.ring.due && c.retires.isEmpty with
    | some c =>
      let s := s.uninstall c
      ({ s with carrels := s.carrels.filter (·.num ≠ c.num) }).answerMgmt p 0x85 0 c.num 0
    | none =>
      match s.request p 0x21 with
      | none => s
      | some b =>
        let n := field b 4 4
        match !requestForm b || decide (2048 ≤ n), s.carrel n with
        | true, _ => (s.took p).answerMgmt p 0x8F 1 (n % 2048) 0
        | false, some c =>
          (match c.state with
           | .active =>
             let s := c.gangs.foldl (fun s g => s.retireGang c g 1) (s.took p)
             s.updCarrel n fun k => { k with state := .destroying p }
           | _ => s)
        | false, none =>
          match s.carrels.find? fun c => !c.live && c.was == n with
          | some c => ({ (s.took p) with carrels := s.carrels.filter (· ≠ c) }).answerMgmt p 0x85 0 n 0
          | none => (s.took p).answerMgmt p 0x8F 1 n 0

/- Archive (R186, R187). -/

/-- An archive of a carrel begins (R187 step 1). -/
def State.startArchive (s : State) (c : Carrel) (keep : Bool) (mark : Option (Phys × Nat)) (port : Nat) : State :=
  s.updCarrel c.num fun k => { k with state := .archiving keep mark port, queue.status := 2 }

/-- The tiles on which residencies of a carrel are bound. -/
def State.residents (s : State) (c : Carrel) : List Tile := s.tiles.filter (·.inCarrel c.num)

/-- A cancel or a retirement that everyone has acknowledged, on this wafer and on the others (R39, R184). -/
def Sweep.over (w : Sweep) : Bool := w.missing.isEmpty && w.abroad.isEmpty && w.coming == 0

/-- Step 2 of R187: cancels in progress have been acknowledged and migrations have landed; no urgent handler runs. -/
def State.archiveReady (s : State) (c : Carrel) : Bool :=
  c.sweeps.all (·.over) && c.retires.all (·.over) && (s.residents c).all fun t => t.net.mig.isNone && !t.net.holding && t.core.level == .normal

/-- No message of a carrel stands at a peer port, going or coming (R182); what a port relays for other wafers is addressed to another port. -/
def PeerPort.idleFor (q : PeerPort) (c : Nat) : Bool :=
  let own (p : Packet) : Bool := p.hdr.carrel.toNat == c && p.dest.isNone
  q.waiting.all (!own ·) && q.late.all (!own ·.msg) && !q.cur.any fun x => own x.1

/-- Step 4 of R187: every request and reply of the carrel has been performed, page transfers and what went to other wafers among them; and the stamp of a notice whose
payload stands in the completion ring has been written; the waves of the barrier lines have returned. -/
def State.archiveQuiet (s : State) (c : Carrel) : Bool :=
  (s.residents c).all (fun t => t.stop.archived && t.tens.kstep.isNone && t.view.stores.isEmpty && t.view.pages.all (·.io.isNone) && t.net.acks[2] == 0)
    && s.net.all (fun p => p.hdr.carrel.toNat != c.num) && s.wafer.peers.all (·.idleFor c.num) && !c.ring.due && c.lineWaves.isEmpty
    && s.wafer.ports.all fun p => p.reqs.all fun r => r.carrel.toNat != c.num

/-- The place of the archive slot of a carrel-relative position, and of the header (R186). -/
def Carrel.slotBase (c : Carrel) (x y : Nat) : Nat := c.archive + (y * c.w + x) * 131072
def Carrel.headerBase (c : Carrel) : Nat := c.archive + c.w * c.h * 131072

/-- A page map entry's 64 bits (R76), and a page with those bits. -/
def Page.bits (p : Page) : Nat :=
  1 + flagBit 1 p.resident + flagBit 2 p.pinned + flagBit 3 p.used + flagBit 4 p.dirty + at' 5 (p.k % 8) + at' 8 (p.vbase / 256 % 512)
    + at' 17 (p.pbase / 256 % 512) + at' 32 p.stamp.toNat
def Page.ofBits (p : Page) (x : Nat) : Page :=
  { p with resident := x / 2 % 2 == 1, pinned := x / 4 % 2 == 1, used := x / 8 % 2 == 1, dirty := x / 16 % 2 == 1, k := x / 32 % 8,
           vbase := x / 256 % 512 * 256, pbase := x / 2 ^ 17 % 512 * 256, stamp := BitVec.ofNat 16 (x / 2 ^ 32) }

/-- The bytes that a granule of the receive queue holds (R304). -/
def Tile.granule (t : Tile) (g : Nat) : List Byte :=
  ((t.task.queue ++ t.task.urgents).findSome? fun m =>
    (m.grans.findIdx? (· == g)).bind fun k => if m.freed ≤ k then some ((m.payload.drop (16 * k)).take 16) else none).getD []

/-- The hardware area of R74 as an archive writes it: the receive queue and the page map as R304 and R76 lay them out, entry i being the list's page i; of the rings and
the last 512 bytes, whose bits the spec does not give, and in granules that hold nothing, `free` (log entry 28). -/
def Tile.hardwareArea (t : Tile) (free : Nat → Byte) : List Byte :=
  (List.range 4096).map free
    ++ ((List.range 192).flatMap fun g => (t.granule g ++ (List.range 16).map fun i => free (4096 + 16 * g + i)).take 16)
    ++ ((List.range 64).flatMap fun i => natBytes 8 (((t.view.pages[i]?).map (·.bits)).getD 0))
    ++ (List.range 512).map fun i => free (7680 + i)

/-- Bytes written to far memory in pieces of 256, but for those that hold an uncorrectable word (R346). -/
def Memory.writePieces (m : Memory) (a : Nat) (bs : List Byte) (bad : Nat → Bool) : Memory :=
  (List.range ((bs.length + 255) / 256)).foldl (fun m i => if bad i then m else m.writeBytes (a + 256 * i) ((bs.drop (256 * i)).take 256)) m

/-- An uncorrectable word lies in piece `i` of 256 bytes of SRAM from a physical address. -/
def badPiece (bad : List Nat) (base i : Nat) : Bool := bad.any fun w => decide (base + 256 * i ≤ 8 * w) && decide (8 * w < base + 256 * i + 256)

/-- Bytes of an area whose layout the spec does not give: free values. -/
def State.writeArea (s : State) (a n : Nat) : State :=
  { s with wafer.far := s.wafer.far.writeBytes a ((List.range n).map (Config.archiveByte s.free)), free := s.free + 1 }

/-- The bytes that an archive writes into a residency's slot (R186): the instruction store, the resident pages, the hardware area, the banks and control registers,
and the engines' state. -/
def State.writeSlot (s : State) (c : Carrel) (t : Tile) : State :=
  let base := c.slotBase (nameX t.id.name) (nameY t.id.name)
  let far := s.wafer.far.writePieces base (t.view.ist.bytes 0 16384) (badPiece t.view.badIst 0)
  let far := t.view.pages.foldl (fun m p => if p.resident then
    m.writePieces (base + 0x4000 + p.vbase) (t.view.mem.bytes p.vbase (pageSize p.k)) (badPiece t.view.bad p.pbase) else m) far
  let far := far.writePieces (base + 0x1C000) (t.hardwareArea (Config.archiveByte s.free)) (badPiece t.view.bad 0x16000)
  ({ s with wafer.far := far, free := s.free + 1 }.writeArea (base + 0x1E000) 0x800).writeArea (base + 0x1E800) 0x800

/-- Residencies run on after an archive with keep = 1 (R187 step 6). -/
def State.unhalt (s : State) (c : Carrel) : State :=
  s.atEach (fun s =>
    let s := { s with tile.stop.archived := false }
    ((List.range 16).foldl (fun s i => s.evalSlots (BitVec.ofNat 4 i)) s).retryFires) ((s.residents c).map (·.phys))

/-- The token of an ARCHIVE, once no other carrel is archived for it (R259). -/
def State.archiveToken (s : State) (mark : Option (Phys × Nat)) : State :=
  match mark with
  | none => s
  | some (p, id) =>
    let more := s.carrels.any fun c => match c.state with
      | .archiving _ (some q) _ => q == (p, id)
      | _ => false
    if more then s else s.tokenAt p (some id) 0

/-- Step 5 and 6 of R187. An uncorrectable word that the archive meets is the residency's fault (R341, R346), which it takes once it runs on. A queue that runs on is running,
whatever its status was (the model's choice, log entry 101). -/
def State.finishArchive (s : State) (c : Carrel) (keep : Bool) (mark : Option (Phys × Nat)) (port : Nat) : State :=
  let s := (s.residents c).foldl (fun s t => match t.badState with
    | some f => s.updTile t.phys (·.addPend f)
    | none => s) s
  let ts := s.residents c
  let s := (ts.foldl (fun s t => s.writeSlot c t) s).writeArea c.headerBase 0x10000
  let s := s.answerMgmt port 0x86 0 c.num 0
  let s :=
    if keep then (s.unhalt c).updCarrel c.num fun k => { k with state := .active, queue.status := 0 }
    else
      let ring := (s.edgeMem c.queue.port).bytes (c.queue.off + 4096) (256 * c.queue.slots)
      let img : Archive := { tiles := ts.map fun t => (nameX t.id.name, nameY t.id.name, t), ring := ring }
      let s := s.uninstall c
      s.updCarrel c.num fun k => { k with state := .archived, image := some img, was := c.num, num := 2048 + s.carrels.length + c.num }
  s.archiveToken mark

/-- The next step of a carrel's archive, where its conditions hold: of a carrel that spans wafers, when `ok` says that the steward of carrel wafer 0 has seen every
wafer's last step done. -/
def State.archiveStep (s : State) (c : Carrel) : State :=
  match c.state with
  | .archiving keep mark port =>
    if 1 < c.nw ∧ !s.inp.ok then s
    else if s.archiveQuiet c then s.finishArchive c keep mark port
    else if s.archiveReady c then
      s.atEach (fun s => { s with tile := { s.tile.drain with stop.archived := true, core.wait := none, strm.farWord := none } }) ((s.residents c).map (·.phys))
    else s
  | _ => s

/-- ARCHIVE_REQUEST (R177, R187): the archive of carrel `m` that is in progress goes on; with none, the oldest request of port `n`, of kind
0x22, begins. -/
def execArchiveRequest (s : State) : Host.Outcome State Fault Refusal :=
  s.become fun s =>
    let p := s.inp.n
    let going (c : Carrel) : Bool := match c.state with
      | .archiving _ _ _ => true
      | _ => false
    match (s.carrel s.inp.m).filter going with
    | some c => s.archiveStep c
    | none =>
      match s.request p 0x22 with
      | none => s
      | some b =>
        let w := field b 4 4
        let s := s.took p
        if !requestForm b ∨ 2 ^ 18 ≤ w ∨ 2048 ≤ w % 65536 then s.answerMgmt p 0x8F 1 0 0
        else if w / 2 ^ 17 % 2 = 1 then
          (s.carrels.filter (·.state = .active)).foldl (fun s c => s.startArchive c (w / 65536 % 2 == 1) none p) s
        else match s.carrel (w % 2048) with
          | some c => if c.state = .active then s.startArchive c (w / 65536 % 2 == 1) none p else s.answerMgmt p 0x8F 1 c.num 0
          | none => s.answerMgmt p 0x8F 1 (w % 2048) 0

/- Restore (R188). -/

/-- The archived carrel that a record restores: the same key, width and height. -/
def State.archivedAs (s : State) (c : Carrel) : Option Carrel :=
  s.carrels.find? fun d => d.state == .archived && d.key == c.key && d.w == c.w && d.h == c.h

/-- A message of the receive queue read back: its payload from its granules (R304). -/
def Msg.readBack (m : Msg) (far : Memory) (base : Nat) : Msg :=
  { m with payload := m.payload.zipIdx.map fun x => match m.grans[x.2 / 16]? with
      | some g => if x.2 / 16 < m.freed then x.1 else far.read (base + 16 * g + x.2 % 16)
      | none => x.1 }

/-- A residency read back from its slot (R186, R188): the instruction store, the page map, the resident pages and the payloads of the receive queue from their bytes;
the areas whose layout the spec does not give hold what was written (log entry 81). -/
def Tile.readSlot (t : Tile) (far : Memory) (base : Nat) : Tile :=
  let pages := t.view.pages.zipIdx.map fun x => x.1.ofBits (far.getN (base + 0x1DC00 + 8 * x.2) 8)
  { t with view.ist := Memory.writeBytes [] 0 (far.bytes base 16384),
           view.pages := pages,
           view.mem := pages.foldl (fun m p => if p.resident then m.writeBytes p.vbase (far.bytes (base + 0x4000 + p.vbase) (pageSize p.k)) else m) t.view.mem,
           task.queue := t.task.queue.map (·.readBack far (base + 0x1D000)),
           task.urgents := t.task.urgents.map (·.readBack far (base + 0x1D000)) }

/-- A restored residency at its new tile, under the mapping of a slot. The words that were not written are as unreadable there as they were (R346). -/
def Tile.restoredAt (t d : Tile) (c : Carrel) (e : CatSlot) : Tile :=
  { t with phys := d.phys, id.temp := d.id.temp, id.carrel := BitVec.ofNat 11 c.num, id.gen := slotGen e, id.hops := c.hops, id.spare := c.spare,
           net.xr := slotXr e, router := d.router, stop.archived := false, view.ce := d.view.ce, view.ice := d.view.ice, view.ue := d.view.ue,
           view.bad := t.view.bad.filter t.view.carries ++ d.view.bad.filter (!t.view.carries ·),
           view.soft := d.view.soft.filter fun x => !x.1 && !t.view.carries x.2, view.ceAddr := d.view.ceAddr, net.names := [], net.walks := [], net.unmapped := [],
           comb := t.comb.map fun e => { e with carrel := BitVec.ofNat 11 c.num } }

/-- A restore (R188): the code of the record's first failing check, or the carrel running again. -/
def State.restore (s : State) (p a : Nat) : Sum Nat (Carrel × State) :=
  let m := s.edgeMem p
  match s.checkRecord m a, s.archivedAs (recordCarrel m a) with
  | .inl code, _ => .inl code
  | .inr _, none => .inl 0
  | .inr (n, o), some d =>
    let c := newCarrel m a n o
    let same := decide (c.queue.slots = d.queue.slots)
    let c := { c with sizes := d.sizes, held := d.held, gangs := d.gangs, kids := d.kids, listed := d.listed, retires := d.retires, sweeps := d.sweeps, lw := d.lw,
                      linePhase := d.linePhase, reports := d.reports, ring := { c.ring with waiting := d.ring.waiting },
                      queue := { c.queue with
                        rdidx := if same then d.queue.rdidx else 0, lap := if same then d.queue.lap else 1, fwd := d.queue.fwd } }
    let s := { s with carrels := s.carrels.filter (· ≠ d) }.install c
    let img := d.image.getD { tiles := [] }
    let s := if same then s.updEdge c.queue.port fun m => m.writeBytes (c.queue.off + 4096) img.ring else s
    let k := (s.carrel n).getD c
    let now (p : Phys) : Phys := ((img.tiles.find? (·.2.2.phys = p)).bind fun x => s.locate c x.1 x.2.1).getD p
    let s := img.tiles.foldl (fun s x =>
      match s.locate c x.1 x.2.1 with
      | none => s
      | some q =>
        let t := x.2.2.readSlot s.wafer.far (c.slotBase x.1 x.2.1)
        s.updTile q fun e => t.restoredAt e k (s.slotOf c x.1 x.2.1)) (s.updCarrel n (·.rename now))
    .inr (c, s.unhalt c)

/-- RESTORE_REQUEST (R177, R188): the oldest request of port `n`, of kind 0x23. -/
def execRestoreRequest (s : State) : Host.Outcome State Fault Refusal :=
  s.become fun s =>
    let p := s.inp.n
    match s.request p 0x23 with
    | none => s
    | some b =>
      let s := s.took p
      if !requestForm b then s.answerMgmt p 0x8F 1 0 0
      else match s.restore p (0x20000 + field b 4 4) with
      | .inl code => s.answerMgmt p 0x8F (if code = 0 then 1 else code) 0 0
      | .inr (c, s) => s.answerMgmt p 0x87 0 c.num (BitVec.ofNat 32 c.queue.off)

/-- The upstream port whose management queue stands for a steward's own requests: the lowest one. -/
def State.firstUpstream (s : State) : Nat := s.wafer.strapped.foldl min 48

/-- ARCHIVE (R259). -/
def execArchive (d a b : Reg) (s : State) : Host.Outcome State Fault Refusal :=
  s.issue (.archive d a b) { steward := true, reads := [a, b] } fun s =>
    let x := s.sr a
    let c := x.toNat % 2048
    let keep := x.getLsbD 16
    let here := s.tile.phys.field
    let acting := s.tile.phys == s.stewardOf here
    let no (code : Nat) : Res := .done (s.tokenNow d (BitVec.ofNat 32 code))
    let busy (c : Carrel) : Bool := match c.state with
      | .archiving _ _ _ => true
      | _ => false
    if 2 ^ 19 ≤ x.toNat ∨ x.toNat / 2048 % 32 ≠ 0 then .fault (limitFault x a 1 0x7D) s
    else if x.getLsbD 18 then
      let p := s.firstUpstream
      let at_ := 0x20000 + (s.sr b).toNat
      match s.archivedAs (recordCarrel (s.edgeMem p) at_) with
      | none => no 1
      | some k =>
        if !acting || (recordCarrel (s.edgeMem p) at_).home ≠ here then no 2
        else match s.restore p at_ with
          | .inl code => no (4 + 256 * code)
          | .inr (c, s) => .done ((s.tokenNow d 0).answerMgmt p 0x87 0 (if k.live then 0 else c.num) (BitVec.ofNat 32 c.queue.off))
    else if x.getLsbD 17 then
      if here ≠ (0, 0) || !acting then no 2
      else if s.carrels.any busy then no 3
      else
        let cs := s.carrels.filter (·.state = .active)
        if cs = [] then no 0
        else
          let (s, m) := s.markPlain d
          .done (cs.foldl (fun s k => s.startArchive k keep (m.map (s.tile.phys, ·)) s.firstUpstream) s)
    else match s.carrel c with
      | none => no 1
      | some k =>
        if busy k then no 3
        else if k.state ≠ .active then no 1
        else if !acting || k.home ≠ here then no 2
        else
          let (s, m) := s.markPlain d
          .done (s.startArchive k keep (m.map (s.tile.phys, ·)) k.queue.port)

end Sys2Proof.Machine
end

