-- ==== Sys2Proof/Machine/Host.lean ====
section
/-!
DEFINITION. The upstream agent (R172 to R178, R380): writes of the host, host queues, completion rings, and the host's messages, withdrawals
and cancels (R177).
-/

namespace Sys2Proof.Machine

/- Host queues. -/

/-- The upstream port `n` takes what the host sends it (R171, R377): the package runs and the link is up. -/
def State.hostPort (s : State) (n : Nat) : Bool := s.wafer.ready && s.wafer.strapped.contains n && (s.port n).live

/-- Host queue `m` of an upstream port: a carrel's, or from 2048 on the port's management queue (R174). -/
def State.hqueue (s : State) (p m : Nat) : Option HostQueue :=
  if 2048 ≤ m then some (s.mqueue p)
  else match s.carrel m with
    | none => none
    | some c => if c.queue.port = p then some c.queue else none

def State.updHqueue (s : State) (p m : Nat) (f : HostQueue → HostQueue) : State :=
  if 2048 ≤ m then s.updMqueue p f else s.updCarrel m fun c => { c with queue := f c.queue }

/-- Post a notice of a host queue to its ring (R178). -/
def State.notifyQueue (s : State) (p m kind code : Nat) (arg : Word) : State :=
  if 2048 ≤ m then s.answerMgmt p kind code 0 arg
  else match s.carrel m with
    | none => s
    | some c => s.notify m (plainNotice kind code m arg (s.fieldAt c.home).ns)

/-- The lap after a lap (R175). -/
def nextLap (l : BitVec 16) : BitVec 16 := if l = 0xFFFF then 1 else l + 1

/-- The offset of a queue's head slot in edge SRAM (R174). -/
def HostQueue.head (q : HostQueue) : Nat := q.off + 4096 + 256 * q.rdidx

/-- The line stamps of a slot, and its payload (R175). -/
def lineStamp (m : Memory) (slot j : Nat) : BitVec 16 := BitVec.ofNat 16 (m.getN (slot + 64 * j) 2)
def slotPayload (m : Memory) (slot : Nat) : List Byte := (List.range 240).map fun b => m.read (slot + 64 * (b / 60) + 4 + b % 60)

/-- The kinds of R177 that a queue takes. -/
def kindKnown (mgmt : Bool) (k : Nat) : Bool := if mgmt then decide (0x20 ≤ k) && decide (k ≤ 0x23) else decide (1 ≤ k) && decide (k ≤ 4)

/-- The payloads that a queue has forwarded in the present slot of its port: at most 16 in one (R176). -/
def State.forwarded (s : State) (p : Nat) (q : HostQueue) : Nat := if q.slot = (s.fieldAt (edgeField p)).slotCount then q.used else 0

/-- The agent's rule for a head slot (R176); a payload of an unknown kind is answered at once (R177). -/
def State.examine (s : State) (p m : Nat) : State :=
  match s.hqueue p m with
  | none => s
  | some q =>
    let e := s.edgeMem p
    let st (j : Nat) : BitVec 16 := lineStamp e q.head j
    if q.status ≠ 0 ∨ 16 ≤ s.forwarded p q then s
    else if (List.range 4).all fun j => st j == q.lap then
      let b := slotPayload e q.head
      let i := (q.rdidx + 1) % q.slots
      let known := kindKnown (decide (2048 ≤ m)) (field b 0 1)
      let s := s.updHqueue p m fun q =>
        { q with rdidx := i, lap := if i = 0 then nextLap q.lap else q.lap, fwd := if known then q.fwd ++ [b] else q.fwd,
                 slot := (s.fieldAt (edgeField p)).slotCount, used := s.forwarded p q + 1 }
      if known then s else s.notifyQueue p m 0x8F 1 0
    else if (List.range 4).any fun j => st j == nextLap q.lap then
      (s.updHqueue p m fun q => { q with status := 1 }).notifyQueue p m 0x88 0 (BitVec.ofNat 32 q.rdidx)
    else s

/-- Slots of a queue, one after another (R176). -/
def State.examineMany (s : State) (p m : Nat) : Nat → State
  | 0 => s
  | n + 1 => State.examineMany (s.examine p m) p m n

/-- An uncorrectable word in the head slot or the control block (R380). -/
def State.stopQueue (s : State) (p m : Nat) (q : HostQueue) : State :=
  let s := (s.updHqueue p m fun q => { q with status := 3 }).stewardEvent (edgeField p) 0xD6 0 0
  let info := BitVec.ofNat 32 (q.rdidx + 65536 * p)
  if 2048 ≤ m then s.notifyMgmt p (hostOnly 0 0x68 0 info (s.fieldAt (0, 0)).ns)
  else match s.carrel m with
    | none => s
    | some c => s.notify m (hostOnly m 0x68 0 info (s.fieldAt c.home).ns)

/-- A write of the restart field of a control block (R174). -/
def State.restartQueue (s : State) (p m : Nat) (l : BitVec 16) : State :=
  match s.hqueue p m with
  | some q => if l = 0 ∨ q.status = 2 then s else s.updHqueue p m fun q => { q with rdidx := 0, lap := l, status := 0 }
  | none => s

/-- A write of cmpidx of a control block (R174, R178). -/
def State.writeCmpidx (s : State) (p m : Nat) (x : Word) : State :=
  if (s.hqueue p m).isSome then s.updHqueue p m fun q => { q with cmpidx := x } else s

/-- The queues of an upstream port whose memory holds an offset of edge SRAM (R174): a carrel's, by its number, or the management queue, as 2048. -/
def State.queueAt (s : State) (p o : Nat) : Option Nat :=
  if o < 0x11000 then some 2048
  else (s.carrels.find? fun c => c.live && c.queue.port == p && decide (c.queue.off ≤ o) && decide (o < c.queue.off + queueBytes c.queue.slots)).map (·.num)

/-- The bytes of a host write that fall on a 4-byte field at an offset: all of them, or no write of the field. -/
def fieldIn (o : Nat) (bs : List Byte) (at_ n : Nat) : Option Nat :=
  if o ≤ at_ ∧ at_ + n ≤ o + bs.length then some (field bs (at_ - o) n) else none

/-- The host writes bytes of one 64-byte line of edge SRAM (R172, R174, R176): in a control block the restart and cmpidx fields take them, and nothing else; in a ring
the head slot is examined if they touch it; elsewhere they are stored, in the control block of the management completion ring too, whose cmpidx is that of the management
queue's block (the model's choice, log entry 105). -/
def State.edgeWrite (s : State) (p o : Nat) (bs : List Byte) : State :=
  match s.queueAt p o with
  | none => if o < 0x1000000 then s.updEdge p fun e => e.writeBytes o bs else s
  | some m =>
    match s.hqueue p m with
    | none => s
    | some q =>
      if o < q.off + 4096 then
        let s := match fieldIn o bs (q.off + 8) 2 with
          | some l => s.restartQueue p m (BitVec.ofNat 16 l)
          | none => s
        match fieldIn o bs (q.off + 12) 4 with
        | some x => s.writeCmpidx p m (BitVec.ofNat 32 x)
        | none => s
      else
        let s := s.updEdge p fun e => e.writeBytes o bs
        if q.head ≤ o ∧ o < q.head + 256 then s.examine p m else s

/-- HOST_QUEUE_EXAMINE (R176, R380): with `bytes` the 64-byte line that the host writes at offset `k` of port `n`'s edge SRAM; without, queue `m` is examined
in a slot of the port that its carrel owns, or the management queue in any slot. With `j` = 1 a word of the head slot or control block is uncorrectable. -/
def execHostQueueExamine (s : State) : Host.Outcome State Fault Refusal :=
  s.become fun s =>
    let p := s.inp.n
    let m := s.inp.m
    match s.hostPort p, s.hqueue p m with
    | true, some q =>
      if s.inp.j = 1 then s.stopQueue p m q
      else if s.inp.bytes = [] then (if 2048 ≤ m ∨ (s.portOwner p).map (·.toNat) = some m then s.examineMany p m 16 else s)
      else s.edgeWrite p (s.inp.k / 64 * 64) (s.inp.bytes.take 64)
    | _, _ => s

/-- HOST_QUEUE_RESTART (R174, R380): a write of `word` to the restart field of queue `m` of port `n`. -/
def execHostQueueRestart (s : State) : Host.Outcome State Fault Refusal :=
  s.become fun s => if s.hostPort s.inp.n then s.restartQueue s.inp.n s.inp.m (s.inp.word.setWidth 16) else s

/-- CMPIDX_WRITE (R174, R178): a write of `word` to cmpidx of queue `m` of port `n`. -/
def execCmpidxWrite (s : State) : Host.Outcome State Fault Refusal :=
  s.become fun s => if s.hostPort s.inp.n then s.writeCmpidx s.inp.n s.inp.m s.inp.word else s

/-- A launch window of an upstream port (R173). -/
def State.window (s : State) (p w : Nat) : LaunchWindow := ((s.wafer.windows.find? fun x => x.1 == p && x.2.1 == w).map (·.2.2)).getD {}

/-- The far address to which an offset of an upstream port's HDM range leads through its window, while far memory stands there (R173; log entry 65). -/
def State.windowAddr (s : State) (p a n : Nat) : Option Nat :=
  let w := s.window p (a / 2 ^ 30)
  let pa := w.base + a % 2 ^ 30
  if w.en && s.memoryAt pa n then some pa else none

/-- HOST_WINDOW_WRITE (R172, R173): the host writes `bytes`, of one 64-byte line, at offset `k` of port `n`'s HDM range: through a launch window to far
memory, or to edge SRAM. A disabled window and reserved offsets drop it. -/
def execHostWindowWrite (s : State) : Host.Outcome State Fault Refusal :=
  s.become fun s =>
    let p := s.inp.n
    let a := s.inp.k
    let bs := s.inp.bytes.take (64 - a % 64)
    if !s.hostPort p then s
    else if a < 2 ^ 34 then
      match s.windowAddr p a bs.length with
      | some pa => { s with wafer.far := s.wafer.far.writeBytes pa bs }
      | none => s
    else s.edgeWrite p (a - 2 ^ 34) bs

/- What the host reads. -/

/-- The 64 bytes from which a queue's control block is read (R174): restart reads as 0. -/
def HostQueue.block (q : HostQueue) : List Byte :=
  natBytes 2 q.rdidx ++ natBytes 2 q.lap.toNat ++ natBytes 4 q.status.toNat ++ natBytes 4 0 ++ natBytes 4 q.cmpidx.toNat ++ natBytes 48 0

/-- The 64-byte line that the host reads at an offset of port `p`'s HDM range (R172, R173): through a launch window, zeros where it is disabled; of edge SRAM; zeros
of reserved offsets. A read changes nothing. A WO field of a launch slot or a creation record reads as the bytes that were written there: the model's choice between R2 and
R172 (log entry 103). -/
def State.hdmRead (s : State) (p a : Nat) : List Byte :=
  let a := a / 64 * 64
  let o := a - 2 ^ 34
  if a < 2 ^ 34 then match s.windowAddr p a 64 with
    | some pa => s.wafer.far.bytes pa 64
    | none => natBytes 64 0
  else if 0x1000000 ≤ o then natBytes 64 0
  else match (s.queueAt p o).bind (s.hqueue p) with
    | some q => if o < q.off + 4096 then (if o = q.off then q.block else natBytes 64 0) else (s.edgeMem p).bytes o 64
    | none => (s.edgeMem p).bytes o 64

/-- BOOTSTAT, which every upstream port presents in its management registers (R195). -/
def State.bootstat (s : State) : Word :=
  let w := s.wafer
  BitVec.ofNat 32 ((match w.power with
    | .off => 0
    | .aux => 0
    | .boot => 1
    | .run => 2) + at' 4 (w.step % 16) + flagBit 8 w.failed + flagBit 9 w.bank + flagBit 10 w.ready + at' 16 Config.svn.toNat)

/- Completion rings. -/

/-- A ring has room (R178). -/
def Ring.room (r : Ring) (cmpidx : Word) : Bool := decide ((BitVec.ofNat 32 r.idx - cmpidx).toNat < r.slots)

/-- The oldest waiting notice is written in two writes: its 32 bytes, then the stamp (R178). -/
def Ring.writeOne (r : Ring) : Ring :=
  let i := r.idx % r.slots
  if r.due then
    { r with due := false, idx := r.idx + 1, lap := if i + 1 = r.slots then nextLap r.lap else r.lap, stamps := putAt i r.lap r.stamps }
  else match r.waiting with
    | [] => r
    | b :: bs => { r with waiting := bs, written := putAt i b r.written, due := true }

/-- COMPLETION_NOTICE_WRITE (R56, R148, R178, R377): a write of the oldest waiting notice of carrel `m`'s ring, begun in its steward-service slot, or from 2048 on of port `n`'s
management ring. After the stamp an MSI-X message follows if the carrel has enabled one. -/
def execCompletionNoticeWrite (s : State) : Host.Outcome State Fault Refusal :=
  s.become fun s =>
    let p := s.inp.n
    let m := s.inp.m
    if 2048 ≤ m then
      if s.hostPort p && (s.mring p).room (s.mqueue p).cmpidx then s.updMring p Ring.writeOne else s
    else match s.carrel m with
      | none => s
      | some c =>
        if s.hostPort c.queue.port && c.ring.room c.queue.cmpidx && (c.ring.due || s.inService c) then
          let s' := s.updCarrel m fun c => { c with ring := c.ring.writeOne }
          if c.ring.due && c.msix != 0xFF then { s' with wafer.msi := s.wafer.msi ++ [(c.queue.port, c.msix)] } else s'
        else s

/- The payloads of a carrel's queue (R177). -/

/-- The oldest forwarded payload of a carrel's queue, when it has a kind, with the carrel. -/
def State.command (s : State) (n kind : Nat) : Option (Carrel × List Byte) :=
  match s.carrel n with
  | none => none
  | some c => match c.queue.fwd with
    | b :: _ => if field b 0 1 = kind then some (c, b) else none
    | [] => none

def State.tookCommand (s : State) (n : Nat) : State := s.updCarrel n fun c => { c with queue.fwd := c.queue.fwd.drop 1 }

/-- Notice 0x8F with code 1: unknown, malformed, or naming something absent (R177). -/
def State.refuse (s : State) (c : Carrel) : State := s.notify c.num (plainNotice 0x8F 1 c.num 0 (s.fieldAt c.home).ns)

/-- A message from the host in form (R177): reserved bits 0, a length in range; an urgent payload is at most 64 bytes (R304). -/
def hostMessageForm (b : List Byte) : Bool :=
  zeros b 1 4 && decide (field b 8 4 < 128) && decide (field b 16 4 ≤ if field b 8 4 / 64 = 1 then 64 else 208) && zeros b 20 32

/-- A residency is bound under a name of a carrel. -/
def State.boundAt (s : State) (c : Carrel) (n : Word) : Bool :=
  if nameWafer n ≠ 0 then decide (nameWafer n < c.nw)
  else decide (nameX n < c.w) && decide (nameY n < c.h) && match s.locate c (nameX n) (nameY n) with
    | none => false
    | some p => (s.tileAt p).core.phase != .unbound

/-- HOST_MESSAGE (R177): kind 0x02 of carrel `n` goes out as a SEND with src 0xFFFF_FFFF and the root scope. -/
def execHostMessage (s : State) : Host.Outcome State Fault Refusal :=
  s.become fun s =>
    match s.command s.inp.n 2 with
    | none => s
    | some (c, b) =>
      let s := s.tookCommand c.num
      let name := BitVec.ofNat 32 (field b 4 4)
      let w := field b 8 4
      if !hostMessageForm b || !s.boundAt c name then s.refuse c
      else s.emit { hdr := stewardHdr (BitVec.ofNat 11 c.num) name 0 (BitVec.ofNat 4 w) (BitVec.ofNat 2 (w / 16)) (w / 64 == 1),
                    body := .send (BitVec.ofNat 32 (field b 12 4)) ((b.drop 32).take (field b 16 4)) }

/-- WITHDRAW_LAUNCH (R177, R57, R148): kind 0x03 of carrel `n`, in the carrel's steward-service slot: the oldest held launch with the tag completes as cancelled. -/
def execWithdrawLaunch (s : State) : Host.Outcome State Fault Refusal :=
  s.become fun s =>
    match s.command s.inp.n 3 with
    | none => s
    | some (c, b) =>
      if !s.inService c then s
      else
      let s := s.tookCommand c.num
      let tag := BitVec.ofNat 32 (field b 4 4)
      match c.held.find? (·.tag = tag) with
      | some l =>
        if zeros b 1 4 && zeros b 8 240 then
          (s.updCarrel c.num fun k => { k with held := k.held.erase l }).notify c.num
            (completion l.stage 1 0 0xFFFF 0 tag 0 0 0 ++ natBytes 8 0)
        else s.refuse c
      | none => s.refuse c

/-- HOST_CANCEL (R34, R146, R177): kind 0x04 of carrel `n`; while 8 unrelated scopes are listed it waits, and the steward's notices go out in a control slot. -/
def execHostCancel (s : State) : Host.Outcome State Fault Refusal :=
  s.become fun s =>
    match s.command s.inp.n 4 with
    | none => s
    | some (c, b) =>
      let x := BitVec.ofNat 32 (field b 4 4)
      if scopeDepth x = 0 ∨ !scopeWellFormed x ∨ !(zeros b 1 4 && zeros b 8 240) then (s.tookCommand c.num).refuse c
      else if c.state ≠ .active ∨ 8 ≤ c.unrelated x ∨ (s.fieldAt c.home).slot % 16 ≠ 8 then s
      else (s.tookCommand c.num).startSweep c.num x none true

end Sys2Proof.Machine
end

