-- ==== Sys2Proof/Machine/Gangs.lean ====
section
/-!
DEFINITION. The life of a gang (R20 to R22): its launch message (R42, R43), placement (R44), code loading and START (R45), retirement (R56).
-/

namespace Sys2Proof.Machine

/- Launch messages. -/

/-- The launch that a payload describes (R42). The reserved fields are those of R42 and the bytes that no field names (R177). -/
def launchOf (b : List Byte) : Launch :=
  let w (o : Nat) : Nat := field b o 4
  { stage := BitVec.ofNat 8 (w 0 / 256), pin := w 0 / 65536 % 2 == 1, w := w 4 % 65536, h := w 4 / 65536, scope := BitVec.ofNat 32 (w 8),
    tag := BitVec.ofNat 32 (w 12), image := w 16 + 2 ^ 32 * (w 20 % 65536), parcels := w 20 / 65536, arg := BitVec.ofNat 32 (w 24),
    pw := (List.range 8).map fun i =>
      (w (36 + 16 * i) / 65536 % 4, w (32 + 16 * i) + 2 ^ 32 * (w (36 + 16 * i) % 65536), BitVec.ofNat 32 (w (40 + 16 * i))),
    reservedBits := decide (2 ^ 17 ≤ w 0) || w 28 != 0 || (List.range 8).any (fun i => decide (2 ^ 18 ≤ w (36 + 16 * i)) || w (44 + 16 * i) != 0)
      || !zeros b 160 240 }

/-- A window of reason 3: kind 3, or a local window past the view. -/
def badWindow (x : Nat × Nat × Word) : Bool := x.1 == 3 || (x.1 == 2 && decide (viewEnd < x.2.1 + 16 * x.2.2.toNat))

/-- The reason for which a launch is rejected (R43); of several the lowest, since the spec names none (the model's choice, log entry 82). -/
def Launch.reason (l : Launch) (c : Carrel) : Option Nat :=
  if l.w = 0 ∨ l.h = 0 ∨ (List.range c.nw).all (fun w => decide ((c.part w).1 < l.w) || decide ((c.part w).2 < l.h)) then some 1
  else if l.parcels < 32 ∨ 8192 < l.parcels ∨ l.image % 16 ≠ 0 then some 2
  else if l.pw.any badWindow then some 3
  else if l.scope ≠ 0 ∧ (scopeDepth l.scope = 0 ∨ !scopeWellFormed l.scope ∨ covered c.listed l.scope) then some 4
  else if l.reservedBits then some 5
  else none

/-- LAUNCH (R43, R148): kind 0x01 of carrel `n`, taken in the carrel's steward-service slot: it is rejected, or held for placement behind the carrel's earlier launches. -/
def execLaunch (s : State) : Host.Outcome State Fault Refusal :=
  s.become fun s =>
    match s.command s.inp.n 1 with
    | none => s
    | some (c, b) =>
      if !s.inService c then s
      else
      let s := s.tookCommand c.num
      let l := launchOf b
      match l.reason c with
      | some r => s.notify c.num (completion l.stage 3 r 0xFFFF 0 l.tag 0 0 0 ++ natBytes 8 0)
      | none => s.updCarrel c.num fun k => { k with held := k.held ++ [l] }

/- Placement. -/

/-- A logical tile is free in the carrel's free map (R44): no gang holds it and its position is mapped. -/
def Gang.covers (g : Gang) (w x y : Nat) : Bool :=
  g.wafer == w && decide (g.x ≤ x) && decide (x < g.x + g.launch.w) && decide (g.y ≤ y) && decide (y < g.y + g.launch.h)
def State.freeTile (s : State) (c : Carrel) (x y : Nat) : Bool := (s.locate c x y).isSome && c.gangs.all fun g => !g.covers c.k x y

/-- The logical tiles of a rectangle, in rank order. -/
def rectTiles (x y w h : Nat) : List (Nat × Nat) := (List.range (w * h)).map fun r => (x + r % w, y + r / w)

/-- place of R44 on this wafer. -/
def State.placeRect (s : State) (c : Carrel) (w h : Nat) : Option (Nat × Nat) :=
  if c.w < w ∨ c.h < h then none
  else (rectTiles 0 0 (c.w - w + 1) (c.h - h + 1)).find? fun o => (rectTiles o.1 o.2 w h).all fun t => s.freeTile c t.1 t.2

/-- The first free rectangle on another wafer of the carrel, in whose part every position counts as mapped (log entry 86). -/
def Carrel.placeAbroad (c : Carrel) (k w h : Nat) : Option (Nat × Nat) :=
  let z := c.part k
  if z.1 < w ∨ z.2 < h then none
  else (rectTiles 0 0 (z.1 - w + 1) (z.2 - h + 1)).find? fun o => (rectTiles o.1 o.2 w h).all fun t => c.gangs.all fun g => !g.covers k t.1 t.2

/-- place of R44: the carrel wafer and the origin. -/
def State.place (s : State) (c : Carrel) (w h : Nat) : Option (Nat × Nat × Nat) :=
  (List.range c.nw).findSome? fun k => (if k = c.k then s.placeRect c w h else c.placeAbroad k w h).map (k, ·)

/-- The lowest gang number free in a carrel (R20). -/
def Carrel.freeGang (c : Carrel) : Option Nat := (List.range (c.gangs.length + 1)).find? fun n => (c.gang n).isNone && decide (n < 65536)

/-- The fresh launch scope, or the one that the launch joins (R33). -/
def Carrel.launchScope (c : Carrel) (l : Launch) : Option Word :=
  if l.scope ≠ 0 then some l.scope else (lowestClear c.kids).map (childScope 0)

/-- The cancel list of a tile that joins a carrel: every listed scope whose retirement has not begun (R32, R34). -/
def Carrel.liveCancels (c : Carrel) : List Word := c.listed.filter fun y => !c.retires.any fun w => isDescendant y w.scope

/-- A member is bound to a tile (R24): registers and view as R24 and log entry 2 give them. -/
def Tile.bind (t : Tile) (c : Carrel) (g : Gang) (name : Word) (rank : Nat) (e : CatSlot) : Tile :=
  { t.emptied with
    id := { t.emptied.id with
            name := name, gen := slotGen e, gang := BitVec.ofNat 16 g.num, rank := BitVec.ofNat 20 rank, stage := g.launch.stage,
            carrel := BitVec.ofNat 11 c.num, hops := c.hops, spare := c.spare },
    core.phase := .loading, core.cur.scope := g.scope, comb := t.comb,
    net.holding := t.net.holding, net.xr := slotXr e, task.cancels := c.liveCancels, task.linePhase := c.linePhase,
    task.scopes := if g.fresh && rank == 0 then [{ scope := g.scope, kids := 0 }] else [] }

/-- Every member of a gang is bound to its tile (R24, R44), with the carrel's present phase of the barrier lines: a wave on its way has nothing left to do there. -/
def State.bindGang (s : State) (c : Carrel) (g : Gang) : State :=
  (s.members c g).foldl (fun s m =>
    let x := g.x + m.1 % g.launch.w
    let y := g.y + m.1 / g.launch.w
    (s.updTile m.2 fun t => t.bind c g (mkName 0 x y) m.1 (s.slotOf c x y)).updCarrel c.num fun k =>
      { k with lineWaves := k.lineWaves.map fun v => (v.1, v.2.filter (· ≠ m.2)) }) s

/-- A gang that the home steward of another wafer of the carrel has placed on this one: number `m`, at (`k`, `j`), of scope `word`, with the launch `bytes`. -/
def State.takeGang (s : State) (c : Carrel) : State :=
  let l := launchOf s.inp.bytes
  let g : Gang := { num := s.inp.m, x := s.inp.k, y := s.inp.j, scope := s.inp.word, fresh := l.scope == 0, launch := l, state := .running, wafer := c.k, led := false }
  if c.nw ≤ 1 ∨ 65536 ≤ g.num ∨ (c.gang g.num).isSome ∨ !(rectTiles g.x g.y l.w l.h).all (fun t => s.freeTile c t.1 t.2) then s
  else (s.updCarrel c.num fun k => { k with gangs := k.gangs ++ [g] }).bindGang c g

/-- GANG_PLACE (R22, R33, R44): the oldest held launch of carrel `n`, once a rectangle, a gang number and a scope are free; with `ok` a gang that another wafer's
home steward has placed here. -/
def execGangPlace (s : State) : Host.Outcome State Fault Refusal :=
  s.become fun s =>
    match s.carrel s.inp.n with
    | none => s
    | some c =>
      if c.state ≠ .active then s
      else if s.inp.ok then s.takeGang c
      else match c.held with
      | [] => s
      | l :: ls =>
        if !(s.fieldAt c.home).served then s
        else match s.place c l.w l.h, c.freeGang, c.launchScope l with
          | some (w, x, y), some n, some sc =>
            let g : Gang := { num := n, x := x, y := y, scope := sc, fresh := l.scope == 0, launch := l, wafer := w }
            let s := s.updCarrel c.num fun k =>
              { k with held := ls, gangs := k.gangs ++ [g], kids := if g.fresh then k.kids ||| BitVec.ofNat 16 (2 ^ scopeIndex sc) else k.kids }
            s.bindGang c g
          | _, _, _ => s

/- Loading. -/

/-- The parts of a range that no 4 KiB boundary cuts: address and length. -/
def pageParts (a n : Nat) : List (Nat × Nat) :=
  (List.range ((a + n - 1) / 4096 - a / 4096 + 1)).map fun i =>
    let lo := max a (4096 * (a / 4096 + i))
    (lo, min (a + n) (4096 * (a / 4096 + i + 1)) - lo)

/-- Read a far range part by part; none where a part meets a fault. -/
def State.readParts (s : State) (c : Carrel) : List (Nat × Nat) → Option (List Byte) × State
  | [] => (some [], s)
  | x :: xs =>
    match s.readFar c x.1 x.2 with
    | (.inr _, s) => (none, s)
    | (.inl b, s) =>
      match State.readParts s c xs with
      | (some bs, s) => (some (b ++ bs), s)
      | (none, s) => (none, s)

/-- The parcels of a byte string. -/
def parcelsOfBytes (b : List Byte) (n : Nat) : List Parcel := (List.range n).map fun i => BitVec.ofNat 16 (field b (2 * i) 2)

/-- What the steward sends to one member (R45), which has its own name with wafer index 0 (R59): the image in ISTOREs of at most 480 parcels, the control write, START. -/
def loadPackets (c : Carrel) (g : Gang) (name : Word) (rank : Nat) (xs : List Parcel) : List Packet :=
  let h : Hdr := stewardHdr (BitVec.ofNat 11 c.num) name g.scope 0 0 false
  ((List.range ((xs.length + 479) / 480)).map fun i => ({ hdr := h, body := .istore (480 * i) ((xs.drop (480 * i)).take 480) } : Packet))
    ++ [{ hdr := h, body := .control (mkName 0 (nameX name) (nameY name)) (BitVec.ofNat 32 g.num) (BitVec.ofNat 32 rank) (g.launch.stage.setWidth 32)
                              (g.launch.pw.map fun x => (BitVec.ofNat 2 x.1, x.2.1 / 16 * 16, x.2.2)) g.launch.pin },
        { hdr := { h with cls := 15, prio := 3 }, body := .start (BitVec.ofNat 32 g.num) g.launch.arg }]

/-- GANG_LOAD (R22, R45, R368): gang `m` of carrel `n`, whose image can be read, where the carrel's home field has a steward. -/
def execGangLoad (s : State) : Host.Outcome State Fault Refusal :=
  s.become fun s =>
    match s.carrel s.inp.n with
    | none => s
    | some c =>
      match c.gang s.inp.m with
      | none => s
      | some g =>
        if g.state ≠ .loading ∨ c.state ≠ .active ∨ !(s.fieldAt c.home).served then s
        else match s.readParts c (pageParts g.launch.image (2 * g.launch.parcels)) with
          | (none, s) => s
          | (some b, s) =>
            let xs := parcelsOfBytes b g.launch.parcels
            let s := (s.ranks c g).foldl (fun s r => (loadPackets c g (c.memberName g r) r xs).foldl State.emit s) s
            s.updCarrel c.num fun k => k.updGang g.num fun g => { g with state := .running, start := (s.fieldAt c.home).ns }

/-- STEWARD_CONTROL_WRITE (R45): a control message sets a member's registers and window descriptors. -/
def execStewardControlWrite (s : State) : Host.Outcome State Fault Refusal :=
  s.become fun s =>
    match s.arriving with
    | none => s
    | some p =>
      match p.body with
      | .control name gang rank stage pw pin =>
        let s := s.unsend p
        let set (v : Vector Window 8) : Nat → List (BitVec 2 × Nat × Word) → Vector Window 8 := fun i l =>
          (l.foldl (fun (a : Vector Window 8 × Nat) x =>
            (a.1.set (a.2 % 8) { kind := x.1, base := x.2.1, length := x.2.2 } (Nat.mod_lt _ (by decide)), a.2 + 1)) (v, i)).1
        { s with tile := { s.tile with
            id := { s.tile.id with name := name, gang := gang.setWidth 16, rank := rank.setWidth 20, stage := stage.setWidth 8, pin := pin },
            core.cur.scope := p.hdr.scope,
            view.pw := set s.tile.view.pw 0 pw } }
      | _ => s

/-- No load traffic of the steward for a residency is still on its way (R45, R129). -/
def State.loadDone (s : State) (p : Packet) : Bool :=
  s.net.all fun q => q.hdr.dst != p.hdr.dst || q.hdr.carrel != p.hdr.carrel || q.hdr.src != 0xFFFFFFFF || match q.body with
    | .istore _ _ | .control _ _ _ _ _ _ => false
    | _ => true

/-- START enters the class-15 handler (R45): the normal bank is zeroed and s1 holds the start argument. It is the residency's next work (R36). -/
def Tile.start (t : Tile) (p : Packet) (gang arg : Word) : Tile :=
  { t with core := { t.core with
      normal := ({} : Bank).setS 1 arg, phase := .running, wait := none, works := t.core.works + 1,
      cur := { pc := (t.handler 15).1, cls := 15, tag := gang, src := p.hdr.src, scope := p.hdr.scope, prio := 3, work := .start,
               cursor := { cls := 15 }, own := t.core.works + 1 } } }

/-- The undeliverable-message fault (R349 0x0E, R359). -/
def undeliverable (h : Hdr) (tag : Word) (start : Bool) : FaultRec :=
  { code := 0x0E, agent := 5, addr := h.src,
    info := BitVec.ofNat 32 (h.cls.toNat + (if h.urgent then 16 else 0) + (if start then 32 else 0) + 65536 * (tag.toNat % 65536)) }

/-- START_MESSAGE (R24, R45, R359): performed while the residency is Loading, after every ISTORE and control write for it; its header sets bit 0 of
the event latch (R247), whatever becomes of it. -/
def execStartMessage (s : State) : Host.Outcome State Fault Refusal :=
  s.become fun s =>
    match s.arriving with
    | none => s
    | some p =>
      match p.body with
      | .start gang arg =>
        if s.tile.core.phase ≠ .loading ∨ !s.loadDone p then s
        else
          let s := s.unsend p
          let s := { s with tile := s.tile.latch 0 }
          if s.coveredBy p.hdr.scope then s
          else if !(s.tile.handler 15).2 then
            { s with tile := s.tile.addPend (undeliverable p.hdr gang true) }
          else { s with tile := s.tile.start p gang arg }
      | _ => s

/- Retirement. -/

/-- GANG_RETIRE (R22, R56): gang `m` of carrel `n`, every member of which has executed DONE.G, or which has been cancelled or ended, in the carrel's steward-service slot. What
the steward of another wafer has to report of a gang, that it is done or, with `k` = 2, has ended faulted, is told by `ok` (log entry 86). -/
def execGangRetire (s : State) : Host.Outcome State Fault Refusal :=
  s.become fun s =>
    match s.carrel s.inp.n with
    | none => s
    | some c =>
      match c.gang s.inp.m with
      | none => s
      | some g =>
        if !(s.fieldAt c.home).served ∨ c.state ≠ .active ∨ !s.inService c then s
        else match g.state with
          | .running =>
            if s.inp.ok ∧ (g.wafer ≠ c.k ∨ !g.led) then s.retireGang c g (if s.inp.k = 2 then 2 else 0)
            else if g.wafer = c.k ∧ g.launch.w * g.launch.h ≤ g.count then s.retireGang c g 0
            else s
          | .ended st => s.retireGang c g st
          | _ => s

end Sys2Proof.Machine
end

