-- ==== Sys2Proof/Machine/Power.lean ====
section
/-!
DEFINITION. Power states and the power-on sequence (R191 to R197), the attestation report (R198), management registers (R173) and the host's
signed configuration (R348, R382).
-/

namespace Sys2Proof.Machine

/- Rails. -/

/-- The rails other than VAUX drop (R192): tiles, fields, traffic and edge go; far memory is outside, with the archives it holds. -/
def State.dropRails (s : State) : State :=
  { s with
    tile := Tile.fresh s.tile.phys, rest := [], flds := [], net := [],
    carrels := s.carrels.filter (·.state == .archived),
    wafer := { far := s.wafer.far, fuses := s.wafer.fuses, strapped := s.wafer.strapped, reports := s.wafer.reports, step := s.wafer.step } }

/-- The sequence fails in its current step (R192, R193). -/
def State.bootFails (s : State) : State := { s.dropRails with wafer.failed := true }

/-- VAUX_VALID (R192). -/
def execVauxValid (s : State) : Host.Outcome State Fault Refusal :=
  s.become fun s => if s.wafer.power = .off then { s with wafer.power := .aux } else s

/-- VAUX_LOST (R192). -/
def execVauxLost (s : State) : Host.Outcome State Fault Refusal :=
  s.become fun s => if s.wafer.power = .aux then { s with wafer.power := .off, wafer.step := 0, wafer.failed := false } else s

/-- The upstream ports that straps choose: bits 0 to 3 for ports 0, 12, 24 and 36, at least one of which is upstream (R13). -/
def strapsOf (n : Nat) : List Nat := (List.range 4).filterMap fun i => if n / 2 ^ i % 2 = 1 then some (12 * i) else none

/-- PWREN_ASSERTED (R13, R192, R193): step 1 begins; bits 0 to 3 of `n` are the straps of bring-up (log entry 83). -/
def execPwrenAsserted (s : State) : Host.Outcome State Fault Refusal :=
  s.become fun s =>
    if s.wafer.power = .aux then
      { s with wafer.power := .boot, wafer.step := 1, wafer.failed := false,
               wafer.strapped := if strapsOf s.inp.n = [] then s.wafer.strapped else strapsOf s.inp.n }
    else s

/-- POWER_ON_STEP_LIMIT (R193). -/
def execPowerOnStepLimit (s : State) : Host.Outcome State Fault Refusal :=
  s.become fun s => if s.wafer.power = .boot then s.bootFails else s

/-- PWREN_DEASSERTED (R192): with `ok` the host asked for a whole-wafer archive, which comes first. BOOTSTAT's step is 0 then (the model's choice, log entry 107). -/
def execPwrenDeasserted (s : State) : Host.Outcome State Fault Refusal :=
  s.become fun s =>
    if s.wafer.power ≠ .run then s
    else if s.inp.ok && s.carrels.any (·.live) then
      (s.carrels.filter (·.state == .active)).foldl (fun s c => s.startArchive c false none c.queue.port) s
    else { s.dropRails with wafer.step := 0 }

/-- RESET_N_ASSERTED (R192). In Boot the sequence has not failed: BOOTSTAT's fail and step read 0 then (the model's choice, log entry 107). -/
def execResetNAsserted (s : State) : Host.Outcome State Fault Refusal :=
  s.become fun s => if s.wafer.power = .run ∨ s.wafer.power = .boot then { s.dropRails with wafer.step := 0 } else s

/- Steps 5 to 8 of the power-on sequence. -/

/-- A steward tile that a verified image has been started on (R197, R406): handler-table entry 15, every register 0. -/
def bootSteward (p : Phys) (img : List Byte) : Tile :=
  let t := Tile.fresh p
  let t := { t with view.ist := t.view.ist.writeBytes 0 (img.take 16384) }
  { t with core.phase := .running, core.works := 1, core.cur := { pc := (t.handler 15).1, work := .boot, own := 1 } }

/-- Step 3: the fields' PLLs lock at 1.05 GHz. Step 4: every tile's SRAM and instruction store hold zeros with valid check bits. -/
def State.lockPlls (s : State) : State := { s with flds := s.flds.map fun (f : Field) => { f with pll := 1050, rate := Config.nominalRate } }
def State.zeroTiles (s : State) : State :=
  s.mapTiles fun t => { t with view.mem := [], view.ist := [], view.bad := [], view.badIst := [], view.soft := [] }

/-- The boot ROM accepts an image of the flash (R197): its signature verifies, and its security version is not below the fused one. -/
def accepted (bank : Nat) : Bool :=
  let (img, v, sig) := Config.flash bank
  Config.verifies img sig && decide (Config.svn.toNat ≤ v.toNat)

/-- Step 5: all 128 stewards run the same image. -/
def State.startStewards (s : State) (img : List Byte) : State :=
  allFields.foldl (fun s f => (s.setTile (bootSteward (actingSteward f) img)).setTile (bootSteward (mirrorSteward f) img)) s

/-- The hops between two nonets (R194). -/
def nonetDist (a b : Nat × Nat) : Nat := 3 * ((a.1 - b.1) + (b.1 - a.1) + (a.2 - b.2) + (b.2 - a.2))

/-- The replacement spares of a field, by nx and then ny (R194). -/
def spareNonets : List (Nat × Nat) := ((List.range 48).flatMap fun x => [(x, 0), (x, 43)]).filter spareNonet

/-- The free, flawless spare with the fewest hops (R194, R382); ties go to the first. -/
def State.nearestSpare (s : State) (f n : Nat × Nat) : Option (Nat × Nat) :=
  (spareNonets.filter (s.freeSpare f)).foldl (fun a x => match a with
    | none => some x
    | some y => if nonetDist n x < nonetDist n y then some x else some y) none

/-- Step 6 of a field: each flawed working nonet is replaced, in ascending group index (R194). -/
def State.replaceFlawed (s : State) (f : Nat × Nat) : State :=
  if s.wafer.fuses.all fun x => x.1.field != f || x.2 == 0 then s
  else (List.range 2048).foldl (fun s g =>
    if (nonetTiles f (fieldMap g)).all fun p => s.fuse p == 0 then s
    else match s.nearestSpare f (fieldMap g) with
      | none => s
      | some n =>
        let c := mkSlot n bringUpPos 0 true false
        s.updField f fun fl => fl.setEntry g { a := c, b := c }) s

/-- What step 6 does for each tile that is not good (R194): a detour round a router that does not work, which its neighbours hold for nobody's (R145). -/
def State.fuseTile (s : State) (x : Phys × BitVec 2) : State :=
  if x.2 = 0 then s
  else
    let bad := decide (2 ≤ x.2.toNat)
    let s := s.updTile x.1 fun t => { t with stop.off := true, router.off := bad }
    let s := s.updField x.1.field fun f => { f with defects := f.defects ++ [x.1] }
    if bad then (s.detourRound x.1).setOwner x.1 {} else s

/-- Field (0, 0) takes the start time, and the others are not yet aligned to it (R170, R196). -/
def State.takeTime (s : State) (ns : Nat) : State :=
  let s := { s with flds := s.flds.map fun (f : Field) => { f with skew := 0xFFFF } }
  s.updField (0, 0) fun f => { f.setTime (ns * 2 ^ 32) with skew := 0 }

/-- The devices of a port from a base on (R179): each aligned up to 256 MiB, and nothing past 2 TiB. -/
def placeDevices : Nat → List Nat → List (Nat × Nat)
  | _, [] => []
  | a, x :: xs => if 2 ^ 41 ≤ a then [] else (a, min x (2 ^ 41 - a)) :: placeDevices (a + (x + 2 ^ 28 - 1) / 2 ^ 28 * 2 ^ 28) xs

/-- The devices of a downstream port's space (R179): at most 16 behind a switch. -/
def portDevices (n : Nat) : List (Nat × Nat) := placeDevices 0 ((Config.deviceBytes n).take 16)

/-- Step 8: the links train in their strapped roles (R13, R179). -/
def State.trainLinks (s : State) : State :=
  { s with
    wafer.ports := (List.range 48).map fun n =>
      let up := s.wafer.strapped.contains n
      { num := n, upstream := up, devices := if up then [] else portDevices n, width := trainedWidth (Config.training n), rate := trainedRate (Config.training n) },
    wafer.peers := [] }

/-- POWER_ON_STEP_END (R192 to R197). BOOTSTAT's step stays 8 in Run (the model's choice, log entry 107). In step 5 bank A is taken, or where it is not accepted bank B, or the step fails. Step 7 ends only when every field is
aligned. -/
def execPowerOnStepEnd (s : State) : Host.Outcome State Fault Refusal :=
  s.become fun s =>
    if s.wafer.power ≠ .boot then s
    else
      let next (s : State) : State := { s with wafer.step := s.wafer.step + 1 }
      match s.wafer.step with
      | 3 => next s.lockPlls
      | 4 => next s.zeroTiles
      | 5 =>
        let run (b : Nat) : State := next { s.startStewards (Config.flash b).1 with wafer.bank := b == 1, wafer.image := (Config.flash b).1 }
        if accepted 0 then run 0 else if accepted 1 then run 1 else s.bootFails
      | 6 => next ((s.wafer.fuses.foldl State.fuseTile (allFields.foldl State.replaceFlawed s)).takeTime 0)
      | 7 => if allFields.all fun f => (s.fieldAt f).skew != 0xFFFF then next s else s
      | 8 => { s.trainLinks with wafer.power := .run, wafer.ready := true }
      | _ => next s

/-- START_TIME_WRITE (R196): the 64-bit value in `j`, in step 7. -/
def execStartTimeWrite (s : State) : Host.Outcome State Fault Refusal :=
  s.become fun s =>
    if s.wafer.power = .boot ∧ s.wafer.step = 7 then
      { s with wafer.startTime := BitVec.ofNat 64 s.inp.j }.takeTime (s.inp.j % 2 ^ 64)
    else s

/-- The bytes of the fuse defect map: each tile that is not good, with its code. -/
def fuseBytes (l : List (Phys × BitVec 2)) : List Byte := (l.filter (·.2 ≠ 0)).flatMap fun x => natBytes 4 x.1.operand.toNat ++ [x.2.setWidth 8]

/-- ATTESTATION_REQUEST (R198): `bytes` is the nonce; a refusal is an empty report. -/
def execAttestationRequest (s : State) : Host.Outcome State Fault Refusal :=
  s.become fun s =>
    if s.inp.bytes.length ≠ 48 then s
    else if s.wafer.power = .run ∨ (s.wafer.power = .boot ∧ 5 < s.wafer.step) then
      let body := s.inp.bytes ++ natBytes 2 Config.waferId.toNat ++ Config.sha384 s.wafer.image ++ Config.sha384 (fuseBytes s.wafer.fuses)
        ++ [Config.svn, if s.wafer.bank then 1 else 0]
      { s with wafer.reports := s.wafer.reports ++ [body ++ Config.attestSignature body] }
    else { s with wafer.reports := s.wafer.reports ++ [[]] }

/-- Replace a launch window of a list, or list it. -/
def putWindow (p w : Nat) (x : LaunchWindow) : List (Nat × Nat × LaunchWindow) → List (Nat × Nat × LaunchWindow)
  | [] => [(p, w, x)]
  | y :: ys => if y.1 = p ∧ y.2.1 = w then (p, w, x) :: ys else y :: putWindow p w x ys

/-- MANAGEMENT_REGISTER_WRITE (R2, R173, R185): register `k` of port `n`: 0 the base of launch window `m`, from `j`, which is taken where a downstream port owns it
(log entry 65); 1 its enable bit, from `ok`; 2 the peer port `m` by which field (0, 0) aligns to a parent wafer, or with `ok` none, this wafer being its domain's
reference. Every other register that has no row of its own is read-only. -/
def execManagementRegisterWrite (s : State) : Host.Outcome State Fault Refusal :=
  s.become fun s =>
    let p := s.inp.n
    let w := s.inp.m
    if !s.hostPort p ∨ (16 ≤ w ∧ s.inp.k < 2) then s
    else
      let x := s.window p w
      match s.inp.k with
      | 0 =>
        let base := s.inp.j % 2 ^ 47 / 2 ^ 30 * 2 ^ 30
        if s.downstream.contains (farOwner base) then { s with wafer.windows := putWindow p w { x with base := base } s.wafer.windows } else s
      | 1 => { s with wafer.windows := putWindow p w { x with en := s.inp.ok } s.wafer.windows }
      | 2 => { s with wafer.parent := if s.inp.ok then none else some s.inp.m }
      | _ => s

/- Signed configuration. -/

/-- Replace the nonet `n` of a field (R382): the nearest spare takes its group, or 0xD7 and notice 0x6C say that there is none. -/
def State.replaceNonet (s : State) (f n : Nat × Nat) : State :=
  match (s.fieldAt f).groupOn n with
  | none => s
  | some g =>
    match s.nearestSpare f n with
    | some m => if s.heldBack f n then s else s.startReplace f g m none
    | none =>
      let info := BitVec.ofNat 32 (n.1 + 64 * n.2 + 4096 * (f.1 + 8 * f.2))
      let s := s.stewardEvent f 0xD7 0 info
      match s.groupCarrel f g with
      | none => s
      | some c => s.notify c.num (hostOnly c.num 0x6C 0 info (s.fieldAt c.home).ns)

/-- SIGNED_CONFIGURATION (R348, R361, R382): with `ok` the signature holds. `k` = 0 sets the retirement policy to the count `n` within `j` ns; 1 sets the wait
limit of carrel `n`; 2 asks that nonet `j` (nx + 64 ny) of field `n` be replaced. -/
def execSignedConfiguration (s : State) : Host.Outcome State Fault Refusal :=
  s.become fun s =>
    if !s.inp.ok ∨ s.wafer.power ≠ .run then s
    else match s.inp.k with
      | 0 => { s with wafer.policy := (s.inp.n, s.inp.j) }
      | 1 => s.updCarrel s.inp.n fun c => { c with lw := s.inp.word.toNat % 65536 }
      | 2 => if (s.fieldAt (fieldOf s.inp.n)).served then s.replaceNonet (fieldOf s.inp.n) (s.inp.j % 64, s.inp.j / 64) else s
      | _ => s

end Sys2Proof.Machine
end

