-- ==== Sys2Proof/Machine/Scalar.lean ====
section
/-!
DEFINITION. The scalar instructions of majors 0x00 to 0x1E (R224 to R235) and the compact instructions that equal one of them (R200).
Every one is a value written to d (or to a, in a compact form) over the shared operation `alu`.
-/

namespace Sys2Proof.Machine

/- Values. -/

/-- ADDS and SUBS of R224: the exact result clamped to a signed word. -/
def addSat (x y : Word) : Word := BitVec.ofInt 32 (clampInt (x.toInt + y.toInt) (-2 ^ 31) (2 ^ 31 - 1))
def subSat (x y : Word) : Word := BitVec.ofInt 32 (clampInt (x.toInt - y.toInt) (-2 ^ 31) (2 ^ 31 - 1))

/-- A condition as a word. -/
def boolWord (b : Bool) : Word := if b then 1 else 0

/-- The smaller or larger of R224. -/
def minS (x y : Word) : Word := if x.slt y then x else y
def maxS (x y : Word) : Word := if x.slt y then y else x
def minU (x y : Word) : Word := if x.ult y then x else y
def maxU (x y : Word) : Word := if x.ult y then y else x

/-- The shifts of R226; the amount is taken whole. -/
def shlBy (x : Word) (n : Nat) : Word := if n < 32 then x <<< n else 0
def shrBy (x : Word) (n : Nat) : Word := if n < 32 then x >>> n else 0
def sraBy (x : Word) (n : Nat) : Word := if n < 32 then x.sshiftRight n else if x.msb then 0xFFFFFFFF else 0
def rotBy (x : Word) (n : Nat) : Word := x.rotateLeft (n % 32)

/-- The bit counts of R228. -/
def clzWord (x : Word) : Word := BitVec.ofNat 32 ((List.range 32).takeWhile fun i => !x.getLsbD (31 - i)).length
def ctzWord (x : Word) : Word := BitVec.ofNat 32 ((List.range 32).takeWhile fun i => !x.getLsbD i).length
def popcWord (x : Word) : Word := BitVec.ofNat 32 ((List.range 32).filter fun i => x.getLsbD i).length
def brevWord (x : Word) : Word := x.reverse

/-- The high halves of R230. -/
def mulHigh (x y : Word) : Word := BitVec.ofInt 32 (x.toInt * y.toInt / 2 ^ 32)
def mulHighU (x y : Word) : Word := BitVec.ofNat 32 (x.toNat * y.toNat / 2 ^ 32)

/-- The divides of R231, with its two decided cases. -/
def divS (x y : Word) : Word := if y = 0 then 0xFFFFFFFF else BitVec.ofInt 32 (x.toInt.tdiv y.toInt)
def divU (x y : Word) : Word := if y = 0 then 0xFFFFFFFF else BitVec.ofNat 32 (x.toNat / y.toNat)
def remS (x y : Word) : Word := if y = 0 then x else BitVec.ofInt 32 (x.toInt.tmod y.toInt)
def remU (x y : Word) : Word := if y = 0 then x else BitVec.ofNat 32 (x.toNat % y.toNat)

/-- The funnel shifts of R229. -/
def funnelL (x y c : Word) : Word := BitVec.ofNat 32 ((x.toNat * 2 ^ 32 + y.toNat) * 2 ^ (min c.toNat 32) / 2 ^ 32)
def funnelR (x y c : Word) : Word := BitVec.ofNat 32 ((x.toNat * 2 ^ 32 + y.toNat) / 2 ^ (min c.toNat 32))

/-- CRCW of R234: one bit step, taken for the 32 bits from the least significant. -/
def crcStep (x : Word) (crc : Word) (i : Nat) : Word :=
  if (crc ^^^ (x >>> i)).getLsbD 0 then (crc >>> 1) ^^^ 0x82F63B78 else crc >>> 1
def crcWord (crc x : Word) : Word := (List.range 32).foldl (crcStep x) crc

/-- BFX and BFI of R232, with the width as encoded (width − 1). -/
def bfxWord (x : Word) (w p : BitVec 5) : Word := BitVec.ofNat 32 (x.toNat / 2 ^ p.toNat % 2 ^ (w.toNat + 1))
def bfiWord (old x : Word) (w p : BitVec 5) : Word :=
  let m := BitVec.ofNat 32 ((2 ^ (w.toNat + 1) - 1) * 2 ^ p.toNat)
  (old &&& ~~~m) ||| ((x <<< p.toNat) &&& m)

/-- LUT3 (R233) and VLUT3 (R279): result bit i is bit 4 x[i] + 2 y[i] + z[i] of the table. -/
def lut3Bits {n : Nat} (t : BitVec 8) (x y z : BitVec n) : BitVec n :=
  (List.range 8).foldl (fun r k =>
    if t.getLsbD k then
      r ||| ((if k / 4 % 2 = 1 then x else ~~~x) &&& (if k / 2 % 2 = 1 then y else ~~~y) &&& (if k % 2 = 1 then z else ~~~z))
    else r) 0

/- The shared operation. -/

/-- An instruction whose whole effect is to write d with a value of its sources (R223 to R235). -/
def State.alu (s : State) (i : Instr) (reads : List Reg) (d : Reg) (f : State → Word) : Host.Outcome State Fault Refusal :=
  s.issue i { reads := reads } fun s => .done (s.setS d (f s))

/-- The form OP d, a, b. -/
def State.alu2 (s : State) (i : Instr) (d a b : Reg) (f : Word → Word → Word) : Host.Outcome State Fault Refusal :=
  s.alu i [a, b] d fun s => f (s.sr a) (s.sr b)

/-- The forms OP d, a and OP d, a, imm. -/
def State.alu1 (s : State) (i : Instr) (d a : Reg) (f : Word → Word) : Host.Outcome State Fault Refusal :=
  s.alu i [a] d fun s => f (s.sr a)

/- The instructions. -/

/-- ADD (R224). -/
def execAdd (d a b : Reg) (s : State) : Host.Outcome State Fault Refusal :=
  s.alu2 (.add d a b) d a b (· + ·)

/-- SUB (R224). -/
def execSub (d a b : Reg) (s : State) : Host.Outcome State Fault Refusal :=
  s.alu2 (.sub d a b) d a b (· - ·)

/-- ADDS (R224). -/
def execAdds (d a b : Reg) (s : State) : Host.Outcome State Fault Refusal :=
  s.alu2 (.adds d a b) d a b addSat

/-- SUBS (R224). -/
def execSubs (d a b : Reg) (s : State) : Host.Outcome State Fault Refusal :=
  s.alu2 (.subs d a b) d a b subSat

/-- AND (R224). -/
def execAnd (d a b : Reg) (s : State) : Host.Outcome State Fault Refusal :=
  s.alu2 (.and d a b) d a b (· &&& ·)

/-- OR (R224). -/
def execOr (d a b : Reg) (s : State) : Host.Outcome State Fault Refusal :=
  s.alu2 (.or d a b) d a b (· ||| ·)

/-- XOR (R224). -/
def execXor (d a b : Reg) (s : State) : Host.Outcome State Fault Refusal :=
  s.alu2 (.xor d a b) d a b (· ^^^ ·)

/-- ANDN (R224). -/
def execAndn (d a b : Reg) (s : State) : Host.Outcome State Fault Refusal :=
  s.alu2 (.andn d a b) d a b (fun x y => x &&& ~~~y)

/-- ORN (R224). -/
def execOrn (d a b : Reg) (s : State) : Host.Outcome State Fault Refusal :=
  s.alu2 (.orn d a b) d a b (fun x y => x ||| ~~~y)

/-- SLT (R224). -/
def execSlt (d a b : Reg) (s : State) : Host.Outcome State Fault Refusal :=
  s.alu2 (.slt d a b) d a b (fun x y => boolWord (x.slt y))

/-- SLTU (R224). -/
def execSltu (d a b : Reg) (s : State) : Host.Outcome State Fault Refusal :=
  s.alu2 (.sltu d a b) d a b (fun x y => boolWord (x.ult y))

/-- MIN (R224). -/
def execMin (d a b : Reg) (s : State) : Host.Outcome State Fault Refusal :=
  s.alu2 (.min d a b) d a b minS

/-- MAX (R224). -/
def execMax (d a b : Reg) (s : State) : Host.Outcome State Fault Refusal :=
  s.alu2 (.max d a b) d a b maxS

/-- MINU (R224). -/
def execMinu (d a b : Reg) (s : State) : Host.Outcome State Fault Refusal :=
  s.alu2 (.minu d a b) d a b minU

/-- MAXU (R224). -/
def execMaxu (d a b : Reg) (s : State) : Host.Outcome State Fault Refusal :=
  s.alu2 (.maxu d a b) d a b maxU

/-- SHL (R226). -/
def execShl (d a b : Reg) (s : State) : Host.Outcome State Fault Refusal :=
  s.alu2 (.shl d a b) d a b (fun x y => shlBy x y.toNat)

/-- SHR (R226). -/
def execShr (d a b : Reg) (s : State) : Host.Outcome State Fault Refusal :=
  s.alu2 (.shr d a b) d a b (fun x y => shrBy x y.toNat)

/-- SRA (R226). -/
def execSra (d a b : Reg) (s : State) : Host.Outcome State Fault Refusal :=
  s.alu2 (.sra d a b) d a b (fun x y => sraBy x y.toNat)

/-- ROT (R226). -/
def execRot (d a b : Reg) (s : State) : Host.Outcome State Fault Refusal :=
  s.alu2 (.rot d a b) d a b (fun x y => rotBy x y.toNat)

/-- MUL (R230). -/
def execMul (d a b : Reg) (s : State) : Host.Outcome State Fault Refusal :=
  s.alu2 (.mul d a b) d a b (· * ·)

/-- MULH (R230). -/
def execMulh (d a b : Reg) (s : State) : Host.Outcome State Fault Refusal :=
  s.alu2 (.mulh d a b) d a b mulHigh

/-- MULHU (R230). -/
def execMulhu (d a b : Reg) (s : State) : Host.Outcome State Fault Refusal :=
  s.alu2 (.mulhu d a b) d a b mulHighU

/-- DIV (R231). -/
def execDiv (d a b : Reg) (s : State) : Host.Outcome State Fault Refusal :=
  s.alu2 (.div d a b) d a b divS

/-- DIVU (R231). -/
def execDivu (d a b : Reg) (s : State) : Host.Outcome State Fault Refusal :=
  s.alu2 (.divu d a b) d a b divU

/-- REM (R231). -/
def execRem (d a b : Reg) (s : State) : Host.Outcome State Fault Refusal :=
  s.alu2 (.rem d a b) d a b remS

/-- REMU (R231). -/
def execRemu (d a b : Reg) (s : State) : Host.Outcome State Fault Refusal :=
  s.alu2 (.remu d a b) d a b remU

/-- CRCW (R234). -/
def execCrcw (d a b : Reg) (s : State) : Host.Outcome State Fault Refusal :=
  s.alu2 (.crcw d a b) d a b crcWord

/-- CLZ (R228). -/
def execClz (d a : Reg) (s : State) : Host.Outcome State Fault Refusal :=
  s.alu1 (.clz d a) d a clzWord

/-- CTZ (R228). -/
def execCtz (d a : Reg) (s : State) : Host.Outcome State Fault Refusal :=
  s.alu1 (.ctz d a) d a ctzWord

/-- POPC (R228). -/
def execPopc (d a : Reg) (s : State) : Host.Outcome State Fault Refusal :=
  s.alu1 (.popc d a) d a popcWord

/-- BREV (R228). -/
def execBrev (d a : Reg) (s : State) : Host.Outcome State Fault Refusal :=
  s.alu1 (.brev d a) d a brevWord

/-- FSHL (R229). -/
def execFshl (d a b c : Reg) (s : State) : Host.Outcome State Fault Refusal :=
  s.alu (.fshl d a b c) [a, b, c] d fun s => funnelL (s.sr a) (s.sr b) (s.sr c)

/-- FSHR (R229). -/
def execFshr (d a b c : Reg) (s : State) : Host.Outcome State Fault Refusal :=
  s.alu (.fshr d a b c) [a, b, c] d fun s => funnelR (s.sr a) (s.sr b) (s.sr c)

/-- ADDI (R225). -/
def execAddi (d a : Reg) (imm : BitVec 14) (s : State) : Host.Outcome State Fault Refusal :=
  s.alu1 (.addi d a imm) d a fun x => x + imm.signExtend 32

/-- ANDI (R225). -/
def execAndi (d a : Reg) (imm : BitVec 14) (s : State) : Host.Outcome State Fault Refusal :=
  s.alu1 (.andi d a imm) d a fun x => x &&& imm.signExtend 32

/-- ORI (R225). -/
def execOri (d a : Reg) (imm : BitVec 14) (s : State) : Host.Outcome State Fault Refusal :=
  s.alu1 (.ori d a imm) d a fun x => x ||| imm.signExtend 32

/-- XORI (R225). -/
def execXori (d a : Reg) (imm : BitVec 14) (s : State) : Host.Outcome State Fault Refusal :=
  s.alu1 (.xori d a imm) d a fun x => x ^^^ imm.signExtend 32

/-- SLTI (R225). -/
def execSlti (d a : Reg) (imm : BitVec 14) (s : State) : Host.Outcome State Fault Refusal :=
  s.alu1 (.slti d a imm) d a fun x => boolWord (x.slt (imm.signExtend 32))

/-- SLTIU (R225). -/
def execSltiu (d a : Reg) (imm : BitVec 14) (s : State) : Host.Outcome State Fault Refusal :=
  s.alu1 (.sltiu d a imm) d a fun x => boolWord (x.ult (imm.signExtend 32))

/-- SHLI (R227). -/
def execShli (d a : Reg) (n : BitVec 5) (s : State) : Host.Outcome State Fault Refusal :=
  s.alu1 (.shli d a n) d a fun x => shlBy x n.toNat

/-- SHRI (R227). -/
def execShri (d a : Reg) (n : BitVec 5) (s : State) : Host.Outcome State Fault Refusal :=
  s.alu1 (.shri d a n) d a fun x => shrBy x n.toNat

/-- SRAI (R227). -/
def execSrai (d a : Reg) (n : BitVec 5) (s : State) : Host.Outcome State Fault Refusal :=
  s.alu1 (.srai d a n) d a fun x => sraBy x n.toNat

/-- ROTI (R227). -/
def execRoti (d a : Reg) (n : BitVec 5) (s : State) : Host.Outcome State Fault Refusal :=
  s.alu1 (.roti d a n) d a fun x => rotBy x n.toNat

/-- LI (R235). -/
def execLi (d : Reg) (imm : BitVec 19) (s : State) : Host.Outcome State Fault Refusal :=
  s.alu (.li d imm) [] d fun _ => imm.signExtend 32

/-- LUI (R235). -/
def execLui (d : Reg) (imm : BitVec 19) (s : State) : Host.Outcome State Fault Refusal :=
  s.alu (.lui d imm) [] d fun _ => imm ++ 0#13

/-- BFX (R232). -/
def execBfx (d a : Reg) (w p : BitVec 5) (s : State) : Host.Outcome State Fault Refusal :=
  s.alu1 (.bfx d a w p) d a fun x => bfxWord x w p

/-- BFI (R232). -/
def execBfi (d a : Reg) (w p : BitVec 5) (s : State) : Host.Outcome State Fault Refusal :=
  s.alu (.bfi d a w p) [a, d] d fun s => bfiWord (s.sr d) (s.sr a) w p

/-- LUT3 (R233). -/
def execLut3 (d a b : Reg) (t : BitVec 8) (s : State) : Host.Outcome State Fault Refusal :=
  s.alu (.lut3 d a b t) [a, b, d] d fun s => lut3Bits t (s.sr a) (s.sr b) (s.sr d)

/-- Compact MOV: OR a, b, s0 (R200). -/
def execMov (a b : Reg) (s : State) : Host.Outcome State Fault Refusal := s.alu1 (.mov a b) a b id

/-- Compact ADD: ADD a, a, b (R200). -/
def execAddCompact (a b : Reg) (s : State) : Host.Outcome State Fault Refusal :=
  s.alu2 (.addCompact a b) a a b (· + ·)

/-- Compact SUB: SUB a, a, b (R200). -/
def execSubCompact (a b : Reg) (s : State) : Host.Outcome State Fault Refusal :=
  s.alu2 (.subCompact a b) a a b (· - ·)

/-- Compact AND: AND a, a, b (R200). -/
def execAndCompact (a b : Reg) (s : State) : Host.Outcome State Fault Refusal :=
  s.alu2 (.andCompact a b) a a b (· &&& ·)

/-- Compact OR: OR a, a, b (R200). -/
def execOrCompact (a b : Reg) (s : State) : Host.Outcome State Fault Refusal :=
  s.alu2 (.orCompact a b) a a b (· ||| ·)

/-- Compact XOR: XOR a, a, b (R200). -/
def execXorCompact (a b : Reg) (s : State) : Host.Outcome State Fault Refusal :=
  s.alu2 (.xorCompact a b) a a b (· ^^^ ·)

/-- Compact ADDI5: ADDI a, a, imm (R200). -/
def execAddi5 (a : Reg) (imm : BitVec 5) (s : State) : Host.Outcome State Fault Refusal :=
  s.alu1 (.addi5 a imm) a a fun x => x + imm.signExtend 32

/-- Compact SHLI: SHLI a, a, n (R200). -/
def execShliCompact (a : Reg) (n : BitVec 5) (s : State) : Host.Outcome State Fault Refusal :=
  s.alu1 (.shliCompact a n) a a fun x => shlBy x n.toNat

/-- Compact SHRI: SHRI a, a, n (R200). -/
def execShriCompact (a : Reg) (n : BitVec 5) (s : State) : Host.Outcome State Fault Refusal :=
  s.alu1 (.shriCompact a n) a a fun x => shrBy x n.toNat

/-- Compact SRAI: SRAI a, a, n (R200). -/
def execSraiCompact (a : Reg) (n : BitVec 5) (s : State) : Host.Outcome State Fault Refusal :=
  s.alu1 (.sraiCompact a n) a a fun x => sraBy x n.toNat

/-- Compact LI5: LI a, imm (R200). -/
def execLi5 (a : Reg) (imm : BitVec 5) (s : State) : Host.Outcome State Fault Refusal :=
  s.alu (.li5 a imm) [] a fun _ => imm.signExtend 32

end Sys2Proof.Machine
end

