-- ==== Sys2Proof/Machine/Fields.lean ====
section
/-!
DEFINITION. The works of a field's hardware and stewards: temperature (R67, R190, R362), the almanac's slots and frames (R146, R147), scrubbing
and errors (R347), epochs (R76), time (R169, R170, R185, R395), transit tables (R396) and the loss of a steward (R366 to R368).
-/

namespace Sys2Proof.Machine

/- Temperature. -/

/-- The listed tiles of a field; a tile that the state does not list reads 0 °C (log entry 5). -/
def State.fieldTiles (s : State) (f : Nat × Nat) : List Tile := s.tiles.filter fun t => t.phys.field == f

/-- 95, 100 and 110 °C in units of 1/16 °C (R67, R190). -/
def coolTemp : Int := 1520
def warmTemp : Int := 1600
def tripTemp : Int := 1760

/-- Set a field's PLL (R190); its rate per clk follows the clock (R168; log entry 6). -/
def Field.setPll (f : Field) (mhz : Nat) : Field := { f with pll := mhz, rate := f.rate * f.pll / mhz }

/-- The fields' PLLs run: they have locked in step 3 of the power-on sequence (R67, R193). -/
def State.pllsRun (s : State) : Bool := s.wafer.power == .run || (s.wafer.power == .boot && decide (3 < s.wafer.step))

/-- SENSOR_SAMPLE (R67): the sensor of the tile in focus reads `word`, while its field's PLL runs. -/
def execSensorSample (s : State) : Host.Outcome State Fault Refusal :=
  s.become fun s => if s.pllsRun then { s with tile.id.temp := s.inp.word.setWidth 16 } else s

/-- FIELD_THERMAL_CHECK (R190): once a frame. -/
def execFieldThermalCheck (s : State) : Host.Outcome State Fault Refusal :=
  s.become fun s =>
    let f := s.tile.phys.field
    let fl := s.fld
    if fl.did.contains frameKey ∨ !fl.served ∨ fl.paused then s
    else
      let ts := (s.fieldTiles f).map (·.id.temp.toInt)
      let mhz := if ts.any (decide <| warmTemp ≤ ·) then max 700 (fl.pll - 50)
                 else if ts.all (decide <| · ≤ coolTemp) then min 1050 (fl.pll + 50) else fl.pll
      s.updField f fun fl => { (if mhz = fl.pll then fl else fl.setPll mhz) with did := frameKey :: fl.did }

/-- The hottest tile of a field. -/
def State.hottest (s : State) (f : Nat × Nat) : Option Tile := bestTile (fun a b => decide (b.id.temp.toInt < a.id.temp.toInt)) (s.fieldTiles f)

/-- The notices of a thermal pause or resume (R362, R365). -/
def State.thermalNotice (s : State) (f : Nat × Nat) (resume : Bool) : State :=
  let i : Word := if resume then 1 else 0
  (s.stewardEvent f 0xC4 (((s.hottest f).map (·.phys.operand)).getD 0) i).notifyField f 0x17 0 i

/-- THERMAL_PAUSE (R362): a tile at 110 °C or more; pending faults are taken at the pause boundary (R363). -/
def execThermalPause (s : State) : Host.Outcome State Fault Refusal :=
  s.become fun s =>
    let f := s.tile.phys.field
    if s.fld.paused ∨ !(s.fieldTiles f).any fun t => decide (tripTemp ≤ t.id.temp.toInt) then s
    else
      let ps := ((s.fieldTiles f).filter fun t => !t.phys.steward && !t.moving && !t.stop.archived).map (·.phys)
      let s := s.atEach State.takeNext ps
      (s.updField f fun fl => { fl.setPll 700 with paused := true }).thermalNotice f false

/-- THERMAL_RESUME (R362): every tile at 95 °C or less. -/
def execThermalResume (s : State) : Host.Outcome State Fault Refusal :=
  s.become fun s =>
    let f := s.tile.phys.field
    if s.fld.paused && (s.fieldTiles f).all fun t => decide (t.id.temp.toInt ≤ coolTemp) then
      (s.updField f fun fl => { fl with paused := false }).thermalNotice f true
    else s

/- The almanac. -/

/-- A slot of the field in focus begins: bit 7 of every event latch (R247), and the slot's works are to be done. -/
def State.beginSlot (s : State) (slot : Nat) (frame : Bool) : State :=
  let f := s.tile.phys.field
  let s := s.updField f fun fl => { fl with slot := slot, did := if frame then [] else fl.did.filter (frameKey ≤ ·) }
  s.mapTiles fun t => if t.phys.field = f then t.latch 7 else t

/-- ALMANAC_SLOT_BOUNDARY (R146). -/
def execAlmanacSlotBoundary (s : State) : Host.Outcome State Fault Refusal :=
  s.become fun s =>
    let ns := s.fld.ns
    if frameOf ns = s.fld.frame ∧ slotAt ns ≠ s.fld.slot then s.beginSlot (slotAt ns) false else s

/-- FRAME_START (R147, R149): what ALMSET wrote takes effect, the frame's first slot begins, and of a transit cycle the next frame's tables are written. -/
def execFrameStart (s : State) : Host.Outcome State Fault Refusal :=
  s.become fun s =>
    let ns := s.fld.ns
    if frameOf ns ≤ s.fld.frame then s
    else
      let s := s.updFld fun f => { f with frame := frameOf ns, almanac := f.almNext.foldl putEntry f.almanac, almNext := [] }
      (s.writeCycle s.tile.phys.field).beginSlot (slotAt ns) true

/-- EPOCH_TICK (R76). -/
def execEpochTick (s : State) : Host.Outcome State Fault Refusal :=
  s.become fun s => if Config.epochClk ≤ s.tile.view.epochClk then { s with tile.view := s.tile.view.tick } else s

/- Errors. -/

/-- The SRAM of the tile in focus is held in reset: nothing reads or scrubs it (R260, R410). Of a lost steward only the core is (R367). -/
def State.sramOff (s : State) : Bool := s.tile.stop.off && !s.onSteward

/-- The oldest correction is reported (R347, R365): the field's fault records have it, and the steward its event. -/
def State.reportFixed (s : State) : State :=
  match s.tile.view.fixed with
  | [] => s
  | (ist, w) :: xs =>
    let p := s.tile.phys
    let s := { s with tile.view.fixed := xs }.updFld fun f => { f with history := f.history ++ [(p, if ist then 0x1C0 else 0xC0, f.ns)] }
    s.stewardEvent p.field 0xC0 p.operand (BitVec.ofNat 32 (w + if ist then 2 ^ 14 else 0))

/-- By the retirement policy the tile in focus is to be retired (R348): of one kind of correctable error there have been as many as it says within its time, or there has been
an uncorrectable one and the residency there is not Faulted. -/
def State.retireDue (s : State) : Bool :=
  let times (k : Nat → Bool) : List Nat := (s.fld.history.filter fun x => x.1 == s.tile.phys && k x.2.1).map (·.2.2)
  let many (l : List Nat) : Bool := (List.range l.length).any fun i => match l[i + (s.wafer.policy.1 - 1)]? with
    | some t => decide (t - l.getD i 0 ≤ s.wafer.policy.2)
    | none => false
  many (times (· == 0xC0)) || many (times (· == 0x1C0)) || (!(times fun k => k != 0xC0 && k != 0x1C0).isEmpty && s.tile.stop.faulted.isNone)

/-- Genesh goes on with the retirement of the tile in focus (R348, R382, R409): a member moves to the nonet's shade, or with no shade left its nonet is replaced; a tile that
no member position names is turned off. -/
def State.retireTile (s : State) : State :=
  let p := s.tile.phys
  let f := p.field
  match s.fld.groupOn p.nonet with
  | none => { s with tile.stop.off := true }.updFld fun fl => { fl with defects := fl.defects ++ [p] }
  | some g =>
    let c := s.fld.readEntry g
    match memberAt c p.pos with
    | none => if s.tile.core.phase ≠ .unbound ∨ s.targeted p then s else { s with tile.stop.off := true }.updFld fun fl => { fl with defects := fl.defects ++ [p] }
    | some m =>
      let shades := ((nonetTiles f p.nonet).map s.tileAt).filter fun t => (memberAt c t.phys.pos).isNone && !t.stop.off && !s.fld.defects.contains t.phys
      if s.immovable s.tile then s
      else if shades = [] then s.replaceNonet f p.nonet
      else match shades.find? fun t => t.net.fwd.isNone && t.core.phase == .unbound && !s.targeted t.phys with
        | none => s
        | some q =>
          let (s, o) := s.ordered
          if s.tile.core.phase = .unbound then s.queuePublish [.place g m q.phys.pos] none (some o)
          else { s with tile := s.tile.requestMove q.phys none none (some o) }

/-- CORRECTABLE_ERROR (R347, R348): the oldest correction is reported; with none, a read of no instruction has met the error in word `n`, of the instruction store with `ok`. With
`k` = 1 Genesh retires the tile in focus where the policy says so (log entry 51). -/
def execCorrectableError (s : State) : Host.Outcome State Fault Refusal :=
  s.become fun s =>
    if s.inp.k = 1 then
      if s.retireDue && s.fld.served && !s.onSteward && !s.tile.stop.off then s.retireTile else s
    else if s.tile.view.fixed = [] ∧ !s.sramOff then { s with tile.view := s.tile.view.correct s.inp.ok s.inp.n }.reportFixed
    else s.reportFixed

/-- An uncorrectable word that no residency's fault reports is entered in the field's fault records (R12, R348). -/
def State.recordHard (s : State) : State := s.updFld fun f => { f with history := f.history ++ [(s.tile.phys, 0x82, f.ns)] }

/-- An uncorrectable data word that scrubbing finds (R347): zeroed in a free frame, else code 0x82. -/
def State.scrubBad (s : State) (w : Nat) : State :=
  let t := s.tile
  let pg := t.view.pageOfWord w
  let hw := decide (0x16000 ≤ 8 * w) && t.core.phase != .unbound
  match pg, hw with
  | none, false => { s with tile.view := { t.view with bad := t.view.bad.filter (· ≠ w), ue := t.view.ue + 1 } }.recordHard
  | _, _ =>
    let a := (pg.map fun p => p.vbase + (8 * w - p.pbase)).getD 0
    { s with tile := t.addPend { code := 0x82, hard := true, agent := 6, addr := BitVec.ofNat 32 a, info := BitVec.ofNat 32 w } }

/-- An uncorrectable instruction-store word that scrubbing finds (R347). -/
def State.scrubBadIst (s : State) (w : Nat) : State :=
  if s.tile.core.phase = .unbound then
    { s with tile.view := { s.tile.view with badIst := s.tile.view.badIst.filter (· ≠ w), ue := s.tile.view.ue + 1 } }.recordHard
  else { s with tile := s.tile.addPend { badParcel (4 * w) with agent := 6 } }

/-- The migrations of a field that are not past step 4 are abandoned, and their residencies resume (R367). -/
def State.dropMoves (s : State) (f : Nat × Nat) : State :=
  let ts := (s.fieldTiles f).filter fun t => match t.net.mig with
    | some m => m.step == .requested || m.step == .halted || m.step == .frozen
    | none => false
  let ps := ts.map (·.phys)
  let spares := (ts.filterMap fun t => t.net.mig.bind fun m => if m.src.nonet = m.dst.nonet then none else some m.dst.nonet).eraseDups
  let s := (s.dropCopies ps).atEach (fun s =>
    let held := s.tile.net.heldCancels
    held.foldl State.applyNotice { s with tile := { s.tile with net.mig := none, net.heldCancels := [] } }) ps
  spares.foldl (fun s n => s.takeBack f n) s

/-- An uncorrectable word of a steward's records (R261, R365 cause 0xC2): rewritten from the partner's copy, or in both copies the end of the
field's steward service (R368). With the partner lost there is no copy to take (log entry 41). -/
def State.scrubRecord (s : State) (w : Nat) : State :=
  let f := s.tile.phys.field
  let acting := s.tile.phys == actingSteward f
  let other := if acting then mirrorSteward f else actingSteward f
  let s := { s with tile.view.ue := s.tile.view.ue + 1 }
  let event (info : Word) : Tile := s.tile.stewardEvent { cause := 0xC2, addr := BitVec.ofNat 32 w, info := info }
  if s.fld.stewardsLost.contains acting then { s with tile := event 0 }
  else if (s.tileAt other).view.bad.contains w then
    ((s.updField f fun fl => { fl with stewardsLost := [false, true] }).dropMoves f).notifyField f 0x18 0 1
  else
    let t := event 1
    { s with tile := { t with view.bad := t.view.bad.filter (· ≠ w) } }

/-- Scrub one word of the tile in focus: the data SRAM's 12,288, then the instruction store's (R347). -/
def State.scrubWord (s : State) (i : Nat) : State :=
  let ist := decide (12288 ≤ i)
  let w := if ist then i - 12288 else i
  let s := { s with tile.view := s.tile.view.correct ist w }
  if ist then (if s.tile.view.badIst.contains w then s.scrubBadIst w else s)
  else if s.tile.view.bad.contains w then (if s.onSteward then s.scrubRecord w else s.scrubBad w)
  else s

/-- Scrub 64 words of the tile in focus in ascending order, from word `p` of the 14,336 (R347); the corrections are reported. -/
def State.scrubTile (s : State) (p : Nat) : State :=
  let v := s.tile.view
  if (v.soft = [] ∧ v.bad = [] ∧ v.badIst = []) ∨ s.sramOff then s
  else
    let s := ((List.range 64).map (p + ·)).foldl State.scrubWord s
    s.tile.view.fixed.foldl (fun s _ => s.reportFixed) s

/-- SCRUB (R146, R347): in a maintenance slot, once, every tile of the field scrubs its next 64 words. -/
def execScrub (s : State) : Host.Outcome State Fault Refusal :=
  s.become fun s =>
    let f := s.tile.phys.field
    let fl := s.fld
    if fl.slot % 16 ≠ 0 ∨ fl.did.contains 1 then s
    else
      let s := s.updField f fun fl => { fl with did := 1 :: fl.did, scrub := (fl.scrub + 64) % 14336 }
      s.atEach (·.scrubTile fl.scrub) ((s.fieldTiles f).map (·.phys))

/- Time. -/

/-- The field to which a field aligns (R169). -/
def parentField (f : Nat × Nat) : Nat × Nat := if 0 < f.1 then (f.1 - 1, f.2) else (0, f.2 - 1)

/-- A field aligns through another, or is it (R169). -/
def alignsThrough (g f : Nat × Nat) : Bool := (g.2 == f.2 && decide (f.1 ≤ g.1)) || (f.1 == 0 && decide (f.2 < g.2))

/-- A skew bound, saturating (R170). -/
def skewOf (n : Nat) : BitVec 16 := BitVec.ofNat 16 (min n 0xFFFF)

/-- The four timestamps of an exchange (R169): the child sends at t1 by its own time, the parent receives at t2 and answers at t3 by its time, the child receives at
t4; the flits take `there` and `back` ns. -/
def stamps (child parent there back : Nat) : Int × Int × Int × Int := (child, parent + there, parent + there, child + there + back)

/-- The offset and the path delay of four timestamps (R169). -/
def offsetOf (t : Int × Int × Int × Int) : Int := ((t.2.1 - t.1) - (t.2.2.2 - t.2.2.1)) / 2
def delayOf (t : Int × Int × Int × Int) : Int := ((t.2.1 - t.1) + (t.2.2.2 - t.2.2.1)) / 2

/-- A successful exchange (R169, R170): the rate removes the offset over the next half frame, within 200 ppm; before Run the counter itself
takes the parent's time. -/
def Field.exchange (f : Field) (boot : Bool) (pns pskew there back : Nat) : Field :=
  let t := stamps f.ns pns there back
  let off := offsetOf t
  let base : Int := 2 ^ 32 * 1000 / f.pll
  let left := if boot then 0 else off.natAbs - min off.natAbs 99
  let asym := (max there back - min there back + 1) / 2
  let f := { f with skew := skewOf (pskew + asym + left), failedEx := 0, aligned := true, pathDelay := (delayOf t).toNat }
  if boot then f.setTime ((f.ns + off).toNat * 2 ^ 32)
  else { f with rate := (base + clampInt (base * off / 499322) (-(base / 5000)) (base / 5000)).toNat }

/-- A failed exchange (R395): the bound of every field that aligns through this one grows by 200 ns for a frame in which neither exchange, that of slot 0 and that of
slot 0x800, has succeeded. -/
def State.exchangeFails (s : State) (f : Nat × Nat) : State :=
  let n := (s.fieldAt f).failedEx + 1
  let s := s.updField f fun fl => { fl with failedEx := n }
  let s := if (s.fieldAt f).slot = 0x800 ∧ 2 ≤ n then
      { s with flds := s.flds.map fun g => if alignsThrough (g.fx, g.fy) f then { g with skew := skewOf (g.skew.toNat + 200) } else g }
    else s
  if n = 4 then
    let fl := s.fieldAt f
    let i := BitVec.ofNat 32 (f.1 + 8 * f.2)
    ((s.updField f fun fl => { fl with aligned := false }).stewardEvent f 0xE2 (actingSteward (parentField f)).operand
      (fl.skew.setWidth 32)).notifyField f 0x7E 0 i
  else s

/-- TIME_EXCHANGE (R169, R185, R395): in slot 0x000 or 0x800, once, or in step 7 of R193; `ok` says that all four timestamps are there. Field (0, 0)
has a parent only where the host has named a peer port, `m`, that is up: another wafer, whose time in ns is `k` and bound `j`. -/
def execTimeExchange (s : State) : Host.Outcome State Fault Refusal :=
  s.become fun s =>
    let f := s.tile.phys.field
    let fl := s.fld
    let boot := s.wafer.power == .boot && s.wafer.step == 7
    let due := boot || ((fl.slot == 0 || fl.slot == 0x800) && !fl.did.contains 2)
    if !due ∨ !fl.served ∨ (f = (0, 0) ∧ (s.wafer.parent ≠ some s.inp.m ∨ boot ∨ s.wafer.peers.any (fun q => q.num == s.inp.m && !q.up))) then s
    else
      let s := if boot then s else s.updField f fun fl => { fl with did := 2 :: fl.did }
      if !s.inp.ok then (if boot then s else s.exchangeFails f)
      else
        let p := s.fieldAt (parentField f)
        let (pns, pskew) := if f = (0, 0) then (s.inp.k, s.inp.j) else (p.ns, p.skew.toNat)
        let there := Config.exchangeDelay s.free
        let back := Config.exchangeDelay (s.free + 1)
        let lost := !fl.aligned
        let s := { s.updField f (·.exchange boot pns pskew there back) with free := s.free + 2 }
        if lost then s.notifyField f 0x7E 0 (BitVec.ofNat 32 (f.1 + 8 * f.2 + 256)) else s

/-- The entry of an almanac table (R147). -/
def Field.almEntry (f : Field) (r slot : Nat) : Nat :=
  match f.almanac.find? fun (x : Nat × Nat × BitVec 16) => x.1 == r && x.2.1 == slot with
  | some x => x.2.2.toNat
  | none => 0

/-- The CRC-32C of a transit lane's table (R234, R396): its entries in ascending order, little-endian. -/
def Field.laneCrc (f : Field) (lane : Nat) : Word :=
  ~~~((List.range 2048).foldl (fun c i =>
    crcWord c (BitVec.ofNat 32 (f.almEntry (53 + lane) (2 * i) + 65536 * f.almEntry (53 + lane) (2 * i + 1)))) 0xFFFFFFFF)

/-- The writes that make a lane's table the parent's. -/
def copyLane (mine parent : Field) (lane : Nat) : List (Nat × Nat × BitVec 16) :=
  let r := 53 + lane
  (((mine.almanac ++ parent.almanac).filter (·.1 = r)).map (·.2.1)).map fun i => (r, i, BitVec.ofNat 16 (parent.almEntry r i))

/-- TRANSIT_TABLE_CHECK (R396): in slot 0x800, once, the field's four tables are compared with its parent's. -/
def execTransitTableCheck (s : State) : Host.Outcome State Fault Refusal :=
  s.become fun s =>
    let f := s.tile.phys.field
    let fl := s.fld
    if fl.slot ≠ 0x800 ∨ fl.did.contains 5 ∨ f = (0, 0) ∨ !fl.served then s
    else
      let p := s.fieldAt (parentField f)
      let s := s.updField f fun fl => { fl with did := 5 :: fl.did }
      (List.range 4).foldl (fun s l =>
        if fl.laneCrc l = p.laneCrc l then s
        else
          let s := s.updField f fun g => { g with almNext := g.almNext ++ copyLane fl p l }
          s.stewardEvent f (0xE5 + 256 * l) (actingSteward (parentField f)).operand (fl.laneCrc l)) s

/- Stewards. -/

/-- A steward of a field lives: `false` the acting one, `true` the mirror. -/
def State.liveSteward (s : State) (f : Nat × Nat) (mirror : Bool) : Bool :=
  !(s.fieldAt f).stewardsLost.contains mirror && !(s.tileAt (if mirror then mirrorSteward f else actingSteward f)).stop.off

/-- STEWARD_HEARTBEAT (R367): in a control slot, once; bit 0 of `n` says that the acting steward's flit is lost, bit 1 the mirror's. -/
def execStewardHeartbeat (s : State) : Host.Outcome State Fault Refusal :=
  s.become fun s =>
    let f := s.tile.phys.field
    let fl := s.fld
    if fl.slot % 16 ≠ 8 ∨ fl.did.contains 3 then s
    else
      let toMirror := s.liveSteward f false && s.inp.n % 2 == 0
      let toActing := s.liveSteward f true && s.inp.n / 2 % 2 == 0
      s.updField f fun fl =>
        { fl with did := 3 :: fl.did, heartMiss := if toActing then 0 else fl.heartMiss + 1,
                  heartMissMirror := if toMirror then 0 else fl.heartMissMirror + 1 }

/-- The work in progress that the mirror takes over from a lost acting steward (R367): the invalidation of a publish in progress goes out again, publishes not begun are abandoned unless they land a
migration, migrations not past step 4 end, and gangs in Loading start again. -/
def State.takeOver (s : State) (f : Nat × Nat) : State :=
  let s := ((s.updField f fun fl => { fl with queued := fl.queued.filter fun q => !q.moves.isEmpty }).dropMoves f).broadcast f
  s.carrels.foldl (fun s c => if c.live && c.home == f then (c.gangs.filter (·.state == .loading)).foldl (fun s g => s.bindGang c g) s else s) s

/-- A steward of a field is lost (R367, R368): held in reset, with cause 0xC3 at its partner and notice 0x18. -/
def State.lose (s : State) (f : Nat × Nat) (mirror : Bool) : State :=
  let p := if mirror then mirrorSteward f else actingSteward f
  let s := s.updTile p fun t => { t with stop.off := true }
  let s := s.updField f fun fl => { fl with stewardsLost := fl.stewardsLost ++ [mirror], heartMiss := 0, heartMissMirror := 0 }
  let none' := !(s.fieldAt f).served
  let s := if none' then s else s.stewardEvent f 0xC3 p.operand 0
  let s := if none' then s.dropMoves f else if mirror then s else s.takeOver f
  s.notifyField f 0x18 0 (if none' then 1 else 0)

/-- PARTNER_LOST (R366, R367): three control slots without a heartbeat, or a steward that has stopped at a double fault. -/
def execPartnerLost (s : State) : Host.Outcome State Fault Refusal :=
  s.become fun s =>
    let f := s.tile.phys.field
    let fl := s.fld
    let gone (mirror : Bool) : Bool := !fl.stewardsLost.contains mirror && !s.liveSteward f mirror
    if gone true ∨ (3 ≤ fl.heartMiss ∧ s.liveSteward f true ∧ s.liveSteward f false) then s.lose f true
    else if gone false ∨ (3 ≤ fl.heartMissMirror ∧ s.liveSteward f true ∧ s.liveSteward f false) then s.lose f false
    else s

end Sys2Proof.Machine
end

