-- ==== Sys2Proof/Machine/Tasks.lean ====
section
/-!
DEFINITION. The task unit (R46 to R54): dispatch, aging, boosts, urgent requests and acceptance, and the limits of R35, R52, R53 and R361.
-/

namespace Sys2Proof.Machine

/- Selection (R47, R54). -/

/-- The boost class of an entry: the lowest of the membership entries that have not arrived and whose scope it lies under (R54). -/
def Tile.boostOf (t : Tile) (e : Entry) : BitVec 2 :=
  t.task.members.toList.foldl (fun c m => match m with
    | none => c
    | some m => match m.boost with
      | none => c
      | some b => if !m.arrived && isDescendant e.scope m.scope && decide (b.toNat < c.toNat) then b else c) 3

/-- The oldest entry of a class: native entries before boosted ones (R54). -/
def Tile.oldestIn (t : Tile) (c : Nat) : Option Entry :=
  match t.task.rings.find? (·.prio.toNat = c) with
  | some e => some e
  | none => t.task.rings.find? fun e => decide (c < e.prio.toNat) && (t.boostOf e).toNat == c

/-- The entry that is selected: of the lowest effective class that holds one (R47). -/
def Tile.select (t : Tile) : Option Entry := (List.range 4).findSome? t.oldestIn

/-- Take an entry out of its ring; overflowed pushes of the class enter (R28, R55). -/
def Tile.unring (t : Tile) (e : Entry) : Tile := { t with task.rings := t.task.rings.erase e }.refill

/-- The normal level begins work at a pc (R47), under a number of its own (R36). -/
def Tile.begin (t : Tile) (c : Ctx) : Tile :=
  { t with core.phase := .running, core.wait := none, core.works := t.core.works + 1, core.cur := { c with own := t.core.works + 1 } }

/-- The class that work runs in: the one it was pushed with, whatever aging or a boost has made of its entry (R27, R208; log entry 67). -/
def Entry.runs (e : Entry) : BitVec 2 := e.native.getD e.prio

/-- A task starts (R27, R208): entry, argument and scope are read again from the record, the argument is in s1; prio was read at the push. -/
def State.startTask (s : State) (a : Nat) (pr : BitVec 2) : State :=
  let t := s.tile
  let bank := t.core.normal.setS 1 (t.recWord a 8)
  let c : Ctx := { pc := (t.recWord a 4).setWidth 13, cls := 0, tag := BitVec.ofNat 32 a, src := t.id.name, scope := t.recScope a,
                   prio := pr, work := .task (BitVec.ofNat 32 a) }
  { s with tile := ({ t with core.normal := bank }).begin c }

/-- A handler starts (R26, R304): the registers of the header, and the cursor at the message. -/
def State.startHandler (s : State) (m : Msg) : State :=
  let c : Ctx := { pc := (s.tile.handler m.cls).1, cls := m.cls, tag := m.tag, src := m.src, scope := m.scope, prio := m.prio,
                   work := .msg m.id, cursor := { cls := m.cls, cur := some m.id } }
  { s with tile := s.tile.begin c }

/-- Dispatch of a task record: its local address is checked (R371), its page is brought back (R79), and its scope is a kill point (R35). -/
def State.dispatchTask (s : State) (e : Entry) (a : Nat) : State :=
  let out := { s with tile := s.tile.unring e }
  match s.tile.view.mapCheck a 16 false with
  | .fault f => { out with tile := out.tile.addPend { f with agent := 5 } }
  | _ =>
    match s.tile.seek a 16 true 5 with
      | .wait t => { s with tile := t }
      | .fault f t => if f.hard then { out with tile := out.tile.addPend f } else { s with tile := t.addPend f }
      | .ok =>
        let out := out.drained
        let out := { out with tile := out.tile.touch a 16 false false }
        let sc := out.tile.recScope a
        if out.coveredBy sc then { out with tile.task.drops := countDrop sc out.tile.task.drops } else out.startTask a e.runs

/-- Dispatch of an activation. -/
def State.dispatchMsg (s : State) (e : Entry) (n : Nat) : State :=
  let out := { s with tile := s.tile.unring e }
  match s.tile.task.queue.find? (·.id = n) with
  | none => out
  | some m =>
    if s.coveredBy m.scope then
      { out with tile.task.queue := out.tile.task.queue.filter (·.id ≠ n), tile.task.drops := countDrop m.scope out.tile.task.drops }
    else out.startHandler m

/-- TASK_DISPATCH (R27, R35, R47); an entry whose word is uncorrectable is lost to the fault (R337, R346). -/
def execTaskDispatch (s : State) : Host.Outcome State Fault Refusal :=
  s.become fun s =>
    if !s.selectable || s.still then s
    else match s.tile.select with
      | none => s
      | some e =>
        if s.tile.view.bad.contains e.word then { s with tile := (s.tile.unring e).addPend (hardwareFault e.word false) }
        else match e.work with
        | .task a => s.dispatchTask e a.toNat
        | .msg n => s.dispatchMsg e n
        | _ => { s with tile := s.tile.unring e }

/-- AGING_PROMOTION (R48): the first entry that has waited its time, and whose next class has room, moves to that class's tail. -/
def execAgingPromotion (s : State) : Host.Outcome State Fault Refusal :=
  s.become fun s =>
    match s.tile.task.rings.find? fun e => decide (Config.agingClk ≤ e.age) && decide (e.prio ≠ 0) && decide (s.tile.ringCount (e.prio - 1) < 256) with
    | none => s
    | some e =>
      let t := s.tile.unring e
      let e := { e with prio := e.prio - 1, age := 0, native := some e.runs }
      { s with tile := { t with task.rings := t.task.rings ++ [{ e with slot := ringPlace t.task.rings e.prio }] } }

/-- A boost notice raises an entry that has not arrived; the lowest class received stays (R54). -/
def Member.raise (m : Member) (b : BarId) (c : BitVec 2) : Member :=
  if m.bar = b ∧ !m.arrived then
    { m with boost := some (match m.boost with
      | some x => if x.toNat ≤ c.toNat then x else c
      | none => c) }
  else m

/-- BOOST_NOTICE (R54). -/
def execBoostNotice (s : State) : Host.Outcome State Fault Refusal :=
  s.become fun s =>
    match s.arriving with
    | none => s
    | some p =>
      let put (b : BarId) (c : BitVec 2) : State :=
        let s := s.unsend p
        { s with tile.task.members := s.tile.task.members.map fun m => m.map (·.raise b c) }
      match p.body with
      | .boostCount c home addr => put (.count home addr) c
      | .boostLine c n => put (.line n) c
      | _ => s

/- The urgent level. -/

/-- Granules that a payload takes, and those that the receive queue holds (R304). -/
def granules (n : Nat) : Nat := (n + 15) / 16
def Tile.granulesUsed (t : Tile) : Nat := (t.task.queue ++ t.task.urgents).foldl (fun a m => a + (granules m.payload.length - m.freed)) 0

/-- The urgent level takes the machine over from the normal level, which halts at its boundary (R50, R51); a waiting instruction is
abandoned, to be executed again when the normal level resumes. -/
def Tile.enterUrgent (t : Tile) (m : Msg) : Tile :=
  let c := t.core
  { t with
    core := { c with
      level := .urgent, halt := some c.cur, wait := none, urgentClk := 0, works := c.works + 1,
      cur := { pc := (t.handler m.cls).1, cls := m.cls, tag := m.tag, src := m.src, scope := m.scope, prio := m.prio, work := .msg m.id,
               cursor := { cls := m.cls, cur := some m.id }, own := c.works + 1 } },
    task.urgents := t.task.urgents.drop 1, task.queue := t.task.queue ++ [m], strm.farWord := none }

/-- URGENT_ACCEPT (R49 to R51): the oldest held header; one that is covered, or whose class was not enabled when it was performed (R359), is removed when it
is at the head, whatever an acceptance would have to wait for. -/
def execUrgentAccept (s : State) : Host.Outcome State Fault Refusal :=
  s.become fun s =>
    match s.tile.task.urgents with
    | [] => s
    | m :: ms =>
      let gone := { s with tile.task.urgents := ms }
      if s.still then s
      else if s.coveredBy m.scope then gone
      else if m.dead then
        { gone with tile := gone.tile.addPend (undeliverable { dst := s.tile.id.name, src := m.src, scope := m.scope, cls := m.cls, prio := m.prio,
                                                               urgent := true, carrel := s.tile.id.carrel } m.tag false) }
      else if s.acceptable then { s with tile := s.tile.enterUrgent m }
      else s

/-- URGENT_OVERRUN (R52, R358): the imprecise fault of an agent, the task unit (R335). -/
def execUrgentOverrun (s : State) : Host.Outcome State Fault Refusal :=
  s.become fun s =>
    if s.urgent && decide (Config.urgentLimit ≤ s.tile.core.urgentClk) && s.tile.stop.faulted != some .urgent then
      s.takeFault { code := 0x0D, urgent := true, agent := 5 } s.tile.core.cur.pc
    else s

/- Limits of the normal level. -/

/-- MASK_WINDOW_TIMEOUT (R53). -/
def execMaskWindowTimeout (s : State) : Host.Outcome State Fault Refusal :=
  s.become fun s =>
    if (s.tile.core.mask.map fun n => decide (Config.maskLimit ≤ n)).getD false then
      { s with tile := { s.tile with core.mask := none, core.maskPages := [] }.setMko }
    else s

/-- KILL_COUNTER_EXPIRY (R35): covered work at its 157th clk is killed; a counter whose scope has been retired stops. -/
def execKillCounterExpiry (s : State) : Host.Outcome State Fault Refusal :=
  s.become fun s =>
    if s.urgent || !(s.tile.core.cur.kill.map fun n => decide (Config.haltLimit ≤ n)).getD false then s
    else if s.workCovered then s.killCovered
    else { s with tile.core.cur.kill := none }

/-- The condition that a wait names (R357) holds, as far as the wait's own record tells; the instruction's next execution decides the rest,
and every wait of reasons 0, 6 and 15 (log entry 10). -/
def State.waitOver (s : State) (w : Wait) : Bool :=
  match w.reason with
  | 1 => match s.tile.view.page w.addr.toNat with
    | some p => (p.resident && !p.lineBusy w.addr.toNat 1) || p.spill = .lost || p.failed.isSome
    | none => true
  | 2 => !s.tile.belowMark w.addr.toNat 1
  | 3 => (s.tile.cached w.addr).isSome || s.tile.net.unmapped.contains w.addr
  | 4 => match s.fetch with
    | .instr (.recvSel _ a) => (s.tile.oldestOf ((s.sr a).setWidth 4) fun _ => true).isSome
    | _ => (s.tile.pop (s.tile.task.queue.length + 1)).isSome
  | 5 => s.tile.copySlot.isSome
  | 7 => match s.fetch, s.myCarrel with
    | .instr (.cancel _ a), some c => decide (c.unrelated (s.sr a) < 8)
    | _, _ => true
  | 8 => s.tile.strm.replay.isNone
  | _ => true

/-- WAIT_CONDITION_MET (R24): the level runs again; its instruction is executed again, and completes if its condition holds. Not while the field is paused
(R362). -/
def execWaitConditionMet (s : State) : Host.Outcome State Fault Refusal :=
  s.become fun s =>
    if s.tile.core.phase = .waiting ∧ !s.urgent ∧ !s.fld.paused ∧ (s.tile.core.wait.map s.waitOver).getD true then
      { s with tile.core.phase := .running }
    else s

/-- WAIT_WATCHDOG_EXPIRY (R361). -/
def execWaitWatchdogExpiry (s : State) : Host.Outcome State Fault Refusal :=
  s.become fun s =>
    match s.tile.core.wait with
    | none => s
    | some w =>
      if s.waitLimit = 0 ∨ w.clk < s.waitLimit * Config.watchdogUnit ∨ s.urgent then s
      else
        { s with tile.strm.farWord := none }.precise
          { code := 0x16, addr := w.addr, info := BitVec.ofNat 32 (w.reason + 65536 * s.waitLimit) }

end Sys2Proof.Machine
end

