-- ==== Sys2Proof/Machine/Block.lean ====
section
/-!
DEFINITION. The block formats (R105 to R110), the arithmetic of the tensor unit (R111 to R116), and the arithmetic of in-fabric
combining (R152 to R156).
-/

namespace Sys2Proof

/-- F of R105: the fraction bits of a block format. -/
def BkFmt.frac : BkFmt → Nat
  | .bk8 => 6
  | .bk6 => 4
  | .bk4 => 2

/-- Bits of one element (R105). -/
def BkFmt.ebits : BkFmt → Nat
  | .bk8 => 8
  | .bk6 => 6
  | .bk4 => 4

/-- m max of R105. -/
def BkFmt.mmax (f : BkFmt) : Nat := 2 ^ (f.frac + 1) - 1

/-- Bytes of a block's data (R105). -/
def BkFmt.bytes (f : BkFmt) : Nat := 4 * f.ebits

/-- The block format of the codes of R289 and R285: 0 BK8, 1 BK6, 2 BK4. -/
def BkFmt.ofCode (n : Nat) : BkFmt :=
  match n with
  | 0 => .bk8
  | 1 => .bk6
  | _ => .bk4

/-- Element i of a block's data (R105): its sign and magnitude. -/
def BkFmt.elem (f : BkFmt) (data i : Nat) : Bool × Nat :=
  let x := data / 2 ^ (f.ebits * i) % 2 ^ f.ebits
  (decide (x / 2 ^ (f.ebits - 1) = 1), x % 2 ^ (f.ebits - 1))

/-- The exponent of a finite partial block, 0 otherwise. -/
def PBlock.exp : PBlock → Nat
  | .finite x _ _ => x
  | _ => 0

/-- The COARSE bit of a partial block (R153). -/
def PBlock.coarse : PBlock → Bool
  | .absent => false
  | .finite _ _ c => c
  | .over _ c => c
  | .err _ c => c

end Sys2Proof

namespace Sys2Proof.Machine

/-- The classes of a sidecar word (R106). -/
inductive BkClass where
  | finite | zero | over | error
deriving DecidableEq, Repr

/-- The class of a sidecar word. -/
def sideClass (side : Word) : BkClass :=
  match (side.toNat / 16384) % 4 with
  | 0 => .finite
  | 1 => .zero
  | 2 => .over
  | _ => .error

/-- The micro-exponent of element i's pair (R106). -/
def sideMu (side : Word) (i : Nat) : Nat := side.toNat / 2 ^ (16 + i / 2) % 2

/-- An exact value or an error element, as blocks and accumulators hold them (R107, R115). -/
inductive XVal where
  | val (v : FVal)
  | err (origin : BitVec 14)
deriving DecidableEq, Repr

/-- bk_decode of R107 for element i. -/
def bkDecode (f : BkFmt) (data : Nat) (side : Word) (i : Nat) : XVal :=
  let (sg, m) := f.elem data i
  match sideClass side with
  | .finite =>
    if m = 0 then .val (.fin false 0 0)
    else .val (.fin sg m ((side.toNat % 16384 : Nat) - 8191 - (sideMu side i : Nat) - (f.frac : Nat)))
  | .zero => .val (.fin false 0 0)
  | .over => .val (.inf sg)
  | .error => .err (BitVec.ofNat 14 side.toNat)

/-- The NaN of R110 that an error element becomes in a format. -/
def Fmt.errNaN (f : Fmt) (origin : BitVec 14) : Nat :=
  if f.ieee then f.canonNaN + origin.toNat % 2 ^ (min 14 (f.fbits - 1) ) * (if f.fbits ≤ 3 then 0 else 1) else f.canonNaN

/-- The origin that an encoded NaN carries (R110). -/
def nanOrigin (f : Fmt) (frac : Nat) : BitVec 14 :=
  let p := if f.fbits = 23 then frac % 16384 else if f.fbits = 10 then frac % 1024 else if f.fbits = 7 then frac % 128 else 0
  if 0x3FF0 ≤ p then 0x3FEF else BitVec.ofNat 14 p

/-- The data of a block from its elements (R105). -/
def bkData (f : BkFmt) : List (Bool × Nat) → Nat
  | [] => 0
  | (s, m) :: es => (if s then 2 ^ (f.ebits - 1) else 0) + m + 2 ^ f.ebits * bkData f es

/-- A block as encoded: data, sidecar, flags, and whether it took its advances (R108). -/
structure BkOut where
  data : Nat
  side : Word
  flags : Flags
  took : Bool
deriving DecidableEq, Repr

/-- The exponent test of R108: the magnitude at exponent E, rounded up under sr. -/
def bkTest (f : BkFmt) (mode : Mode) (neg : Bool) (m : Nat) (e E : Int) (mu : Nat) : Nat :=
  let q := E - f.frac - mu
  match mode with
  | .sr _ => let (n, x) := roundAt .rtz neg m e q; if x then n + 1 else n
  | _ => (roundAt mode neg m e q).1

/-- The smallest E at which an element fits with µ = 0 (R108). -/
def bkFit (f : BkFmt) (mode : Mode) (neg : Bool) (m : Nat) (e : Int) : Int :=
  if m = 0 then -8191
  else
    let t : Int := (Nat.log2 m : Nat) + e
    max (-8191) (if bkTest f mode neg m e t 0 ≤ f.mmax then t else t + 1)

/-- The mode an element is rounded with: its own advance under sr (R98). -/
def modeAt (mode : Mode) (adv : List Word) (i : Nat) : Mode :=
  match mode with
  | .sr _ => .sr (adv.getD i 0)
  | m => m

/-- The sidecar's µ mask from pair 0 upward. -/
def muMask : List Bool → Nat
  | [] => 0
  | b :: bs => (if b then 1 else 0) + 2 * muMask bs

/-- The signs of an overrange block: 1 for a negative value. -/
def overSigns (xs : List FVal) : List Bool :=
  xs.map fun
    | .inf n => n
    | .fin n m _ => n && m != 0
    | .nan n _ => n

/-- The data of an overrange block (R106, R108). -/
def overBlock (f : BkFmt) (signs : List Bool) (flags : Flags) : BkOut :=
  { data := bkData f (signs.map fun s => (s, 0)), side := 0x8000, flags := flags, took := false }

/-- An error block (R106). -/
def errBlock (origin : BitVec 14) (flags : Flags) : BkOut :=
  { data := 0, side := BitVec.ofNat 32 (0xC000 + origin.toNat), flags := flags, took := false }

/-- bk_encode of R108 for 32 values that are not NaNs, with the advances it may take. -/
def bkEncodeVals (f : BkFmt) (xs : List FVal) (mode : Mode) (adv : List Word) : BkOut :=
  if xs.any (fun x => match x with | .inf _ => true | _ => false) then overBlock f (overSigns xs) 0
  else
    let ys := xs.map fun
      | .fin n m e => (n, m, e)
      | _ => (false, 0, 0)
    if ys.all (fun y => y.2.1 == 0) then { data := 0, side := 0x4000, flags := 0, took := false }
    else
      let E := ys.foldl (fun a y => max a (bkFit f mode y.1 y.2.1 y.2.2)) (-8191)
      if 8192 < E then overBlock f (overSigns xs) (flOF ||| flBKOV)
      else
        let ok (i : Nat) : Bool :=
          let y := ys.getD i (false, 0, 0)
          decide (y.2.1 = 0 ∨ bkTest f mode y.1 y.2.1 y.2.2 E 1 ≤ f.mmax)
        let mus := (List.range 16).map fun p => ok (2 * p) && ok (2 * p + 1)
        let rs := (List.range 32).map fun i =>
          let y := ys.getD i (false, 0, 0)
          let mu : Nat := if mus.getD (i / 2) false then 1 else 0
          let (n, x) := roundAt (modeAt mode adv i) y.1 y.2.1 y.2.2 (E - f.frac - mu)
          (y.1 && decide (0 < n), n, x, y.2.1)
        let nx : Flags := if rs.any (fun r => r.2.2.1) then flNX else 0
        if rs.all (fun r => r.2.1 == 0) then { data := 0, side := 0x4000, flags := flUF ||| flNX, took := true }
        else
          let uf : Flags := if E = -8191 ∧ rs.any (fun r => r.2.1 == 0 && r.2.2.2 != 0) then flUF else 0
          { data := bkData f (rs.map fun r => (r.1, r.2.1)),
            side := BitVec.ofNat 32 ((E + 8191).toNat + 65536 * muMask mus), flags := nx ||| uf, took := true }

/-- bk_encode of R108 for 32 elements of a floating-point format: a NaN makes an error block. -/
def bkEncode (f : BkFmt) (src : Fmt) (xs : List FVal) (mode : Mode) (adv : List Word) : BkOut :=
  match xs.find? FVal.isNaN with
  | some (.nan _ fr) => errBlock (nanOrigin src fr) flNV
  | _ => bkEncodeVals f xs mode adv

/-- Round an exact value or an error element into a floating-point format (R102, R107, R110). -/
def Fmt.ofX (f : Fmt) (mode : Mode) : XVal → Nat × Flags
  | .val v => Fmt.convert f f mode v
  | .err o => (f.errNaN o, 0)

/- The tensor unit. -/

/-- kstep_sum of R111: S over the 32 products of two finite blocks. -/
def kstepSum (f : BkFmt) (da : Nat) (sa : Word) (db : Nat) (sb : Word) : Int :=
  (List.range 32).foldl (fun acc k =>
    let (na, ma) := f.elem da k
    let (nb, mb) := f.elem db k
    let p : Nat := ma * mb * 2 ^ (2 - sideMu sa k - sideMu sb k)
    if na != nb then acc - p else acc + p) 0

/-- t of R111. -/
def kstepTag (sa sb : Word) : Int := ((sa.toNat % 16384 : Nat) - 8191 : Int) + ((sb.toNat % 16384 : Nat) - 8191)

/-- What a k-step contributes to an output (R114). -/
inductive Contrib where
  | none | sum (s t : Int) | inf (neg : Bool) | err (origin : BitVec 14)
deriving DecidableEq, Repr

/-- The sign test of R114 when a block is overrange. -/
def overContrib (f : BkFmt) (da : Nat) (sa : Word) (db : Nat) (sb : Word) : Contrib :=
  let live := (List.range 32).filter fun k =>
    (sideClass sa == .over || (f.elem da k).2 != 0) && (sideClass sb == .over || (f.elem db k).2 != 0)
  match live with
  | [] => .err 0x3FF1
  | k :: ks =>
    let sg (k : Nat) : Bool := (f.elem da k).1 != (f.elem db k).1
    if ks.all (fun j => sg j == sg k) then .inf (sg k) else .err 0x3FF2

/-- The contribution of A block and B block by their classes (R114). -/
def contribution (f : BkFmt) (a b : Nat × Word) : Contrib :=
  match sideClass a.2, sideClass b.2 with
  | .error, _ => .err (BitVec.ofNat 14 a.2.toNat)
  | _, .error => .err (BitVec.ofNat 14 b.2.toNat)
  | .finite, .finite => .sum (kstepSum f a.1 a.2 b.1 b.2) (kstepTag a.2 b.2)
  | .zero, .over => .err 0x3FF1
  | .over, .zero => .err 0x3FF1
  | .zero, _ => .none
  | _, .zero => .none
  | _, _ => overContrib f a.1 a.2 b.1 b.2

/-- promote() of R112: the output and the flags raised. An acc that overflows makes the output Infinite (R115). -/
def Output.promote (o : Output) : Output × Flags :=
  let (p, f1) := Fmt.fp32.round .rne (decide (o.inner < 0)) o.inner.natAbs (o.tag - 2 * (o.fmt.frac : Nat) - 2)
  let (r, f2) := Fmt.fp32.add .rne o.acc.toNat p
  let o := { o with acc := BitVec.ofNat 32 r, inner := 0, n := 0 }
  match Fmt.fp32.value r with
  | .inf neg => ({ o with st := .infinite neg }, f1 ||| f2)
  | _ => (o, f1 ||| f2)

/-- Promote a Finite output with n > 0 (R112, R293, R297). -/
def Output.settle (o : Output) : Output × Flags :=
  if o.st = .finite ∧ 0 < o.n then o.promote else (o, 0)

/-- The inner accumulation of R112, saturating. -/
def Output.gather (o : Output) (f : BkFmt) (s t : Int) : Output × Flags :=
  let v := o.inner + s
  let lim : Int := 2 ^ 27 - 1
  ({ o with inner := clampInt v (-lim) lim, tag := t, fmt := f, n := o.n + 1 }, if v < -lim ∨ lim < v then flACOV else 0)

/-- The effect of one contribution on an output (R112, R115), with promotion interval `p`. -/
def Output.take (o : Output) (f : BkFmt) (p : Nat) (c : Contrib) : Output × Flags :=
  match o.st, c with
  | _, .none => (o, 0)
  | .error _, _ => (o, 0)
  | .finite, .sum s t =>
    if 0 < o.n ∧ (t ≠ o.tag ∨ o.n = p ∨ o.fmt ≠ f) then
      let (o, fl) := o.promote
      if o.st = .finite then
        let (o, fl2) := o.gather f s t
        (o, fl ||| fl2)
      else (o, fl)
    else o.gather f s t
  | .infinite _, .sum _ _ => (o, 0)
  | .finite, .inf neg =>
    ({ o with st := .infinite neg, acc := if neg then 0xFF800000 else 0x7F800000, inner := 0, n := 0 }, 0)
  | .infinite a, .inf b => if a = b then (o, 0) else ({ o with st := .error 0x3FF2 }, flAERR)
  | _, .err origin => ({ o with st := .error origin }, flAERR)

/-- Apply a function with flags to every output of a list, in ascending order. -/
def mapFlags (g : Nat → Output → Output × Flags) : Nat → List Output → List Output × Flags
  | _, [] => ([], 0)
  | i, o :: os =>
    let (o, f1) := g i o
    let (os, f2) := mapFlags g (i + 1) os
    (o :: os, f1 ||| f2)

/-- Apply a function with flags to the 64 outputs of an accumulator; output (i, j) is number 8i + j. -/
def Accum.mapOuts (a : Accum) (g : Nat → Output → Output × Flags) : Accum × Flags :=
  let (os, fl) := mapFlags g 0 a.outs.toList
  ({ a with outs := Vector.ofFn fun i => os.getD i.val {} }, fl)

/-- One k-step into an accumulator (R111, R114). -/
def Accum.kstep (acc : Accum) (f : BkFmt) (a b : Slab) : Accum × Flags :=
  acc.mapOuts fun n o => o.take f acc.p (contribution f (a.blocks.getD (n / 8) (0, 0x4000)) (b.blocks.getD (n % 8) (0, 0x4000)))

/-- The drained value of an output with its scales (R116), before the one rounding. -/
def Output.drain (o : Output) (rs cs : Word) : XVal × Flags :=
  let v : Option FVal × FVal × FVal := match o.st with
    | .infinite neg => (some (.inf neg), Fmt.fp32.value rs.toNat, Fmt.fp32.value cs.toNat)
    | _ => (some (Fmt.fp32.value o.acc.toNat), Fmt.fp32.value rs.toNat, Fmt.fp32.value cs.toNat)
  match o.st with
  | .error origin => (.err origin, 0)
  | _ =>
    let sn := Fmt.fp32.snanFlag v.2.1 ||| Fmt.fp32.snanFlag v.2.2
    match v.1 with
    | none => (.err 0, 0)
    | some x =>
      if (match o.st with | .infinite _ => v.2.1.isZero || v.2.2.isZero | _ => false) then (.err 0x3FF4, flNV)
      else if v.2.1.isNaN then (.val v.2.1, sn)
      else if v.2.2.isNaN then (.val v.2.2, sn)
      else
        match x.mul v.2.1 with
        | none => (match o.st with
          | .infinite _ => (.err 0x3FF4, flNV)
          | _ => (.val (.nan false (2 ^ 22)), flNV))
        | some y =>
          match y.mul v.2.2 with
          | none => (match o.st with
            | .infinite _ => (.err 0x3FF4, flNV)
            | _ => (.val (.nan false (2 ^ 22)), flNV))
          | some z => (.val z, 0)

/- Combining. -/

/-- An integer lane sum (R152). -/
def addLanes (w n : Nat) (x y : Nat) : Nat :=
  (List.range n).foldl (fun a j => a + (x / 2 ^ (w * j) % 2 ^ w + y / 2 ^ (w * j) % 2 ^ w) % 2 ^ w * 2 ^ (w * j)) 0

/-- A floating-point lane sum, RNE (R152). -/
def addFpLanes (f : Fmt) (n : Nat) (x y : Nat) : Nat × Flags :=
  (List.range n).foldl (fun a j =>
    let w := f.width
    let (r, fl) := f.add .rne (x / 2 ^ (w * j) % 2 ^ w) (y / 2 ^ (w * j) % 2 ^ w)
    (a.1 + r * 2 ^ (w * j), a.2 ||| fl)) (0, 0)

/-- Fold one present input into the accumulator of a node (R152), by type code 0 FP32, 1 BF16, 2 INT32, 3 INT64. -/
def foldLanes (type : Nat) (x y : VWord) : VWord × Flags :=
  let (r, fl) : Nat × Flags := match type with
    | 0 => addFpLanes Fmt.fp32 4 x.toNat y.toNat
    | 1 => addFpLanes Fmt.bf16 8 x.toNat y.toNat
    | 2 => (addLanes 32 4 x.toNat y.toNat, 0)
    | _ => (addLanes 64 2 x.toNat y.toNat, 0)
  (BitVec.ofNat 128 r, fl)

/-- leaf of R154: a block as a partial block at the segment's run exponent; the flag is COARSE. -/
def leafBlock (f : BkFmt) (data : Nat) (side : Word) (run : Nat) : PBlock :=
  match sideClass side with
  | .zero => .absent
  | .over => .over ((List.range 32).map fun i => (f.elem data i).1) false
  | .error => .err (BitVec.ofNat 14 side.toNat) false
  | .finite =>
    let e := side.toNat % 16384
    let x := max run e
    let ps := (List.range 32).map fun i =>
      let (sg, m) := f.elem data i
      let p : Int := (m * 2 ^ (8 - sideMu side i) : Nat)
      if sg then -p else p
    let d : Int := (2 ^ (x - e) : Nat)
    .finite x (ps.map (· / d)) (ps.any fun p => p % d != 0)

/-- The smallest g with every |floor(T / 2^g)| within the limit (R155), searched upward with fuel. -/
def growth (lim : Int) (ts : List Int) : Nat → Nat → Nat
  | 0, g => g
  | fuel + 1, g =>
    if ts.all (fun t => decide ((t / (2 ^ g : Nat)).natAbs ≤ lim.natAbs)) then g else growth lim ts fuel (g + 1)

/-- node of R155: the result, the exponent of a renorm notice if the node grew, and OF. An error or overrange result keeps COARSE of the inputs it absorbs, so
that the root hears of every discarded bit (R158). -/
def nodeBlocks (f : BkFmt) (ins : List PBlock) : PBlock × Option Nat × Flags :=
  let ps := ins.filter (· ≠ .absent)
  if ps = [] then (.absent, none, 0)
  else
    let was := ps.any PBlock.coarse
    match ps.findSome? (fun p => match p with | .err o _ => some o | _ => none) with
    | some o => (.err o was, none, 0)
    | none =>
      let overs := ps.filterMap fun p => match p with | .over s _ => some s | _ => none
      match overs with
      | s :: ss =>
        if ss.all (· == s) then (.over s was, none, 0) else (.err 0x3FF3 was, none, 0)
      | [] =>
        let x := ps.foldl (fun a p => max a p.exp) 0
        let sh (p : PBlock) (i : Nat) : Int × Bool := match p with
          | .finite xi es _ =>
            let d : Int := (2 ^ (x - xi) : Nat)
            let v := es.getD i 0
            (v / d, v % d != 0)
          | _ => (0, false)
        let ts := (List.range 32).map fun i => ps.foldl (fun a p => a + (sh p i).1) 0
        let c0 := was || ps.any fun p => (List.range 32).any fun i => (sh p i).2
        let lim : Int := 2 ^ (f.frac + 9) - 1
        let g := growth lim ts 8 0
        let d : Int := (2 ^ g : Nat)
        let us := ts.map (· / d)
        let c := c0 || ts.any fun t => t % d != 0
        let x' := x + g
        if 16383 < x' then (.over (us.map fun t => decide (t < 0)) c, none, flOF)
        else (.finite x' us c, if 0 < g then some x' else none, 0)

/-- The root's encoding of a node result (R156): absent results are zero blocks. -/
def rootBlock (f : BkFmt) (mode : Mode) (adv : List Word) : PBlock → BkOut
  | .absent => { data := 0, side := 0x4000, flags := 0, took := false }
  | .err o _ => errBlock o 0
  | .over s _ => overBlock f s 0
  | .finite x ps _ =>
    bkEncodeVals f (ps.map fun p => .fin (decide (p < 0)) p.natAbs ((x : Int) - 8191 - f.frac - 8)) mode adv

end Sys2Proof.Machine
end

