-- ==== Sys2Proof/Machine/Tensor.lean ====
section
/-!
DEFINITION. The instructions of the tensor unit and of its operand streams (R289, R291 to R300): what each enters in the tensor command
queue or starts in the stream engine.
-/

namespace Sys2Proof.Machine

/- The tensor command queue. -/

/-- Enter a command (R291); a full queue of 8 is waited for. -/
def State.queueCmd (s : State) (op : TensorOp) : Res :=
  if 8 ≤ s.tile.tens.cmds.length then .wait 15 0 s
  else .done { s with tile.tens.cmds := s.tile.tens.cmds ++ [{ op := op, scope := s.tile.core.cur.scope, own := s.tile.core.cur.own }] }

/-- TCFG (R292). -/
def execTcfg (f : BitVec 2) (s : State) : Host.Outcome State Fault Refusal :=
  s.issue (.tcfg f) { forbidden := true } fun s => s.queueCmd (.tcfg (BkFmt.ofCode f.toNat))

/-- TARM (R293): s(a) from 1 to 256. -/
def execTarm (d a : Reg) (s : State) : Host.Outcome State Fault Refusal :=
  s.issue (.tarm d a) { forbidden := true, reads := [a] } fun s =>
    let p := s.sr a
    s.need (decide (1 ≤ p.toNat) && decide (p.toNat ≤ 256)) (limitFault p a 1 0x51)
      ((s.drained).queueCmd (.tarm (d.setWidth 2) p.toNat))

/-- TZERO (R294). -/
def execTzero (d : Reg) (s : State) : Host.Outcome State Fault Refusal :=
  s.issue (.tzero d) { forbidden := true } fun s => s.queueCmd (.tzero (d.setWidth 2))

/-- TFEED (R295): a count of 0 queues nothing. -/
def execTfeed (d a : Reg) (s : State) : Host.Outcome State Fault Refusal :=
  s.issue (.tfeed d a) { forbidden := true, reads := [a] } fun s =>
    if s.sr a = 0 then .done s else (s.drained).queueCmd (.tfeed (d.setWidth 2) (s.sr a).toNat)

/-- A word of a record read at issue by a core load (R118). -/
def State.recordWord (s : State) (a off : Nat) : Word := BitVec.ofNat 32 (s.loadN (a + off) 4)

/-- The first failing check of a record's fields, in ascending offset (R353): the offset and whether its word is in order. -/
def State.firstBad (s : State) (a : Nat) (l : List (Nat × Bool)) : Option (Nat × Word) :=
  (l.find? fun x => !x.2).map fun x => (x.1, s.recordWord a x.1)

/-- The checks of a drain descriptor (R296). -/
def State.drainChecks (s : State) (a : Nat) : List (Nat × Bool) :=
  let w (off : Nat) : Nat := (s.recordWord a off).toNat
  let fmt := w 4 % 8
  let fp := decide (fmt < 3)
  [(0, w 0 % 16 == 0), (4, fmt != 3 && fmt != 7 && decide (w 4 < 256) && (!fp || w 4 / 8 % 8 == 0)),
   (8, if fp then w 8 % 16 == 0 else w 8 == 0), (12, if fp then w 12 == 0 else w 12 % 4 == 0), (16, w 16 % 16 == 0),
   (20, w 20 % 16 == 0), (24, w 24 == 0), (28, w 28 == 0)]

/-- The descriptor at a local address (R296). -/
def State.drainDesc (s : State) (a : Nat) : DrainDesc :=
  let w (off : Nat) : Nat := (s.recordWord a off).toNat
  { target := w 0, fmt := w 4 % 8, rm := BitVec.ofNat 2 (w 4 / 8), sr := w 4 / 32 % 2 == 1, rsen := w 4 / 64 % 2 == 1,
    csen := w 4 / 128 % 2 == 1, stride := w 8, side := w 12, rs := w 16, cs := w 20 }

/-- TDRAIN (R296, R297): 64 advances of c.seed at issue with sr; d marked. -/
def execTdrain (d a : Reg) (n : BitVec 2) (s : State) : Host.Outcome State Fault Refusal :=
  s.issue (.tdrain d a n) { forbidden := true, reads := [a] } fun s =>
    let p := s.sr a
    s.need (p.toNat % 16 == 0) (limitFault p a 1 0x53)
      (s.checked [(p.toNat, 32, false, true)] fun s =>
        match s.firstBad p.toNat (s.drainChecks p.toNat) with
        | some (off, w) => .fault (limitFault w a 5 0x53 off) s
        | none =>
          if 8 ≤ s.tile.tens.cmds.length then .wait 15 0 s
          else
            let desc := s.drainDesc p.toNat
            let (adv, seed) := advances (if desc.sr then 64 else 0) s.tile.core.seed
            let (s, m) := ({ s.noteAll [(p.toNat, 32, false, true)] with tile.core.seed := seed }).mark d
            (s.drained).queueCmd (.tdrain n desc adv m))

/- Patterns. -/

/-- The checks of a pattern record (R90, R298). -/
def State.patternChecks (s : State) (a : Nat) : List (Nat × Bool) :=
  let w (off : Nat) : Nat := (s.recordWord a off).toNat
  let space := w 4 / 65536 % 16
  [(0, w 0 % 16 == 0), (4, (decide (space < 2) || decide (8 ≤ space)) && decide (w 4 < 2 ^ 23) && (space == 1 || w 4 % 65536 == 0)), (12, w 12 == 0)]
  ++ (List.range (w 4 / 2 ^ 20 % 4 + 1)).flatMap fun d => [(20 + 12 * d, decide (w (20 + 12 * d) < 65536)), (24 + 12 * d, w (24 + 12 * d) % 16 == 0)]

/-- The pattern that a record describes (R90). -/
def State.patternAt (s : State) (a : Nat) : Pattern :=
  let w (off : Nat) : Nat := (s.recordWord a off).toNat
  { pat := { base := w 0 + 2 ^ 32 * (w 4 % 65536), space := w 4 / 65536 % 16, bounded := w 4 / 2 ^ 22 % 2 == 1,
             fill := s.recordWord a 8,
             dims := (List.range (w 4 / 2 ^ 20 % 4 + 1)).map fun d =>
               (w (16 + 12 * d) % 65536, (BitVec.ofNat 16 (w (16 + 12 * d) / 65536)).toInt, w (20 + 12 * d) % 65536,
                (s.recordWord a (24 + 12 * d)).toInt) },
    scope := s.tile.core.cur.scope, own := s.tile.core.cur.own }

/-- Stop the stream register 12 + n (R300): it holds 0 and its buffered elements are gone. -/
def State.stopStream (s : State) (n : BitVec 2) : State :=
  if s.tile.strm.regs.any (·.n = n) then
    { s with tile := { s.tile with core.normal := s.tile.core.normal.setV (BitVec.ofNat 5 (n.toNat + 12)) 0,
                                   strm.regs := s.tile.strm.regs.filter (·.n ≠ n),
                                   strm.farReads := s.tile.strm.farReads.filter (·.who ≠ n.toNat) } }
  else s

/-- STRM.CFG (R298). -/
def execStrmCfg (d a : Reg) (s : State) : Host.Outcome State Fault Refusal :=
  s.issue (.strmCfg d a) { forbidden := true, reads := [a] } fun s =>
    let p := s.sr a
    s.need (p.toNat % 16 == 0) (limitFault p a 1 0x58)
      (s.checked [(p.toNat, 64, false, true)] fun s =>
        match s.firstBad p.toNat (s.patternChecks p.toNat) with
        | some (off, w) => .fault (limitFault w a 5 0x58 off) s
        | none =>
          let n : BitVec 2 := BitVec.ofNat 2 d.toNat
          let pat := s.patternAt p.toNat
          let s := (s.noteAll [(p.toNat, 64, false, true)]).drained.stopStream n
          .done { s with tile.strm.regs := s.tile.strm.regs ++ [{ n := n, pat := pat }] })

/-- STRM.BIND (R298): `f` 0 from two local patterns, 1 from the fabric. -/
def execStrmBind (d a b : Reg) (f : BitVec 1) (s : State) : Host.Outcome State Fault Refusal :=
  s.issue (.strmBind d a b f) { forbidden := true, reads := [a, b] } fun s =>
    let x := s.sr a
    let y := s.sr b
    if f = 1 then
      s.need (x.toNat / 16 % 4096 == 0) (limitFault x a 1 0x58)
        (s.need (decide (y.toNat < 65536)) (limitFault y b 2 0x58)
          ((s.drained).queueCmd (.bind (d == 1) (.fabric (x.setWidth 4) ((x >>> 16).setWidth 16) (y.setWidth 16) s.tile.core.cur.scope))))
    else
      s.need (x.toNat % 16 == 0) (limitFault x a 1 0x58)
        (s.need (y.toNat % 16 == 0) (limitFault y b 2 0x58)
          (s.checked [(x.toNat, 64, false, true), (y.toNat, 64, false, true)] fun s =>
            match s.firstBad x.toNat (s.patternChecks x.toNat), s.firstBad y.toNat (s.patternChecks y.toNat) with
            | some (off, w), _ => .fault (limitFault w a 5 0x58 off) s
            | none, some (off, w) => .fault (limitFault w b 5 0x58 off) s
            | none, none =>
              if 8 ≤ s.tile.tens.cmds.length then .wait 15 0 s
              else ((s.noteAll [(x.toNat, 64, false, true), (y.toNat, 64, false, true)]).drained).queueCmd
                (.bind (d == 1) (.loc (s.patternAt x.toNat) (s.patternAt y.toNat)))))

/-- STRM.STOP (R300): a stream register at once, TA and TB through the queue. -/
def execStrmStop (d : Reg) (s : State) : Host.Outcome State Fault Refusal :=
  s.issue (.strmStop d) { forbidden := true } fun s =>
    if d.toNat < 16 then .done (s.stopStream (BitVec.ofNat 2 d.toNat)) else s.queueCmd (.stop (d == 17))

/-- A binding that has no element left to deliver: unbound, fed from the fabric, or both its patterns at their ends (R120). -/
def Bind.spent : Bind → Bool
  | .unbound => true
  | .loc a b => a.ended && b.ended
  | .fabric _ _ _ _ => true

/-- A command that STRM.SYNC waits for (R120). -/
def TensorCmd.pending (c : TensorCmd) : Bool := match c.op with
  | .tfeed _ _ | .tdrain _ _ _ _ | .bind _ _ => true
  | _ => false

/-- The condition of STRM.SYNC (R120). -/
def Tile.synced (t : Tile) : Bool :=
  t.strm.regs.all (·.pat.ended) && t.tens.ta.bind.spent && t.tens.tb.bind.spent && t.tens.kstep.isNone && !t.tens.cmds.any (·.pending)

/-- STRM.SYNC (R120, R300). -/
def execStrmSync (s : State) : Host.Outcome State Fault Refusal :=
  s.issue .strmSync { forbidden := true } fun s => if s.tile.synced then .done s else .wait 15 0 s

end Sys2Proof.Machine
end

