-- ==== Sys2Proof/Machine/Arrivals.lean ====
section
/-!
DEFINITION. The arrival of operations at a tile (R37, R117, R305 to R312, R375), their acknowledgements at the issuer (R123, R387) and
the end of copies (R93, R302, R370).
-/

namespace Sys2Proof.Machine

/- What every operation meets. -/

/-- A packet is turned away whatever it asks for: the router is cut off (R387), no residency is bound (R375), or, for the operations of R37,
a notice covers its scope. -/
def State.turnedAway (s : State) (p : Packet) (drops : Bool) : Option AckKind :=
  if s.cut then some .unreachable
  else if s.tile.core.phase = .unbound then some .unbound
  else if drops && s.coveredBy p.hdr.scope then some .dropped
  else none

/-- What an operation on [a, a + n) of the view meets. -/
inductive Landing where
  | go
  | wait (s : State)
  | ends (how : AckKind) (s : State)

/-- The checks of an operation on the view (R37, R83, R346, R375): the packet, then the address, then the pages and, where it reads, the
check bits; the residency takes the fault of a bad word or a failed page-in (R373). -/
def State.landing (s : State) (p : Packet) (a n : Nat) (write reads : Bool) (agent : BitVec 3) : Landing :=
  match s.turnedAway p true with
  | some how => .ends how s
  | none =>
    match s.tile.view.mapCheck a n write with
    | .ok =>
      match s.tile.seek a n reads agent with
      | .ok => .go
      | .wait t => .wait { s with tile := t }
      | .fault f t => .ends (if f.hard then .uncorrectable else .refused) { s with tile := t.addPend { f with urgent := p.ownUrgent } }
    | _ => .ends .refused s

/-- Perform an operation on the view and acknowledge it, or acknowledge that it ended otherwise, or let it wait in its channel. -/
def State.performOn (s : State) (p : Packet) (a n : Nat) (write reads : Bool) (agent : BitVec 3) (copy : Option Nat) (k : State → State) : State :=
  match s.landing p a n write reads agent with
  | .wait s => s
  | .ends how s => (s.unsend p).ackTo p how a copy
  | .go => (k (s.unsend p)).ackTo p .performed a copy

/-- The header of a reply to a packet. -/
def backHdr (p : Packet) : Hdr :=
  { dst := p.hdr.src, src := p.hdr.dst, scope := p.hdr.scope, cls := 0, prio := 0, urgent := false, carrel := p.hdr.carrel }

/- Messages. -/

/-- The FIFO whose fabric binding a SEND matches (R299): `false` TA, `true` TB. -/
def Tile.slabFor (t : Tile) (cls : BitVec 4) (tag : Word) : Option Bool :=
  let hit (q : Fifo) : Bool := match q.bind with
    | .fabric c hi _ _ => c == cls && hi == (tag >>> 16).setWidth 16
    | _ => false
  if hit t.tens.ta then some false else if hit t.tens.tb then some true else none

/-- Where a SEND that arrives goes (R299, R305, R342). -/
inductive SendWay where
  | reply | slab (tb : Bool) | urgent | queue
deriving DecidableEq, Repr

def State.sendWay (s : State) (p : Packet) (tag : Word) : SendWay :=
  if s.isReply p then .reply
  else match s.tile.slabFor p.hdr.cls tag with
    | some tb => .slab tb
    | none => if p.hdr.urgent then .urgent else .queue

/-- The granules of the receive queue that a payload takes: the lowest free ones (R304; log entry 62). -/
def Tile.freeGranules (t : Tile) (n : Nat) : List Nat :=
  let used := (t.task.queue ++ t.task.urgents).flatMap fun m => m.grans.drop m.freed
  ((List.range 192).filter fun g => !used.contains g).take (granules n)

/-- A message's granules are written whole: their words get good check bits (R346). -/
def Tile.fillGranules (t : Tile) (gs : List Nat) : Tile :=
  { t with view.bad := if t.view.bad = [] then [] else t.view.bad.filter fun w => !gs.any fun g => w == 0x2E00 + 2 * g || w == 0x2E01 + 2 * g }

/-- A message enters the receive queue and its activation a ring (R26, R161, R304), or is discarded: its class is not enabled (R359), or no
ring has room (R360). -/
def State.queueMsg (s : State) (p : Packet) (tag : Word) (bs : List Byte) : State :=
  let h := p.hdr
  let s := { s with tile := s.tile.latch 0 }
  if !(s.tile.handler h.cls).2 then { s with tile := s.tile.addPend { undeliverable h tag false with urgent := p.ownUrgent } }
  else if !s.tile.canPush h.prio then { s with tile := s.tile.addPend { overflowFault h.src h.prio true false with urgent := p.ownUrgent } }
  else
    let gs := s.tile.freeGranules bs.length
    let m : Msg := { id := s.tile.task.nextMsg, cls := h.cls, prio := h.prio, urgent := false, tag := tag, src := h.src, scope := h.scope, payload := bs,
                     grans := gs }
    let t := { (s.tile.fillGranules gs) with task.queue := s.tile.task.queue ++ [m], task.nextMsg := m.id + 1 }
    ({ s with tile := t.push { work := .msg m.id, prio := h.prio, scope := h.scope } }).countMessage h.cls bs.length

/-- MESSAGE_ARRIVAL (R26, R37, R304, R305): 176 granules are open to messages that are not urgent; one that finds no room waits in its channel.
Whatever kind of SEND it is, it is refused where no residency is bound (R375). -/
def execMessageArrival (s : State) : Host.Outcome State Fault Refusal :=
  s.become fun s =>
    match s.arriving with
    | none => s
    | some p =>
      match p.body with
      | .send tag bs =>
        match s.turnedAway p true with
        | some how => if how = .dropped ∧ s.sendWay p tag ≠ .queue then s else (s.unsend p).ackTo p how 0
        | none =>
          if s.sendWay p tag ≠ .queue then s
          else if 176 < s.tile.granulesUsed + granules bs.length then s
          else ((s.unsend p).queueMsg p tag bs).ackTo p .performed 0
      | _ => s

/-- URGENT_REQUEST (R37, R49, R305): at most four headers are held; a fifth waits in its channel. -/
def execUrgentRequest (s : State) : Host.Outcome State Fault Refusal :=
  s.become fun s =>
    match s.arriving with
    | none => s
    | some p =>
      match p.body with
      | .send tag bs =>
        match s.turnedAway p true, s.sendWay p tag with
        | some .dropped, .urgent => (s.unsend p).ackTo p .dropped 0
        | none, .urgent =>
          if 4 ≤ s.tile.task.urgents.length || 192 < s.tile.granulesUsed + granules bs.length then s
          else
            let s := (s.unsend p).ackTo p .performed 0
            let h := p.hdr
            let gs := s.tile.freeGranules bs.length
            let m : Msg := { id := s.tile.task.nextMsg, cls := h.cls, prio := h.prio, urgent := true, tag := tag, src := h.src,
                             scope := h.scope, payload := bs, grans := gs, dead := !(s.tile.handler h.cls).2 }
            let s := { s with tile := ({ (s.tile.fillGranules gs) with task.urgents := s.tile.task.urgents ++ [m], task.nextMsg := m.id + 1 }).latch 0 }
            if m.dead then s else s.countMessage h.cls bs.length
        | _, _ => s
      | _ => s

/-- The slab of a payload (R299): eight blocks of data, then their sidecar words. -/
def slabOf (f : BkFmt) (bs : List Byte) : Slab :=
  { blocks := (List.range 8).map fun i =>
      (leNat ((bs.drop (f.bytes * i)).take f.bytes), BitVec.ofNat 32 (leNat ((bs.drop (8 * f.bytes + 4 * i)).take 4))) }

/-- SLAB_MESSAGE (R113, R299): the FIFO takes the expected slab and the one after it; a later one waits at its sender. A wrong length is
discarded (R391). A slab is cut into blocks in the format that stands as it arrives, and keeps them where a TCFG is performed before it is used (the model's choice, log
entry 104). -/
def execSlabMessage (s : State) : Host.Outcome State Fault Refusal :=
  s.become fun s =>
    match s.arriving with
    | none => s
    | some p =>
      match p.body with
      | .send tag bs =>
        match s.turnedAway p true, s.sendWay p tag with
        | some .dropped, .slab _ => (s.unsend p).ackTo p .dropped 0
        | none, .slab tb =>
          let f := s.tile.tens.fmt
          let q := if tb then s.tile.tens.tb else s.tile.tens.ta
          let seq : BitVec 16 := tag.setWidth 16
          if bs.length ≠ 8 * f.bytes + 32 then
            let s := s.unsend p
            let info := BitVec.ofNat 32 (bs.length % 1024 + 1024 * p.hdr.cls.toNat + 65536 * seq.toNat)
            let bad : FaultRec := { code := 0x73, agent := 2, addr := p.hdr.src, info := info }
            ({ s with tile := s.tile.addPend bad }).ackTo p .performed 0
          else
            let fits := match q.bind with
              | .fabric _ _ next _ => (seq == next || seq == next + 1) && q.slabs.all (·.1 ≠ seq)
              | _ => false
            if !fits then s
            else
              let s := s.unsend p
              let q := { q with slabs := q.slabs ++ [(seq, slabOf f bs)] }
              ({ s with tile := if tb then { s.tile with tens.tb := q } else { s.tile with tens.ta := q } }).ackTo p .performed 0
        | _, _ => s
      | _ => s

/- Stores and atomics. -/

/-- RST_ARRIVAL (R307): one bank access, then the named counter. -/
def execRstArrival (s : State) : Host.Outcome State Fault Refusal :=
  s.become fun s =>
    match s.arriving with
    | none => s
    | some p =>
      match p.body with
      | .rst a bs cnt =>
        s.performOn p a bs.length true (decide (bs.length < 8)) 3 none fun s =>
          ({ s with tile := s.tile.agentWrite a bs }).countBytes cnt bs.length
      | _ => s

/-- RATOM_ARRIVAL (R83, R308): the reply brings the old value; all ones where it is refused (R375). -/
def execRatomArrival (s : State) : Host.Outcome State Fault Refusal :=
  s.become fun s =>
    match s.arriving with
    | none => s
    | some p =>
      match p.body with
      | .ratom a op wide reg m x cmp =>
        let n := if wide then 8 else 4
        let reply (s : State) (old : DWord) (how : AckKind) : State := s.answerFrom p { hdr := backHdr p, body := .ratomReply reg wide m old how, urg := p.urg }
        match s.landing p a n true true 3 with
        | .wait s => s
        | .ends how s => (reply (s.unsend p) (BitVec.allOnes 64) how).ackTo p how a
        | .go =>
          let s := s.unsend p
          let old := s.tile.view.mem.getN a n
          let t := (s.tile.touch a n true false).storeN a n (atomNew (8 * n) op old x.toNat cmp.toNat)
          (reply { s with tile := t } (BitVec.ofNat 64 old) .performed).ackTo p .performed a
      | _ => s

/-- RATOM_REPLY (R36, R308): the marked register is written; a dropped or orphaned reply is discarded. -/
def execRatomReply (s : State) : Host.Outcome State Fault Refusal :=
  s.become fun s =>
    match s.arriving with
    | none => s
    | some p =>
      match p.body with
      | .ratomReply _ _ m old how =>
        let s := s.unsend p
        if how = .dropped then s else { s with tile := s.tile.writeToken (some m) old }
      | _ => s

/-- TDEC_ARRIVAL (R27, R310): it reads the record's first word, and the second where it brings the count to 0; one that meets an uncorrectable word there
is not performed (R346). -/
def execTdecArrival (s : State) : Host.Outcome State Fault Refusal :=
  s.become fun s =>
    match s.arriving with
    | none => s
    | some p =>
      match p.body with
      | .tdec a n =>
        s.performOn p a (if s.tile.completes a n then 16 else 8) true true 3 none fun s => { s with tile := (s.tile.touch a 16 true false).tdec a n p.ownUrgent }
      | _ => s

/-- SPAWN_ARRIVAL (R27, R311): the record {0, word, arg, scope} is written and the push check made. -/
def execSpawnArrival (s : State) : Host.Outcome State Fault Refusal :=
  s.become fun s =>
    match s.arriving with
    | none => s
    | some p =>
      match p.body with
      | .spawn a w arg =>
        s.performOn p a 16 true false 3 none fun s =>
          { s with tile := (s.tile.agentWrite a
              (natBytes 4 0 ++ natBytes 4 (entryWord w).toNat ++ natBytes 4 arg.toNat ++ natBytes 4 p.hdr.scope.toNat)).readyRecord a p.ownUrgent }
      | _ => s

/-- ISTORE_ARRIVAL (R45, R312). No notice drops it (R37); a steward's is performed at a tile where no residency is bound too. -/
def execIstoreArrival (s : State) : Host.Outcome State Fault Refusal :=
  s.become fun s =>
    match s.arriving with
    | none => s
    | some p =>
      match p.body with
      | .istore first xs =>
        let out := s.unsend p
        match (if p.dest.isSome && !s.cut then none else s.turnedAway p false) with
        | some how => out.ackTo p how first
        | none => ({ out with tile := out.tile.istoreParcels first xs }).ackTo p .performed first
      | _ => s

/- Copies. -/

/-- The chunk of a range that starts at an offset: up to the next multiple of 256 of its address, and its end (R89). -/
def chunkLen (a off len : Nat) : Nat := min (256 - (a + off) % 256) (len - off)

/-- The source reads the next chunk of the GET request at a place of its list and sends it (R302, R346); a fault of a request that an urgent handler sent to
its own residency belongs to that level (R335). -/
def State.serve (s : State) (i : Nat) : State :=
  match s.tile.strm.serves[i]? with
  | none => s
  | some p =>
    match p.body with
    | .getReq a len copy dst off =>
      let n := chunkLen a off len
      let gone := { s with tile.strm.serves := s.tile.strm.serves.eraseIdx i }
      match s.tile.view.mapCheck (a + off) n false with
      | .ok =>
        match s.tile.seek (a + off) n true 1 with
        | .wait t => { s with tile := t }
        | .fault f t =>
          ({ gone with tile := ({ t with strm.serves := t.strm.serves.eraseIdx i }).addPend { f with urgent := p.ownUrgent } }).ackTo p
            (if f.hard then .uncorrectable else .refused) a (some copy)
        | .ok =>
          let t := s.tile.touch (a + off) n false false
          let bs := s.tile.view.mem.bytes (a + off) n
          let rest := if off + n < len then t.strm.serves.set i { p with body := .getReq a len copy dst (off + n) } else t.strm.serves.eraseIdx i
          ({ s with tile := { t with strm.serves := rest } }).emit { hdr := backHdr p, body := .getReply copy off bs, urg := p.urg }
      | _ => gone.ackTo p .refused a (some copy)
    | _ => s

/-- GET_REQUEST_ARRIVAL (R117, R302, R375): the source's stream engine accepts a request; with no packet given, it reads and sends the next
chunk of the request at place `n` of those it has accepted. -/
def execGetRequestArrival (s : State) : Host.Outcome State Fault Refusal :=
  s.become fun s =>
    match s.inp.pkt with
    | none => if s.tile.moving || s.tile.stop.off || s.tile.stop.archived || s.fld.paused then s else s.serve s.inp.n
    | some _ =>
      match s.arriving with
      | none => s
      | some p =>
        match p.body with
        | .getReq a len copy _ _ =>
          let out := s.unsend p
          match s.turnedAway p true with
          | some how => out.ackTo p how a (some copy)
          | none =>
            match s.tile.view.mapCheck a len false with
            | .ok => { out with tile.strm.serves := out.tile.strm.serves ++ [p] }
            | _ => out.ackTo p .refused a (some copy)
        | _ => s

/-- GET_REPLY_ARRIVAL (R36, R94, R302): the chunk is written; of a copy that is gone it is discarded. -/
def execGetReplyArrival (s : State) : Host.Outcome State Fault Refusal :=
  s.become fun s =>
    match s.arriving with
    | none => s
    | some p =>
      match p.body with
      | .getReply id off bs =>
        let out := s.unsend p
        match s.tile.strm.copies.find? (·.id = id) with
        | none => out
        | some c =>
          match s.tile.seek (c.dst + off) bs.length false 1 with
          | .wait t => { s with tile := t }
          | .fault f t => { out with tile := t.endCopy c f }
          | .ok => { out with tile := out.tile.arrive c off bs }
      | _ => s

/-- Bytes of a folio tag arrive (R319). -/
def Tile.countTag (t : Tile) (tag : Option (BitVec 8)) (n : Nat) : Tile :=
  match tag with
  | none => t
  | some x =>
    let old := ((t.strm.ftags.find? (·.1 = x)).map (·.2)).getD 0
    { t with strm.ftags := t.strm.ftags.filter (·.1 ≠ x) ++ [(x, old + n)] }

/-- PUT_CHUNK_ARRIVAL (R94, R302, R319): the write, then the channel, the counter and the folio tag that the chunk names. -/
def execPutChunkArrival (s : State) : Host.Outcome State Fault Refusal :=
  s.become fun s =>
    match s.arriving with
    | none => s
    | some p =>
      match p.body with
      | .putChunk id a bs wm cnt _ tag =>
        s.performOn p a bs.length true false 1 (some id) fun s =>
          ({ s with tile := (((s.tile.agentWrite a bs).noteGranules wm a bs.length).countTag tag bs.length) }).countBytes cnt bs.length
      | _ => s

/-- The major opcode of the instruction that issues an operation (R374; log entry 87). -/
def opMajor (op : Nat) : Nat := [0x60, 0x62, 0x63, 0x63, 0x66, 0x67, 0x68, 0x59, 0x59, 0x5A].getD op 0x6B

/-- The fault that an acknowledgement brings the issuer (R369 0x51, 0x5B and 0x5C, R374, R383 0x70 and 0x77); none for one performed or dropped. `slot` is
that of a copy. -/
def ackFault (p : Packet) (op : Nat) (how : AckKind) (addr : Nat) (slot : Option Nat) : Option FaultRec :=
  let unc := if how = .uncorrectable then 1 else 0
  let unb := if how = .unbound then 1 else 0
  let f (code : BitVec 8) (a : Word) (info : Nat) : Option FaultRec :=
    some { code := code, agent := 4, urgent := p.urg, addr := a, info := BitVec.ofNat 32 info }
  match how with
  | .performed => none
  | .dropped => none
  | .unreachable => f 0x70 p.hdr.src (op + if p.armed then 32 else 0)
  | .noPath => f 0x77 p.hdr.src (nameWafer p.hdr.src)
  | .unmapped => f 0x51 p.hdr.src (if p.armed then 0xFF else opMajor op)
  | _ =>
    match slot with
    | none => f 0x5C (BitVec.ofNat 32 addr) (op + (if p.armed then 32 else 0) + 64 * unc + 128 * unb)
    | some n => f 0x5B (BitVec.ofNat 32 addr) (n + (if op = 0x09 then 16 else 0) + 32 * unc + 64 * unb)

/-- PERFORMANCE_ACK (R123, R290, R375): an outstanding acknowledgement of its class falls, or a chunk of a copy is confirmed. -/
def execPerformanceAck (s : State) : Host.Outcome State Fault Refusal :=
  s.become fun s =>
    match s.arriving with
    | none => s
    | some p =>
      match p.body with
      | .ack cls op how addr copy =>
        let s := s.unsend p
        if s.tile.core.phase = .unbound then s
        else match copy with
          | none =>
            let t := if op = 0x0F then s.tile else s.tile.subAck cls
            ({ s with tile := match ackFault p op how addr none with
                | some f => t.addPend f
                | none => t }).retryFires
          | some id =>
            match s.tile.strm.copies.find? (·.id = id) with
            | none => s
            | some c =>
              let off := addr - c.dst
              match ackFault p op how addr (some c.slot) with
              | some f => { s with tile := s.tile.endCopy { c with pend := c.pend.filter (·.1 ≠ off) } f }
              | none =>
                if how = .performed then
                  let len := ((c.pend.find? (·.1 = off)).map (·.2.1)).getD 0
                  { s with tile := s.tile.setCopy { c with landed := c.landed + len, pend := c.pend.filter (·.1 ≠ off) } }
                else s
      | _ => s

/-- The kind of the folio record that issued a copy, if one did. -/
def Tile.folioKind (t : Tile) (c : Copy) : Option Nat := c.folio.bind fun j => t.strm.folio.bind fun f => (f.2[j]?).map (·.kind)

/-- COPY_COMPLETE (R93, R161, R302): the copy in slot `n` has its last chunk written: the token, the counters of mode 4, the message. -/
def execCopyComplete (s : State) : Host.Outcome State Fault Refusal :=
  s.become fun s =>
    match s.tile.strm.copies.find? (·.slot = s.inp.n) with
    | none => s
    | some c =>
      if c.ended.isSome || c.landed ≠ c.length || !c.pend.isEmpty || s.tile.moving then s
      else
        let kind := s.tile.folioKind c
        let s := { s with tile.strm.copies := s.tile.strm.copies.erase c }
        let s := { s with tile := s.tile.writeToken c.mark (BitVec.ofNat 64 c.length) }
        let s := if c.folio.isNone || kind == some 3 then s.countCopy else s
        let s := match c.cen with
          | none => s
          | some cls => s.issueOp (s.hdr s.tile.id.name c.scope cls c.prio) (.send (BitVec.ofNat 32 c.length) []) false (some c.urgent)
        s.retryFires

/-- A reply of a GET is in flight to the residency in focus. -/
def State.replyInFlight (s : State) (id : Nat) : Bool :=
  s.net.any fun q =>
    q.hdr.dst == s.tile.id.name && q.hdr.carrel == s.tile.id.carrel && match q.body with
      | .getReply i _ _ => i == id
      | _ => false

/-- The replay that can go no further ends (R160): every operation complete, or one failed and the issued ones settled. -/
def State.endReplay (s : State) : State :=
  match s.tile.strm.replay with
  | none => s
  | some r =>
    let n := r.counts.length
    if r.completed.length = n then
      { s with tile := { s.tile.writeToken r.mark (BitVec.ofNat 64 n) with strm.replay := none } }
    else if r.failed && r.issued.all (r.completed.contains ·) then
      { s with tile := { s.tile.writeToken r.mark (BitVec.ofNat 64 (2 ^ 31 + r.completed.length)) with strm.replay := none } }
    else s

/-- COPY_FAULT_END (R341, R370): the copy in slot `n` that a fault has ended has no chunk outstanding: the token, the fault. -/
def execCopyFaultEnd (s : State) : Host.Outcome State Fault Refusal :=
  s.become fun s =>
    match s.tile.strm.copies.find? (·.slot = s.inp.n) with
    | none => s
    | some c =>
      match c.ended with
      | none => s
      | some f =>
        if !c.pend.isEmpty || s.replyInFlight c.id || s.tile.moving then s
        else
          let t := { s.tile with strm.copies := s.tile.strm.copies.erase c }
          let t := (t.writeToken c.mark (BitVec.ofNat 64 (2 ^ 31 + c.landed))).addPend f
          let t := match c.folio, t.strm.replay with
            | some j, some r => { t with strm.replay := some { r with failed := true, issued := r.issued.erase j } }
            | _, _ => t
          (({ s with tile := t }).endReplay).retryFires

end Sys2Proof.Machine
end

