-- ==== Sys2Proof/Machine/Barriers.lean ====
section
/-!
DEFINITION. The steps of barriers (R38, R164 to R166, R184): count barriers at their home tile, and barrier lines.
-/

namespace Sys2Proof.Machine

/- Count barriers. -/

/-- The fields of a count barrier's word (R165). -/
def barArrived (w : Nat) : Nat := w % 2 ^ 24
def barTarget (w : Nat) : Nat := w / 2 ^ 24 % 2 ^ 24
def barGen (w : Nat) : Nat := w / 2 ^ 48 % 256

/-- The word that hardware writes, of arrivals, target and generation: the reserved bits are 0 (R3). -/
def barWord (arrived target gen : Nat) : Nat := gen % 256 * 2 ^ 48 + target % 2 ^ 24 * 2 ^ 24 + arrived % 2 ^ 24

/-- arrive(w) of R165: the new word, and the generation that a release names. -/
def barArrive (w : Nat) : Nat × Option Nat :=
  let g := barGen w
  if barTarget w ≤ barArrived w + 1 then (barWord 0 (barTarget w) (g + 1), some ((g + 1) % 256))
  else (barWord (barArrived w + 1) (barTarget w) g, none)

/-- decrement(w) of R165. -/
def barDecrement (w : Nat) : Nat × Option Nat :=
  let t := barTarget w - 1
  let a := barArrived w
  let g := barGen w
  if 0 < a ∧ t ≤ a then (barWord 0 t (g + 1), some ((g + 1) % 256)) else (barWord a t g, none)

/-- release of R165: a notice to every residency bound in the carrel, on this wafer and, out at the peer ports, on every other that it spans: at a peer
port one notice goes to each, and the wafer that it reaches hands it on to all its residencies (log entry 61). -/
def State.releaseAll (s : State) (p : Packet) (addr gen : Nat) (cause : Option Word) : State :=
  let body : Body := .barRelease p.hdr.dst addr (BitVec.ofNat 8 gen) cause
  let s := (s.bound p.hdr.carrel.toNat).foldl (fun s q => s.emit { hdr := { backHdr p with dst := (s.tileAt q).id.name }, body := body }) s
  (List.range (((s.carrel p.hdr.carrel.toNat).map (·.nw)).getD 1 - 1)).foldl (fun s i =>
    s.emit { hdr := { backHdr p with dst := mkName (i + 1) 0 0 }, body := body }) s

/-- The withdrawal under a notice that a count barrier's generation has had (R331; log entry 60), and the generation's end. -/
def Tile.withdrew (t : Tile) (addr : Nat) : Option Word := (t.task.withdrawn.find? (·.1 = addr)).map (·.2)
def Tile.noteWithdrawal (t : Tile) (addr : Nat) (x : Option Word) : Tile :=
  let rest := t.task.withdrawn.filter (·.1 ≠ addr)
  { t with task.withdrawn := match x with
      | some y => (addr, y) :: rest
      | none => rest }

/-- The home's bank atomic unit performs an arrival or a decrement (R165, R375). -/
def State.atHome (s : State) (p : Packet) (addr : Nat) (f : Nat → Nat × Option Nat) (reply : State → Nat → State) (refuse : State → AckKind → State) :
    State :=
  match s.turnedAway p false with
  | some how => refuse (s.unsend p) how
  | none =>
    match s.tile.view.mapCheck addr 8 true with
    | .ok =>
      (match s.tile.seek addr 8 true 3 with
       | .wait t => { s with tile := t }
       | .fault fr t => refuse ({ s with tile := t.addPend fr }.unsend p) (if fr.hard then .uncorrectable else .refused)
       | .ok =>
         let s := s.unsend p
         let w := s.tile.view.mem.getN addr 8
         let (w', rel) := f w
         let s := { s with tile := (s.tile.touch addr 8 true false).storeN addr 8 w' }
         let s := reply s (barGen w)
         let cause := match p.cause with
           | some x => some x
           | none => s.tile.withdrew addr
         match rel with
         | some g => { s with tile := s.tile.noteWithdrawal addr none }.releaseAll p addr g cause
         | none => { s with tile := s.tile.noteWithdrawal addr cause })
    | _ => refuse (s.unsend p) .refused

/-- BARRIER_ARRIVAL (R165): the reply brings the generation in which the arrival counted. -/
def execBarrierArrival (s : State) : Host.Outcome State Fault Refusal :=
  s.become fun s =>
    match s.arriving with
    | none => s
    | some p =>
      match p.body with
      | .barArrive addr =>
        s.atHome p addr barArrive (fun s g => s.emit { hdr := backHdr p, body := .barReply p.hdr.dst addr (BitVec.ofNat 8 g), urg := p.urg })
          (fun s how => s.ackTo p how addr)
      | .barReply home addr gen =>
        let s := s.unsend p
        let cls := s.ackClass p.hdr.src
        let hit (m : Member) : Member :=
          if m.bar = .count home addr ∧ m.arrived ∧ m.g.isNone then
            { m with g := some gen, arrived := m.release != some (gen + 1), freed := if m.release = some (gen + 1) then m.cause else m.freed }
          else m
        let t := s.tile.subAck cls
        ({ s with tile := { t with task.members := t.task.members.map fun (m : Option Member) => m.map hit } }).retryFires
      | _ => s

/-- BARRIER_DECREMENT (R38, R165). -/
def execBarrierDecrement (s : State) : Host.Outcome State Fault Refusal :=
  s.become fun s =>
    match s.arriving with
    | none => s
    | some p =>
      match p.body with
      | .barDec addr _ => s.atHome p addr barDecrement (fun s _ => s) fun s how => s.ackTo p how addr
      | _ => s

/-- The release notice at a membership entry (R165): it ends the wait of the arrival that it follows. -/
def Member.released (m : Member) (home : Word) (addr : Nat) (gen : BitVec 8) (cause : Option Word) : Member :=
  if m.bar = .count home addr then
    let ends := m.arrived && m.g == some (gen - 1)
    { m with release := some gen, cause := cause, arrived := m.arrived && !ends, freed := if ends then cause else m.freed }
  else m

/-- BARRIER_RELEASE_NOTICE (R165, R247). -/
def execBarrierReleaseNotice (s : State) : Host.Outcome State Fault Refusal :=
  s.become fun s =>
    match s.arriving with
    | none => s
    | some p =>
      match p.body with
      | .barRelease home addr gen cause =>
        let s := s.unsend p
        let hit := s.tile.task.members.toList.any fun m => match m with
          | some m => m.bar == .count home addr
          | none => false
        let t := { s.tile with task.members := s.tile.task.members.map fun (m : Option Member) => m.map (·.released home addr gen cause) }
        { s with tile := if hit then t.latch 6 else t }
      | _ => s

/- Barrier lines (R164, R184). -/

/-- A tile drives a carrel's line low: its residency is a member that has not arrived. -/
def Tile.drivesLow (t : Tile) (c : BitVec 11) (n : BitVec 2) : Bool :=
  t.inCarrel c.toNat && !t.stop.off && t.net.fwd.isNone && t.task.members.toList.any fun m => match m with
    | some m => m.bar == .line n && !m.arrived
    | none => false

/-- A member of a carrel's line has arrived: the phase has begun, and a release wave has something to release. A line that no member drives, before any
has arrived, brings no wave, so that a wave never overtakes a member's first arrival (R164, R328; log entry 59). -/
def State.lineReached (s : State) (c : Carrel) (n : BitVec 2) : Bool :=
  s.tiles.any fun t => t.inCarrel c.num && t.task.members.toList.any fun m => match m with
    | some m => m.bar == .line n && m.arrived
    | none => false

/-- The tiles at which the wave of a carrel's line acts: those on which a residency of it is bound, and every other tile that the carrel owns
and that has left its state after power-on; the rest take the carrel's phase when a residency is bound there. -/
def State.lineTiles (s : State) (c : Carrel) : List Phys :=
  (s.tiles.filter fun t => t.inCarrel c.num
    || (t.core.phase == .unbound && (t.router.own[0]).valid && (t.router.own[0]).carrel.toNat == c.num)).map (·.phys)

/-- The segment of a barrier line at a tile is stuck at a level (R394): the line of the carrel whose tile it is. -/
def State.stuckAt (s : State) (p : Phys) (n : BitVec 2) (v : Bool) : Bool := s.wafer.stuck.contains (p, n, v)

/-- The root sees the line high: no tile drives it low, save one whose segment is stuck high, and no segment of the carrel's line is stuck low. The line carries no
check (R394; a segment is a tile's, log entry 95). -/
def State.lineHigh (s : State) (c : Carrel) (n : BitVec 2) : Bool :=
  (s.tiles.all fun t => !t.drivesLow (BitVec.ofNat 11 c.num) n || s.stuckAt t.phys n true)
    && s.wafer.stuck.all fun x => x.2.1 != n || x.2.2 || s.ownedNow x.1 != some c.num

/-- The release wave at a membership entry (R164): the arrived bit falls, and a pending arrival becomes one. -/
def Member.linePhase (m : Member) (n : BitVec 2) : Member :=
  if m.bar = .line n then { m with arrived := m.pending, pending := false, phase := !m.phase, boost := none } else m

/-- The wave at a tile: the phase bit, the members, the latch. -/
def Tile.lineWave (t : Tile) (n : BitVec 2) : Tile :=
  let hit := t.task.members.toList.any fun m => match m with
    | some m => m.bar == .line n
    | none => false
  let t := { t with task.linePhase := t.task.linePhase ^^^ BitVec.ofNat 4 (2 ^ n.toNat), task.members := t.task.members.map fun (m : Option Member) => m.map (·.linePhase n) }
  if hit then t.latch 6 else t

/-- The tiles of the carrel on which the wave of a line has still to act. -/
def Carrel.waveLeft (c : Carrel) (n : BitVec 2) : Option (List Phys) := (c.lineWaves.find? (·.1 = n)).map (·.2)

/-- A report of carrel wafer `k` for a line is in at the steward of carrel wafer 0 (R184). -/
def Carrel.reported (c : Carrel) (n : BitVec 2) (k : Nat) : Bool := c.reports.contains (n, k)

/-- A root's wave may start: on one wafer the line is high; of a carrel that spans wafers the steward of carrel wafer 0 has every report, and another wafer's root has
that steward's release, which stands with it as wafer 0's entry (R184). -/
def State.lineDone (s : State) (c : Carrel) (n : BitVec 2) : Bool :=
  if c.nw ≤ 1 then s.lineHigh c n && s.lineReached c n
  else if c.k = 0 then (List.range c.nw).all (c.reported n)
  else c.reported n 0

/-- The root of a carrel's lines: the tile of its logical origin (R164). -/
def State.lineRoot (s : State) (c : Carrel) : Phys := (s.locate c 0 0).getD s.tile.phys

/-- LINE_RELEASE (R164, R184): the root of line `m` of carrel `n` sends the wave, unless the last one has not yet returned, and where the carrel spans wafers the
steward of its wafer 0 sends the release to the others' roots; with a wave on its way, it reaches the tile in focus, and has returned with the last tile. -/
def execLineRelease (s : State) : Host.Outcome State Fault Refusal :=
  s.become fun s =>
    let n : BitVec 2 := BitVec.ofNat 2 s.inp.m
    match s.carrel s.inp.n with
    | none => s
    | some c =>
      if !c.live then s
      else match c.waveLeft n with
        | none =>
          if s.lineDone c n then
            let s := if c.k = 0 then s.toOthers c (mkName 0 0 0) 0 (.lineRelease n) else s
            s.updCarrel c.num fun k => { k with linePhase := k.linePhase ^^^ BitVec.ofNat 4 (2 ^ n.toNat), lineWaves := k.lineWaves ++ [(n, s.lineTiles c)], reports := k.reports.filter (·.1 ≠ n) }
          else s
        | some ps =>
          let p := s.tile.phys
          if ps.contains p then
            let rest := ps.erase p
            let left : List (BitVec 2 × List Phys) := if rest = [] then [] else [(n, rest)]
            ({ s with tile := s.tile.lineWave n }).updCarrel c.num fun k => { k with lineWaves := k.lineWaves.filter (fun (x : BitVec 2 × List Phys) => x.1 ≠ n) ++ left }
          else if ps = [] then s.updCarrel c.num fun k => { k with lineWaves := k.lineWaves.filter (·.1 ≠ n) }
          else s

/-- LINE_PHASE_REPORT (R184): the root of line `m` of carrel `n`, which spans wafers, sees its line high with the last wave returned: it reports to the steward of carrel
wafer 0, once a phase. -/
def execLinePhaseReport (s : State) : Host.Outcome State Fault Refusal :=
  s.become fun s =>
    let n : BitVec 2 := BitVec.ofNat 2 s.inp.m
    match s.carrel s.inp.n with
    | none => s
    | some c =>
      if !c.live || decide (c.nw ≤ 1) || c.reported n c.k || !s.lineHigh c n || (c.waveLeft n).isSome then s
      else
        let s := s.updCarrel c.num fun q => { q with reports := q.reports ++ [(n, c.k)] }
        if c.k = 0 then s
        else s.emitFrom (s.lineRoot c)
          { hdr := { dst := mkName (c.nw - c.k) 0 0, src := 0, scope := 0, cls := 0, prio := 0, urgent := false, carrel := BitVec.ofNat 11 c.num },
            body := .lineReport n }

end Sys2Proof.Machine
end

