-- ==== Sys2Proof/Machine/Combine.lean ====
section
/-!
DEFINITION. In-fabric combining (R150 to R158, R317, R318, R391, R392): the local input, the fold at a node, and the root.
-/

namespace Sys2Proof.Machine

/- Entries. -/

/-- The entry of a route (R150). -/
def Tile.entryOf (t : Tile) (r : BitVec 8) : Option (Fin 16) := (List.finRange 16).find? fun i => t.comb[i].valid && t.comb[i].route == r

def State.setEntry (s : State) (i : Fin 16) (e : CombEntry) : State := { s with tile.comb := s.tile.comb.set i.val e i.isLt }

/-- The block format of an entry's type, if it is one (R150). -/
def CombEntry.blkFmt (e : CombEntry) : Option BkFmt :=
  match e.type.toNat with
  | 4 => some .bk8
  | 5 => some .bk6
  | 6 => some .bk4
  | _ => none

/-- Bytes of one index in the data plane. -/
def CombEntry.size (e : CombEntry) : Nat := match e.blkFmt with
  | some f => f.bytes
  | none => 16

/-- The code of a direction (R150). -/
def Dir.code : Dir → Nat
  | .lcl => 0
  | .west => 1
  | .north => 2
  | .east => 3
  | .south => 4

/-- The inputs that an entry configures, in the fold order of R151. -/
def CombEntry.dirs (e : CombEntry) : List Dir := Machine.dirs.filter fun d => e.inputs.getLsbD (Dir.code d)

/-- The neighbour of the residency in focus in a logical direction (R184, R317). -/
def State.combNeighbour (s : State) (d : Dir) : Option Word := (s.myCarrel).bind fun c => c.neighbour s.tile.id.name d

/-- The input that a sender's tokens are (R317, R388). -/
def State.inputOf (s : State) (src : Word) : Option Dir := [Dir.west, .north, .east, .south].find? fun d => s.combNeighbour d == some src

/-- Send something of a route to a neighbour. -/
def State.combSend (s : State) (d : Dir) (b : Body) : State :=
  match s.combNeighbour d with
  | none => s
  | some n => s.emit { hdr := s.hdr n 0, body := b }

/-- A combine fault (R383 0x71, R384 0xE7, R391): at the residency of the node, where one is bound, and at the acting steward. -/
def State.combFault (s : State) (r : BitVec 8) (reason : Nat) (d : Dir) (idx : Nat) : State :=
  let info := BitVec.ofNat 32 (reason + 4 * Dir.code d + 256 * idx)
  let s := if s.tile.core.phase = .unbound then s
    else { s with tile := s.tile.addPend { code := 0x71, agent := 4, addr := r.setWidth 32, info := info } }
  s.stewardEvent s.tile.phys.field (0xE7 + 256 * r.toNat) s.tile.phys.operand info

/-- The failures of reasons 0 and 2: the entry is no longer valid (R391). -/
def State.combBreak (s : State) (i : Fin 16) (reason : Nat) (d : Dir) (idx : Nat) : State :=
  let e := s.tile.comb[i]
  (s.setEntry i { e with valid := false }).combFault e.route reason d idx

/- The local input (R154, R157, R159, R318). -/

/-- The segment of an index (R157). -/
def segOf (idx : Nat) : Nat := idx / 64

/-- The segment gate is open for an index: block types hold it until the marker has come (R157). -/
def CombEntry.gateOpen (e : CombEntry) (idx : Nat) : Bool := e.blkFmt.isNone || decide (segOf idx < e.markers + 2)

/-- The run exponent of an index whose gate is open (R157): of the segment after `markers`, or of the one before. -/
def CombEntry.runAt (e : CombEntry) (idx : Nat) : Nat := if segOf idx = e.markers + 1 then e.runNext else e.run

/-- A comb record's elements wait at the entry of its route, and at the root it names the results' place (R159, R318); `len` counts data-plane
bytes. With no entry its tokens are discarded (R391). -/
def State.injectComb (s : State) (j : Nat) (r : BitVec 8) (src dst len : Nat) : State :=
  match s.tile.entryOf r with
  | none => ({ s with tile.router.tokens := s.tile.router.tokens + len / 16 }).combFault r 1 .lcl 0
  | some i =>
    let e := s.tile.comb[i]
    let sz := e.size
    let own := e.inputs.getLsbD 0
    let n := if own then len / sz else 0
    let first := if own then e.local_ else e.rootDone
    let new := (List.range n).map fun k => (j, e.local_ + k, src + sz * k, BitVec.ofNat 32 (src + len + 4 * k))
    let wrap (x : Int) : Nat := (wrap32 x).toNat
    s.setEntry i { e with
      local_ := e.local_ + n, gated := e.gated ++ new,
      dest := if e.out = 0 then some (wrap ((dst : Int) - sz * first), wrap ((dst : Int) + len - 4 * first)) else e.dest }

/-- A folio replay's operation fails (R160): its record's elements go no further. The fault belongs to the level that ran the folio (R335). -/
def State.failComb (s : State) (j : Nat) (f : FaultRec) : State :=
  let t := s.tile.addPend { f with urgent := s.tile.strm.replay.any (·.urgent) }
  let t := { t with comb := t.comb.map fun (e : CombEntry) => { e with gated := e.gated.filter (·.1 ≠ j) } }
  let t := match t.strm.replay with
    | some r => { t with strm.replay := some { r with failed := true, issued := r.issued.erase j } }
    | none => t
  ({ s with tile := t }).endReplay

/-- The next local element of an entry leaves the local port, if the segment gate is open (R154, R157): the stream engine reads it. At an entry that is no
longer valid it is discarded and counted, with one fault of reason 1 as its elements end (R391). A residency whose normal level is Faulted, and a field that
is paused, inject nothing (R391, R362). -/
def State.injectNext (s : State) (i : Fin 16) : State :=
  let e := s.tile.comb[i]
  match e.gated with
  | [] => s
  | (j, idx, a, b) :: rest =>
    if s.fld.paused || s.tile.stop.faulted == some .normal then s
    else if !e.valid then
      let s := { s with tile.router.tokens := s.tile.router.tokens + 1 }.setEntry i { e with gated := rest }
      if rest.isEmpty then s.combFault e.route 1 .lcl idx else s
    else if !e.gateOpen idx then s
    else
      let n := e.size
      let side := b.toNat
      let blk := e.blkFmt
      match s.tile.view.mapCheck a n false, if blk.isSome then s.tile.view.mapCheck side 4 false else .ok with
      | .ok, .ok =>
        match s.tile.seek a n true 1, if blk.isSome then s.tile.seek side 4 true 1 else .ok with
        | .wait t, _ => { s with tile := t }
        | .ok, .wait t => { s with tile := t }
        | .fault f t, _ => ({ s with tile := t }).failComb j f
        | .ok, .fault f t => ({ s with tile := t }).failComb j f
        | .ok, .ok =>
          let data := s.tile.view.mem.getN a n
          let d : TokData := match blk with
            | some f => .blk (leafBlock f data (s.tile.view.mem.word side) (e.runAt idx))
            | none => .lanes (BitVec.ofNat 128 data)
          let t := s.tile.touch a n false false
          let t := if blk.isSome then t.touch side 4 false false else t
          let tok : CombTok := { route := e.route, idx := idx, flags := 0, data := d }
          ({ s with tile := t }).setEntry i { e with gated := rest, bufs := e.bufs ++ [(Dir.lcl, tok)] }
      | .fault f, _ => s.failComb j { f with agent := 1 }
      | _, .fault f => s.failComb j { f with agent := 1 }
      | _, _ => s

/- Arrival of tokens. -/

/-- A token is of the kind that an entry's type takes (R391 reason 2). -/
def CombEntry.suits (e : CombEntry) (t : CombTok) : Bool := match t.data with
  | .blk _ => e.blkFmt.isSome
  | _ => e.blkFmt.isNone

/-- A token joins the buffer of its input, or is discarded (R391). -/
def State.tokenIn (s : State) (src : Word) (t : CombTok) : State :=
  let d := s.inputOf src
  let lost (d : Dir) : State := ({ s with tile.router.tokens := s.tile.router.tokens + 1 }).combFault t.route 1 d t.idx
  match s.tile.entryOf t.route, d with
  | some i, some d =>
    let e := s.tile.comb[i]
    if !e.inputs.getLsbD (Dir.code d) then lost d
    else if !e.suits t then s.combBreak i 2 d t.idx
    else s.setEntry i { e with bufs := e.bufs ++ [(d, t)] }
  | _, d => lost (d.getD .lcl)

/- The fold (R151, R152, R155). -/

/-- The head token of an input. -/
def CombEntry.head (e : CombEntry) (d : Dir) : Option CombTok := (e.bufs.find? (·.1 = d)).map (·.2)

/-- The heads of every configured input, if all are there. -/
def CombEntry.heads (e : CombEntry) : Option (List (Dir × CombTok)) := e.dirs.mapM fun d => (e.head d).map (d, ·)

/-- Take the head of each input. -/
def CombEntry.popHeads (e : CombEntry) : CombEntry :=
  { e with bufs := e.dirs.foldl (fun b d => match b.find? (·.1 = d) with
      | some x => b.erase x
      | none => b) e.bufs }

/-- What a fold gives: the data, the flags of the inputs and the node's own, and the exponent that a renorm notice names. -/
def CombEntry.foldToks (e : CombEntry) (ts : List CombTok) : TokData × BitVec 4 × Option Nat :=
  let fl : BitVec 4 := ts.foldl (fun a t => a ||| t.flags) 0
  match e.blkFmt with
  | some f =>
    let (p, g, own) := nodeBlocks f (ts.map fun t => match t.data with
      | .blk p => p
      | _ => .absent)
    (.blk p, fl ||| own.setWidth 4, g)
  | none =>
    let xs := ts.filterMap fun t => match t.data with
      | .lanes v => some v
      | _ => none
    match xs with
    | [] => (.absent, fl, none)
    | x :: xs =>
      let (v, own) := xs.foldl (fun a y =>
        let (r, f) := foldLanes e.type.toNat a.1 y
        (r, a.2 ||| f)) (x, (0 : Flags))
      (.lanes v, fl ||| own.setWidth 4, none)

/- The root (R156 to R158). -/

/-- The bytes of a result: the data, the sidecar of a block type, its flags, the generator after it. -/
structure RootOut where
  data : List Byte
  side : Option Word
  flags : Flags
  gen : Word

def CombEntry.encode (e : CombEntry) (d : TokData) : RootOut :=
  match e.blkFmt with
  | none =>
    { data := natBytes 16 (match d with
        | .lanes v => v.toNat
        | _ => 0), side := none, flags := 0, gen := e.gen }
  | some f =>
    let p := match d with
      | .blk p => p
      | _ => .absent
    let (adv, g) := advances (if e.sr then 32 else 0) e.gen
    let o := rootBlock f (if e.sr then .sr 0 else Mode.ofRm e.rm) adv p
    { data := natBytes f.bytes o.data, side := some o.side, flags := o.flags, gen := if e.sr && o.took then g else e.gen }

/-- The entry of the histogram and the counts of R158 that a sidecar falls in: finite, zero, over, error, then the 32 bins. -/
def tallyOf (side : Word) (l : List Nat) : List Nat :=
  let up (i : Nat) (l : List Nat) : List Nat := l.set i (min 0xFFFF (l.getD i 0 + 1))
  let l := if l = [] then List.replicate 36 0 else l
  match sideClass side with
  | .finite => up (4 + (clampInt ((side.toNat % 16384 : Nat) - 8191) (-16) 15 + 16).toNat) (up 0 l)
  | .zero => up 1 l
  | .over => up 2 l
  | .error => up 3 l

/-- The largest run exponent that a route has come to (R158). -/
def CombEntry.finalRun (e : CombEntry) : Nat := if e.blkFmt.isNone then 0 else (e.grown.map (·.2)).foldl max (max e.run e.runNext)

/-- The completion record (R158). -/
def CombEntry.recordBytes (e : CombEntry) : List Byte :=
  let n (i : Nat) : Nat := e.tally.getD i 0
  natBytes 4 ((if e.coarse then 1 else 0) + 2 * e.flags.toNat + 65536 * (e.finalRun % 2 ^ 14))
    ++ natBytes 4 (n 0 + 65536 * n 1) ++ natBytes 4 (n 2 + 65536 * n 3) ++ natBytes 4 0
    ++ (List.range 32).flatMap fun b => natBytes 2 (n (4 + b))

/-- The root's segment marker after the last index of a segment (R157): run(s + 2), sent down the tree. -/
def State.sendMarker (s : State) (i : Fin 16) (seg : Nat) : State :=
  let e := s.tile.comb[i]
  let run := (e.grown.filter (·.1 = seg)).foldl (fun a x => max a x.2) e.runNext
  let s := s.setEntry i { e with markers := seg + 1, run := e.runNext, runNext := run, grown := e.grown.filter (·.1 ≠ seg) }
  (e.dirs.filter (· ≠ .lcl)).foldl (fun s d => s.combSend d (.marker e.route seg run)) s

/-- The local writes of a result and, with the last index, of the completion record. -/
def CombEntry.writes (e : CombEntry) (idx : Nat) (o : RootOut) : List (Nat × List Byte) :=
  match e.dest with
  | none => []
  | some (d, sd) =>
    [((d + e.size * idx) % 2 ^ 32, o.data)] ++ match o.side with
      | some w => [((sd + 4 * idx) % 2 ^ 32, natBytes 4 w.toNat)]
      | none => []

/-- Make a list of an agent's writes, or wait for pages, or meet a fault; nothing is written unless all can be. -/
def Tile.writeAll (t : Tile) (agent : BitVec 3) (l : List (Nat × List Byte)) : Seek :=
  match l.findSome? fun w => match t.view.mapCheck w.1 w.2.length true with
      | .fault f => some { f with agent := agent }
      | _ => none with
  | some f => .fault f t
  | none =>
    match l.findSome? fun w => match t.seek w.1 w.2.length (decide (w.2.length < 8)) agent with
        | .ok => none
        | x => some x with
    | some x => x
    | none => .ok

def Tile.putAll (t : Tile) (l : List (Nat × List Byte)) : Tile := l.foldl (fun t w => t.agentWrite w.1 w.2) t

/-- The root takes a folded group (R156, R158): it is written, and after the last index the record, the flags and the token follow. A result
that meets a local fault is lost, and the residency takes the fault; so is a record that meets one, after its last result has been written. -/
def State.rootResult (s : State) (i : Fin 16) (d : TokData) (fl : BitVec 4) (grow : Option Nat) : State :=
  let e := s.tile.comb[i]
  let idx := e.rootDone
  let o := e.encode d
  let coarse := match d with
    | .blk p => p.coarse
    | _ => false
  let grown := match grow with
    | some x => e.grown ++ [(segOf idx, x)]
    | none => e.grown
  let e' := { e.popHeads with
    rootDone := idx + 1, gen := o.gen, grown := grown, coarse := e.coarse || coarse, flags := e.flags ||| fl ||| o.flags.setWidth 4,
    bkov := e.bkov || o.flags.getLsbD 9, tally := match o.side with
      | some w => tallyOf w e.tally
      | none => e.tally }
  let last := e.rootCount == some (idx + 1)
  let ws := e.writes idx o
  let rec_ := if last then [(e.record, e'.recordBytes)] else []
  let next (t : Tile) : State :=
    let s := ({ s with tile := t }).setEntry i e'
    if e.blkFmt.isSome ∧ idx % 64 = 63 then s.sendMarker i (segOf idx) else s
  match s.tile.writeAll 1 ws, s.tile.writeAll 1 rec_ with
  | .wait t, _ => { s with tile := t }
  | .ok, .wait t => { s with tile := t }
  | .fault f t, _ => next (t.addPend f)
  | .ok, .fault f t => next ((t.putAll ws).addPend f)
  | .ok, .ok =>
    let s := next ((s.tile.putAll ws).putAll rec_)
    if !last then s
    else
      let b : BitVec 12 := e'.flags.setWidth 12 ||| if e'.bkov then flBKOV.setWidth 12 else 0
      let t := (s.tile.setSticky b false).writeToken e.mark (BitVec.ofNat 64 (idx + 1))
      ({ s with tile := t }).setEntry i { t.comb[i] with rootCount := none, mark := none }

/-- A node folds the heads of its inputs (R151): all must be there, and must bear the index that is next. The root holds a result until a
comb record has named its place (R159). -/
def State.foldEntry (s : State) (i : Fin 16) : State :=
  let e := s.tile.comb[i]
  if !e.valid || e.dirs.isEmpty then s
  else match e.heads with
    | none => s
    | some hs =>
      match hs.find? fun h => h.2.idx ≠ e.rootDone with
      | some (d, t) => s.combBreak i 0 d t.idx
      | none =>
        let (d, fl, grow) := e.foldToks (hs.map (·.2))
        if e.out = 0 then (if e.dest.isNone then s else s.rootResult i d fl grow)
        else
          let s := s.setEntry i { e.popHeads with rootDone := e.rootDone + 1 }
          let root := dirOf e.out.toNat
          let s := match grow with
            | some x => s.combSend root (.renorm e.route (segOf e.rootDone) x)
            | none => s
          s.combSend root (.combine { route := e.route, idx := e.rootDone, flags := fl, data := d })

/-- COMBINE_TOKEN (R151, R391): a token arrives at the tile's router; or, with no packet given, entry `n` takes its next local element (`ok`)
or folds a group. The router does the work whatever its residency's state (R391). -/
def execCombineToken (s : State) : Host.Outcome State Fault Refusal :=
  s.become fun s =>
    match s.inp.pkt with
    | some _ =>
      (match s.arriving with
       | none => s
       | some p =>
         match p.body with
         | .combine t => (s.unsend p).tokenIn p.hdr.src t
         | _ => s)
    | none =>
      if s.tile.moving || s.tile.stop.off || s.tile.stop.archived then s
      else
        let i : Fin 16 := ⟨s.inp.n % 16, Nat.mod_lt _ (by decide)⟩
        if s.inp.ok then s.injectNext i else s.foldEntry i

/-- RENORM_NOTICE (R155, R157): it passes towards the root, which notes the exponent. -/
def execRenormNotice (s : State) : Host.Outcome State Fault Refusal :=
  s.become fun s =>
    match s.arriving with
    | none => s
    | some p =>
      match p.body with
      | .renorm r seg x =>
        let s := s.unsend p
        match s.tile.entryOf r with
        | none => s
        | some i =>
          let e := s.tile.comb[i]
          if e.out = 0 then s.setEntry i { e with grown := e.grown ++ [(seg, x)] } else s.combSend (dirOf e.out.toNat) (.renorm r seg x)
      | _ => s

/-- SEGMENT_MARKER (R157): the gate opens, and the marker goes on to the inputs that are neighbours. -/
def execSegmentMarker (s : State) : Host.Outcome State Fault Refusal :=
  s.become fun s =>
    match s.arriving with
    | none => s
    | some p =>
      match p.body with
      | .marker r seg run =>
        let s := s.unsend p
        match s.tile.entryOf r with
        | none => s
        | some i =>
          let e := s.tile.comb[i]
          if seg ≠ e.markers then s
          else
            let s := s.setEntry i { e with markers := seg + 1, run := e.runNext, runNext := run }
            (e.dirs.filter (· ≠ .lcl)).foldl (fun s d => s.combSend d (.marker r seg run)) s
      | _ => s

end Sys2Proof.Machine
end

