-- ==== Sys2Proof/Machine/Control.lean ====
section
/-!
DEFINITION. Branches, jumps and hardware loops (R236 to R241), the instructions that end, yield or guard work (R242 to R248), the
control-register moves and TRAP (R249, R250), and their compact forms (R200).
-/

namespace Sys2Proof.Machine

/- Branches and jumps. -/

/-- A taken transfer (R238, R241): the target is a parcel address, or the transfer faults with nothing done. -/
def State.transfer (s : State) (t : Word) (d : Option (Reg × Word)) : Res :=
  if t.toNat < 0x2000 then
    .goto t.toNat (match d with
      | none => s
      | some (r, x) => s.setS r x)
  else .fault { code := 0x04, addr := t } s

/-- A conditional branch (R236). -/
def State.branch (s : State) (i : Instr) (x y : Reg) (off : Word) (c : Word → Word → Bool) : Host.Outcome State Fault Refusal :=
  s.issue i { reads := [x, y] } fun s => if c (s.sr x) (s.sr y) then s.transfer (s.pcWord + off) none else .done s

/-- BEQ (R236). -/
def execBeq (o : BitVec 14) (t x : Reg) (s : State) : Host.Outcome State Fault Refusal :=
  s.branch (.beq o t x) x t (o.signExtend 32) (· == ·)

/-- BNE (R236). -/
def execBne (o : BitVec 14) (t x : Reg) (s : State) : Host.Outcome State Fault Refusal :=
  s.branch (.bne o t x) x t (o.signExtend 32) (· != ·)

/-- BLT (R236). -/
def execBlt (o : BitVec 14) (t x : Reg) (s : State) : Host.Outcome State Fault Refusal :=
  s.branch (.blt o t x) x t (o.signExtend 32) BitVec.slt

/-- BGE (R236). -/
def execBge (o : BitVec 14) (t x : Reg) (s : State) : Host.Outcome State Fault Refusal :=
  s.branch (.bge o t x) x t (o.signExtend 32) fun a b => !a.slt b

/-- BLTU (R236). -/
def execBltu (o : BitVec 14) (t x : Reg) (s : State) : Host.Outcome State Fault Refusal :=
  s.branch (.bltu o t x) x t (o.signExtend 32) BitVec.ult

/-- BGEU (R236). -/
def execBgeu (o : BitVec 14) (t x : Reg) (s : State) : Host.Outcome State Fault Refusal :=
  s.branch (.bgeu o t x) x t (o.signExtend 32) fun a b => !a.ult b

/-- Compact BEQZ: BEQ a, s0, off (R200). -/
def execBeqz (a : Reg) (o : BitVec 5) (s : State) : Host.Outcome State Fault Refusal :=
  s.branch (.beqz a o) a 0 (o.signExtend 32) (· == ·)

/-- Compact BNEZ: BNE a, s0, off (R200). -/
def execBnez (a : Reg) (o : BitVec 5) (s : State) : Host.Outcome State Fault Refusal :=
  s.branch (.bnez a o) a 0 (o.signExtend 32) (· != ·)

/-- JAL (R237). -/
def execJal (d : Reg) (imm : BitVec 19) (s : State) : Host.Outcome State Fault Refusal :=
  s.issue (.jal d imm) {} fun s => s.transfer (s.pcWord + imm.signExtend 32) (some (d, s.pcWord + 2))

/-- JALR (R237). -/
def execJalr (d a : Reg) (imm : BitVec 14) (s : State) : Host.Outcome State Fault Refusal :=
  s.issue (.jalr d a imm) { reads := [a] } fun s => s.transfer (s.sr a + imm.signExtend 32) (some (d, s.pcWord + 2))

/-- Compact JR: JALR s0, a, 0 (R200). -/
def execJr (a : Reg) (s : State) : Host.Outcome State Fault Refusal :=
  s.issue (.jr a) { reads := [a] } fun s => s.transfer (s.sr a) none

/- Hardware loops. -/

/-- The opening of a loop of count n and body length len (R239). A count of 0 skips the body as a transfer to its end does; where that end is the
store's, the instruction completes with the fetch-range fault whatever loops are open (R352). -/
def State.openLoop (s : State) (n : Word) (len : Nat) (k : Bool) : Res :=
  let start := s.tile.core.cur.pc.toNat + 2
  let stop := start + len
  let ls := s.tile.core.cur.loops
  if 0x2000 < stop then .fault { code := 0x04, addr := BitVec.ofNat 32 stop } s
  else if n = 0 ∧ stop = 0x2000 then .fault pastStore s
  else if n = 0 then .goto stop s
  else if 2 ≤ ls.length then .fault { code := 0x05, addr := BitVec.ofNat 32 stop } s
  else match ls with
    | l :: _ =>
      if l.stop < stop then .fault { code := 0x06, addr := BitVec.ofNat 32 stop, info := BitVec.ofNat 32 l.stop } s
      else .goto start { s with tile.core.cur.loops := { start := start, stop := stop, kill := k, left := n - 1 } :: ls }
    | [] => .goto start { s with tile.core.cur.loops := [{ start := start, stop := stop, kill := k, left := n - 1 }] }

/-- LOOP (R239). -/
def execLoop (a : Reg) (l : BitVec 14) (k : BitVec 1) (s : State) : Host.Outcome State Fault Refusal :=
  s.issue (.loop a l k) { reads := [a] } fun s => s.openLoop (s.sr a) l.toNat (k == 1)

/-- LOOPI (R239). -/
def execLoopi (c : BitVec 12) (l : BitVec 7) (k : BitVec 1) (s : State) : Host.Outcome State Fault Refusal :=
  s.issue (.loopi c l k) {} fun s => s.openLoop (c.setWidth 32) l.toNat (k == 1)

/- Ending, yielding and checking work. -/

/-- DONE (R242). -/
def State.doDone (s : State) : Res := .stay (if s.urgent then s.urgentDone else s.endTask .idle)

/-- DONE.G (R243): one more on the gang's reduction tree (R56), and the residency is Finished. -/
def State.doDoneG (s : State) : Res :=
  .stay ((s.updCarrel s.tile.id.carrel.toNat fun c => c.updGang s.tile.id.gang.toNat fun g => { g with count := g.count + 1 }).endTask
    .finished)

/-- YIELD (R244); the scope check reads the record's second word (R346). -/
def State.doYield (s : State) : Res :=
  match s.urgent, s.tile.core.cur.work with
  | false, .task a =>
    let s := s.drained
    let sc := s.tile.recScope a.toNat
    let pr := s.tile.core.cur.prio
    match s.tile.view.badWord (a.toNat + 8) 8 with
    | some w => .fault (s.tile.view.badFault w 0) s
    | none =>
    if s.coveredBy sc then .stay (s.endTask .idle)
    else if s.tile.canPush pr then
      .stay (({ s with tile := s.tile.push { work := .task a, prio := pr, scope := sc } }).endTask .idle)
    else .fault { overflowFault a pr false true with agent := 0 } s
  | _, _ => s.doDone

/-- CANCELCHK (R245). -/
def State.doCancelchk (s : State) : Res := if s.workCovered then .stay s.killCovered else .done s

/-- NOP (R246). -/
def execNop (s : State) : Host.Outcome State Fault Refusal := s.issue .nop {} .done

/-- DONE (R242). -/
def execDone (s : State) : Host.Outcome State Fault Refusal := s.issue .done {} State.doDone

/-- DONE.G (R243). -/
def execDoneG (s : State) : Host.Outcome State Fault Refusal := s.issue .doneG { forbidden := true } State.doDoneG

/-- YIELD (R244). -/
def execYield (s : State) : Host.Outcome State Fault Refusal := s.issue .yield {} State.doYield

/-- CANCELCHK (R245). -/
def execCancelchk (s : State) : Host.Outcome State Fault Refusal := s.issue .cancelchk {} State.doCancelchk

/-- Compact NOP (R200). -/
def execNopCompact (s : State) : Host.Outcome State Fault Refusal := s.issue .nopCompact {} .done

/-- Compact DONE (R200). -/
def execDoneCompact (s : State) : Host.Outcome State Fault Refusal := s.issue .doneCompact {} State.doDone

/-- Compact DONE.G (R200). -/
def execDoneGCompact (s : State) : Host.Outcome State Fault Refusal := s.issue .doneGCompact { forbidden := true } State.doDoneG

/-- Compact CANCELCHK (R200). -/
def execCancelchkCompact (s : State) : Host.Outcome State Fault Refusal := s.issue .cancelchkCompact {} State.doCancelchk

/-- MASK (R53): opens a window at the normal level; nothing at the urgent level or with a window open. -/
def execMask (s : State) : Host.Outcome State Fault Refusal :=
  s.issue .mask {} fun s =>
    .done (if s.urgent || s.tile.core.mask.isSome then s
      else { s with tile := { s.tile with core.mask := some 0, core.maskPages := [] } })

/-- UNMASK (R53). -/
def execUnmask (s : State) : Host.Outcome State Fault Refusal :=
  s.issue .unmask {} fun s =>
    .done (if s.urgent then s else { s with tile := { s.tile with core.mask := none, core.maskPages := [] } })

/-- SLEEP (R247): completes when the event latch meets the mask, and clears the bits of the mask that are set. -/
def execSleep (m : BitVec 14) (s : State) : Host.Outcome State Fault Refusal :=
  s.issue (.sleep m) { forbidden := true } fun s =>
    let x := s.tile.core.latch &&& m.setWidth 8
    if x = 0 then .wait 15 0 s else .done { s with tile.core.latch := s.tile.core.latch &&& ~~~x }

/-- FENCE of a scope (R126, R248). -/
def execFence (x : BitVec 2) (s : State) : Host.Outcome State Fault Refusal :=
  s.issue (.fence x) { forbidden := true } fun s => if s.released x.toNat then .done s else .wait 15 0 s

/- Control registers and traps. -/

/-- The fault of a control-register number (R351): one that R207 does not list, or a steward's register outside steward mode. -/
def State.ctlFault (s : State) (i : Instr) (n : Nat) (write : Bool) : Option FaultRec :=
  if !ctlListed n then some { code := 0x03, addr := s.pcWord, info := BitVec.ofNat 32 (n + if write then 128 else 0) }
  else if ctlSteward n && !s.onSteward then some { code := 0x02, addr := s.pcWord, info := instrWord i }
  else none

/-- MFC (R249): c.time also latches c.timeh (R168). -/
def execMfc (d : Reg) (n : BitVec 7) (s : State) : Host.Outcome State Fault Refusal :=
  s.issue (.mfc d n) { early := s.ctlFault (.mfc d n) n.toNat false } fun s =>
    if n.toNat = 0x18 then
      let (x, s) := s.readTime
      .done (s.setS d x)
    else .done (s.setS d (s.ctl n.toNat))

/-- MTC (R249). -/
def execMtc (a : Reg) (n : BitVec 7) (s : State) : Host.Outcome State Fault Refusal :=
  s.issue (.mtc a n) { early := s.ctlFault (.mtc a n) n.toNat true, reads := [a] } fun s => .done (s.setCtl n.toNat (s.sr a))

/-- TRAP (R250): the software trap; on a steward tile a steward exception with the return address after it (R252, R365). -/
def execTrap (c : BitVec 14) (s : State) : Host.Outcome State Fault Refusal :=
  s.issue (.trap c) {} fun s =>
    if s.onSteward then
      .stay (s.stewardFault { cause := BitVec.ofNat 16 (0x90 + 256 * (c.toNat % 256)), addr := 0, info := c.setWidth 32,
                              next := some (s.tile.core.cur.pc + 2) })
    else .fault { code := 0x90, info := c.setWidth 32 } s

end Sys2Proof.Machine
end

