-- ==== Sys2Proof/Machine/Vector.lean ====
section
/-!
DEFINITION. The vector unit (R271 to R282): lanes, floating-point and packed integer arithmetic, compares, permutations, reductions and
register shaping. RQACC stands with the receive queue.
-/

namespace Sys2Proof.Machine

/- Lanes (R206). -/

/-- Lane j of width w. -/
def laneN (x : VWord) (w j : Nat) : Nat := x.toNat / 2 ^ (w * j) % 2 ^ w

/-- A register from its lanes of width w, lane 0 first. -/
def joinLanes (w : Nat) : List Nat → Nat
  | [] => 0
  | x :: xs => x % 2 ^ w + 2 ^ w * joinLanes w xs

/-- A register whose lane j of width w is f j, with the flags of every lane. -/
def lanesF (w : Nat) (f : Nat → Nat × Flags) : VWord × Flags :=
  let ls := (List.range (128 / w)).map f
  (BitVec.ofNat 128 (joinLanes w (ls.map (·.1))), ls.foldl (fun a x => a ||| x.2) 0)

/-- The same without flags. -/
def lanes (w : Nat) (f : Nat → Nat) : VWord := BitVec.ofNat 128 (joinLanes w ((List.range (128 / w)).map f))

/-- The V format codes (R210): 0 FP32, 1 BF16, 2 FP16. -/
def vecFmt (f : BitVec 2) : Fmt := match f.toNat with
  | 0 => Fmt.fp32
  | 1 => Fmt.bf16
  | _ => Fmt.fp16

/-- The width codes (R210): 8, 16 or 32 bits. -/
def vecWidth (w : BitVec 2) : Nat := 8 * 2 ^ w.toNat

/- The shared operation (R271). -/

/-- A vector instruction that reads scalars and v registers and writes v_d: nothing is written in stream mode, sources are popped in
order, and the flags of every lane are ORed into c.tstat. -/
def State.vec (s : State) (i : Instr) (reads : List Reg) (d : Reg) (vs : List Reg) (f : State → List VWord → VWord × Flags) :
    Host.Outcome State Fault Refusal :=
  s.issue i { reads := reads, illegal := s.streamUse [d] } fun s => s.writable d (s.readVs vs fun xs s =>
    let (r, fl) := f s xs
    .done ((s.setV d r).orFlags fl))

/-- Without scalars. -/
def State.vecOp (s : State) (i : Instr) (d : Reg) (vs : List Reg) (f : List VWord → VWord × Flags) : Host.Outcome State Fault Refusal :=
  s.vec i [] d vs fun _ xs => f xs

/-- A lanewise floating-point operation of two sources (R272, R273). -/
def State.vecF2 (s : State) (i : Instr) (d a b : Reg) (f : Fmt) (g : Nat → Nat → Nat × Flags) : Host.Outcome State Fault Refusal :=
  s.vecOp i d [a, b] fun xs => lanesF f.width fun j => g (laneN (xs.getD 0 0) f.width j) (laneN (xs.getD 1 0) f.width j)

/-- A lanewise integer operation of two sources (R274). -/
def State.vecI2 (s : State) (i : Instr) (d a b : Reg) (w : Nat) (g : Nat → Nat → Nat) : Host.Outcome State Fault Refusal :=
  s.vecOp i d [a, b] fun xs => (lanes w fun j => g (laneN (xs.getD 0 0) w j) (laneN (xs.getD 1 0) w j), 0)

/- Floating point. -/

/-- VADD of a floating-point type (R272). -/
def execVaddF (d a b : Reg) (f r : BitVec 2) (s : State) : Host.Outcome State Fault Refusal :=
  s.vecF2 (.vaddF d a b f r) d a b (vecFmt f) ((vecFmt f).add (Mode.ofRm r))

/-- VSUB of a floating-point type (R272). -/
def execVsubF (d a b : Reg) (f r : BitVec 2) (s : State) : Host.Outcome State Fault Refusal :=
  s.vecF2 (.vsubF d a b f r) d a b (vecFmt f) ((vecFmt f).sub (Mode.ofRm r))

/-- VMUL of a floating-point type (R272). -/
def execVmulF (d a b : Reg) (f r : BitVec 2) (s : State) : Host.Outcome State Fault Refusal :=
  s.vecF2 (.vmulF d a b f r) d a b (vecFmt f) ((vecFmt f).mul (Mode.ofRm r))

/-- VFMA (R272). -/
def execVfma (d a b c : Reg) (f r : BitVec 2) (s : State) : Host.Outcome State Fault Refusal :=
  s.vecOp (.vfma d a b c f r) d [a, b, c] fun xs =>
    let w := (vecFmt f).width
    lanesF w fun j => (vecFmt f).fma (Mode.ofRm r) (laneN (xs.getD 0 0) w j) (laneN (xs.getD 1 0) w j) (laneN (xs.getD 2 0) w j)

/-- VMIN (R273). -/
def execVmin (d a b : Reg) (f : BitVec 2) (s : State) : Host.Outcome State Fault Refusal :=
  s.vecF2 (.vmin d a b f) d a b (vecFmt f) ((vecFmt f).minMax false)

/-- VMAX (R273). -/
def execVmax (d a b : Reg) (f : BitVec 2) (s : State) : Host.Outcome State Fault Refusal :=
  s.vecF2 (.vmax d a b f) d a b (vecFmt f) ((vecFmt f).minMax true)

/-- The lanes of one source with a sign operation (R273). -/
def signLanes (f : Fmt) (abs : Bool) (x : VWord) : VWord × Flags := lanesF f.width fun j => f.signOp abs (laneN x f.width j)

/-- VABS (R273). -/
def execVabs (d a : Reg) (f : BitVec 2) (s : State) : Host.Outcome State Fault Refusal :=
  s.vecOp (.vabs d a f) d [a] fun xs => signLanes (vecFmt f) true (xs.getD 0 0)

/-- VNEG (R273). -/
def execVneg (d a : Reg) (f : BitVec 2) (s : State) : Host.Outcome State Fault Refusal :=
  s.vecOp (.vneg d a f) d [a] fun xs => signLanes (vecFmt f) false (xs.getD 0 0)

/- Packed integers (R274). -/

/-- The signed value of a w-bit lane, and the lane of an integer. -/
def sgnLane (w x : Nat) : Int := (BitVec.ofNat w x).toInt
def toLane (w : Nat) (x : Int) : Nat := (x % (2 ^ w : Nat)).toNat

/-- The clamp of a w-bit lane. -/
def clampLane (w : Nat) (x : Int) : Nat := toLane w (clampInt x (-(2 ^ (w - 1) : Nat)) ((2 ^ (w - 1) : Nat) - 1))

/-- VSRA of a lane: all ones or 0 past the width. -/
def sraLane (w x n : Nat) : Nat := toLane w (sgnLane w x / 2 ^ (min n w))

/-- VADD of an integer type (R274). -/
def execVaddI (d a b : Reg) (w : BitVec 2) (s : State) : Host.Outcome State Fault Refusal :=
  s.vecI2 (.vaddI d a b w) d a b (vecWidth w) fun x y => (x + y) % 2 ^ vecWidth w

/-- VSUB of an integer type (R274). -/
def execVsubI (d a b : Reg) (w : BitVec 2) (s : State) : Host.Outcome State Fault Refusal :=
  s.vecI2 (.vsubI d a b w) d a b (vecWidth w) fun x y => toLane (vecWidth w) ((x : Int) - y)

/-- VADDS (R274). -/
def execVadds (d a b : Reg) (w : BitVec 2) (s : State) : Host.Outcome State Fault Refusal :=
  s.vecI2 (.vadds d a b w) d a b (vecWidth w) fun x y => clampLane (vecWidth w) (sgnLane (vecWidth w) x + sgnLane (vecWidth w) y)

/-- VSUBS (R274). -/
def execVsubs (d a b : Reg) (w : BitVec 2) (s : State) : Host.Outcome State Fault Refusal :=
  s.vecI2 (.vsubs d a b w) d a b (vecWidth w) fun x y => clampLane (vecWidth w) (sgnLane (vecWidth w) x - sgnLane (vecWidth w) y)

/-- VMUL of an integer type (R274). -/
def execVmulI (d a b : Reg) (w : BitVec 2) (s : State) : Host.Outcome State Fault Refusal :=
  s.vecI2 (.vmulI d a b w) d a b (vecWidth w) fun x y => x * y % 2 ^ vecWidth w

/-- VMULH (R274). -/
def execVmulh (d a b : Reg) (w : BitVec 2) (s : State) : Host.Outcome State Fault Refusal :=
  s.vecI2 (.vmulh d a b w) d a b (vecWidth w) fun x y => toLane (vecWidth w) (sgnLane (vecWidth w) x * sgnLane (vecWidth w) y / 2 ^ vecWidth w)

/-- VMULHU (R274). -/
def execVmulhu (d a b : Reg) (w : BitVec 2) (s : State) : Host.Outcome State Fault Refusal :=
  s.vecI2 (.vmulhu d a b w) d a b (vecWidth w) fun x y => x * y / 2 ^ vecWidth w

/-- VSHL (R274). -/
def execVshl (d a b : Reg) (w : BitVec 2) (s : State) : Host.Outcome State Fault Refusal :=
  s.vecI2 (.vshl d a b w) d a b (vecWidth w) fun x n => if n < vecWidth w then x * 2 ^ n % 2 ^ vecWidth w else 0

/-- VSHR (R274). -/
def execVshr (d a b : Reg) (w : BitVec 2) (s : State) : Host.Outcome State Fault Refusal :=
  s.vecI2 (.vshr d a b w) d a b (vecWidth w) fun x n => if n < vecWidth w then x / 2 ^ n else 0

/-- VSRA (R274). -/
def execVsra (d a b : Reg) (w : BitVec 2) (s : State) : Host.Outcome State Fault Refusal :=
  s.vecI2 (.vsra d a b w) d a b (vecWidth w) fun x n => sraLane (vecWidth w) x n

/-- VROT (R274). -/
def execVrot (d a b : Reg) (w : BitVec 2) (s : State) : Host.Outcome State Fault Refusal :=
  s.vecI2 (.vrot d a b w) d a b (vecWidth w) fun x n => ((BitVec.ofNat (vecWidth w) x).rotateLeft (n % vecWidth w)).toNat

/- Compares, selection and permutation. -/

/-- A comparison of integer lanes (R275): 0 EQ, 1 LT, 2 LE, 3 LTU. -/
def cmpInt (w p x y : Nat) : Bool := match p with
  | 0 => x == y
  | 1 => decide (sgnLane w x < sgnLane w y)
  | 2 => decide (sgnLane w x ≤ sgnLane w y)
  | _ => decide (x < y)

/-- The mask of a comparison of a type of R275, and its flags. -/
def vecCompare (t p : BitVec 2) (x y : VWord) : BitVec 16 × Flags :=
  let w := if t = 3 then 32 else vecWidth t
  let rs := (List.range (128 / w)).map fun j =>
    if t = 3 then Fmt.fp32.compare p.toNat (laneN x w j) (laneN y w j) else (cmpInt w p.toNat (laneN x w j) (laneN y w j), 0)
  (BitVec.ofNat 16 (joinLanes 1 (rs.map fun r => if r.1 then 1 else 0)), rs.foldl (fun a r => a ||| r.2) 0)

/-- VCMP (R275). -/
def execVcmp (d a b : Reg) (t p : BitVec 2) (s : State) : Host.Outcome State Fault Refusal :=
  s.issue (.vcmp d a b t p) {} fun s => s.readVs [a, b] fun xs s =>
    let (m, fl) := vecCompare t p (xs.getD 0 0) (xs.getD 1 0)
    .done ((s.setK d m).orFlags fl)

/-- VSEL (R276). -/
def execVsel (d a b c : Reg) (w : BitVec 2) (s : State) : Host.Outcome State Fault Refusal :=
  s.vec (.vsel d a b c w) [] d [a, b] fun s xs =>
    (lanes (vecWidth w) fun j => laneN (if (s.kr c).getLsbD j then xs.getD 0 0 else xs.getD 1 0) (vecWidth w) j, 0)

/-- VSHUF (R277). -/
def execVshuf (d a b c : Reg) (w : BitVec 2) (s : State) : Host.Outcome State Fault Refusal :=
  s.vecOp (.vshuf d a b c w) d [a, b, c] fun xs =>
    let n := 128 / vecWidth w
    (lanes (vecWidth w) fun j =>
      let i := laneN (xs.getD 1 0) (vecWidth w) j
      if i < n then laneN (xs.getD 0 0) (vecWidth w) i
      else if i < 2 * n then laneN (xs.getD 2 0) (vecWidth w) (i - n) else 0, 0)

/- Reductions. -/

/-- The reduction of R278 of four 32-bit lanes, in its fixed order. -/
def vecReduce (k : Nat) (mode : Mode) (x0 x1 x2 x3 : Nat) : Nat × Flags :=
  match k with
  | 0 =>
    let (p, f1) := Fmt.fp32.add mode x0 x1
    let (q, f2) := Fmt.fp32.add mode x2 x3
    let (r, f3) := Fmt.fp32.add mode p q
    (r, f1 ||| f2 ||| f3)
  | 1 => ((x0 + x1 + x2 + x3) % 2 ^ 32, 0)
  | 2 => ([x1, x2, x3].foldl (fun r x => clampLane 32 (sgnLane 32 r + sgnLane 32 x)) x0, 0)
  | _ =>
    let (p, f1) := Fmt.fp32.minMax true x0 x1
    let (q, f2) := Fmt.fp32.minMax true p x2
    let (r, f3) := Fmt.fp32.minMax true q x3
    (r, f1 ||| f2 ||| f3)

/-- VRED (R278): the result in lane 0, the other lanes 0. -/
def execVred (d a : Reg) (k r : BitVec 2) (s : State) : Host.Outcome State Fault Refusal :=
  s.vecOp (.vred d a k r) d [a] fun xs =>
    let x := xs.getD 0 0
    let (y, fl) := vecReduce k.toNat (Mode.ofRm r) (laneN x 32 0) (laneN x 32 1) (laneN x 32 2) (laneN x 32 3)
    (BitVec.ofNat 128 y, fl)

/-- The magnitude of a value of a format in FP32, exactly (R279). -/
def magnitude (f : Fmt) (x : Nat) : Nat := (Fmt.convert f Fmt.fp32 .rne (f.value x)).1 % 2 ^ 31

/-- The amax of R279: the lanes of a, then lane 0 of b, with the first NaN quieted. -/
def vecAmax (f : Fmt) (x y : VWord) : Nat × Flags :=
  let xs := (List.range (128 / f.width)).map fun j => laneN x f.width j
  let b := laneN y 32 0
  let sn := xs.foldl (fun a v => a ||| f.snanFlag (f.value v)) (Fmt.fp32.snanFlag (Fmt.fp32.value b))
  match xs.find? fun v => (f.value v).isNaN with
  | some v => ((Fmt.convert f Fmt.fp32 .rne (f.value v)).1, sn)
  | none =>
    match Fmt.fp32.value b with
    | .nan n fr => (Fmt.fp32.nanFrom Fmt.fp32 n fr, sn)
    | _ => ((xs.map (magnitude f)).foldl Nat.max (b % 2 ^ 31), sn)

/-- VAMAX (R279): in every lane of v_d. -/
def execVamax (d a b : Reg) (f : BitVec 2) (s : State) : Host.Outcome State Fault Refusal :=
  s.vecOp (.vamax d a b f) d [a, b] fun xs =>
    let (y, fl) := vecAmax (vecFmt f) (xs.getD 0 0) (xs.getD 1 0)
    (lanes 32 fun _ => y, fl)

/- Bitwise and register shaping. -/

/-- VLUT3 (R281). -/
def execVlut3 (d a b : Reg) (t : BitVec 8) (s : State) : Host.Outcome State Fault Refusal :=
  s.vecOp (.vlut3 d a b t) d [a, b, d] fun xs => (lut3Bits t (xs.getD 0 0) (xs.getD 1 0) (xs.getD 2 0), 0)

/-- VMOV (R282). -/
def execVmov (d a : Reg) (s : State) : Host.Outcome State Fault Refusal := s.vecOp (.vmov d a) d [a] fun xs => (xs.getD 0 0, 0)

/-- VBCAST (R282). -/
def execVbcast (d a : Reg) (s : State) : Host.Outcome State Fault Refusal :=
  s.vec (.vbcast d a) [a] d [] fun s _ => (fillRow (s.sr a), 0)

/-- VEXT (R282): b is a literal lane. -/
def execVext (d a b : Reg) (s : State) : Host.Outcome State Fault Refusal :=
  s.issue (.vext d a b) {} fun s => s.readVs [a] fun xs s => .done (s.setS d (BitVec.ofNat 32 (laneN (xs.getD 0 0) 32 b.toNat)))

/-- VINS (R282): b is a literal lane. -/
def execVins (d a b : Reg) (s : State) : Host.Outcome State Fault Refusal :=
  s.vec (.vins d a b) [a] d [d] fun s xs => (lanes 32 fun j => if j = b.toNat then (s.sr a).toNat else laneN (xs.getD 0 0) 32 j, 0)

/-- KSET (R282). -/
def execKset (d a : Reg) (s : State) : Host.Outcome State Fault Refusal :=
  s.issue (.kset d a) { reads := [a] } fun s => .done (s.setK d ((s.sr a).setWidth 16))

/-- KGET (R282). -/
def execKget (d a : Reg) (s : State) : Host.Outcome State Fault Refusal :=
  s.issue (.kget d a) {} fun s => .done (s.setS d ((s.kr a).setWidth 32))

end Sys2Proof.Machine
end

