-- ==== Sys2Proof/Machine/Convert.lean ====
section
/-!
DEFINITION. Conversions between number formats (R283, R284) and the packing of blocks (R285 to R287).
-/

namespace Sys2Proof.Machine

/- CVT. -/

/-- A format of CVT (R211): a floating-point format, or a signed integer of some bits. -/
inductive CvtFmt where
  | fp (f : Fmt)
  | int (w : Nat)
deriving DecidableEq, Repr

/-- The format codes of R211. -/
def CvtFmt.ofCode (c : BitVec 4) : CvtFmt := match c.toNat with
  | 0 => .fp Fmt.fp32
  | 1 => .fp Fmt.fp16
  | 2 => .fp Fmt.bf16
  | 3 => .fp Fmt.e4m3
  | 4 => .fp Fmt.e5m2
  | 5 => .int 8
  | 6 => .int 16
  | _ => .int 32

def CvtFmt.width : CvtFmt → Nat
  | .fp f => f.width
  | .int w => w

/-- E4M3 and E5M2, on whose side the scale exponent acts (R102). -/
def CvtFmt.fp8 : CvtFmt → Bool
  | .fp f => f.width == 8
  | .int _ => false

/-- The exact value of a lane (R99, R96). -/
def CvtFmt.value (c : CvtFmt) (x : Nat) : FVal := match c with
  | .fp f => f.value x
  | .int w => .fin (decide (sgnLane w x < 0)) (sgnLane w x).natAbs 0

/-- One lane converted (R100 to R102). -/
def cvtLane (src dst : CvtFmt) (sc : Int) (mode : Mode) (x : Nat) : Nat × Flags :=
  let v := src.value x
  let v := if src.fp8 then v.scale sc else v
  let v := if dst.fp8 then v.scale (-sc) else v
  match dst with
  | .int w => toIntW w mode v
  | .fp f => Fmt.convert (match src with | .fp g => g | .int _ => f) f mode v

/-- The register that CVT writes (R283): the lanes of part p converted, the others kept; `adv` holds one advance per converted lane. -/
def cvtReg (src dst : CvtFmt) (sc : Int) (p : Nat) (mode : Mode) (adv : List Word) (x y : VWord) : VWord × Flags :=
  let wf := src.width
  let wt := dst.width
  let n := 128 / Nat.max wf wt
  let q := Nat.max wf wt / Nat.min wf wt
  let p := p % q
  let rs := (List.range n).map fun j => cvtLane src dst sc (modeAt mode adv j) (laneN x wf (if wf < wt then p * n + j else j))
  let off := if wt < wf then p * n else 0
  (lanes wt fun k => if off ≤ k ∧ k < off + n then (rs.getD (k - off) (0, 0)).1 else laneN y wt k,
   rs.foldl (fun a r => a ||| r.2) 0)

/-- CVT with a mode, or stochastic (R98: one advance per converted lane). -/
def State.cvt (s : State) (i : Instr) (d a b : Reg) (f t : BitVec 4) (mode : Mode) (sr : Bool) : Host.Outcome State Fault Refusal :=
  let src := CvtFmt.ofCode f
  let dst := CvtFmt.ofCode t
  s.issue i { reads := [b], illegal := s.streamUse [d] } fun s => s.writable d (s.readVs [a, d] fun xs s =>
    let k := s.sr b
    let n := if sr then 128 / Nat.max src.width dst.width else 0
    let (adv, seed) := advances n s.tile.core.seed
    let (r, fl) := cvtReg src dst (k.setWidth 8).toInt (k.toNat / 256 % 4) (if sr then .sr 0 else mode) adv (xs.getD 0 0) (xs.getD 1 0)
    .done (({ s with tile.core.seed := seed }.setV d r).orFlags fl))

/-- CVT rounding to nearest even, or stochastically with sr = 1 (R283). -/
def execCvtRne (d a b : Reg) (x : BitVec 1) (f t : BitVec 4) (s : State) : Host.Outcome State Fault Refusal :=
  s.cvt (.cvtRne d a b x f t) d a b f t .rne (x == 1)

/-- CVT rounding toward zero (R283). -/
def execCvtRtz (d a b : Reg) (f t : BitVec 4) (s : State) : Host.Outcome State Fault Refusal :=
  s.cvt (.cvtRtz d a b f t) d a b f t .rtz false

/-- CVT rounding down (R283). -/
def execCvtRdn (d a b : Reg) (f t : BitVec 4) (s : State) : Host.Outcome State Fault Refusal :=
  s.cvt (.cvtRdn d a b f t) d a b f t .rdn false

/-- CVT rounding up (R283). -/
def execCvtRup (d a b : Reg) (f t : BitVec 4) (s : State) : Host.Outcome State Fault Refusal :=
  s.cvt (.cvtRup d a b f t) d a b f t .rup false

/-- CVTS (R103, R284). -/
def execCvts (d a b : Reg) (f : BitVec 1) (s : State) : Host.Outcome State Fault Refusal :=
  s.issue (.cvts d a b f) { reads := [b] } fun s => s.readVs [a] fun xs s =>
    let (k, fl) := computeScale (laneN (xs.getD 0 0) 32 0) (if f = 0 then Fmt.e4m3 else Fmt.e5m2) ((s.sr b).setWidth 8).toInt
    .done ((s.setS d (BitVec.ofInt 32 k)).orFlags fl)

/- Blocks. -/

/-- The 32 element values of a format in a number of 32 elements. -/
def elemVals (f : Fmt) (m : Nat) : List FVal := (List.range 32).map fun i => f.value (m / 2 ^ (f.width * i) % 2 ^ f.width)

/-- The mode of BKPACK and BKUNPACK: sr makes rm ignored (R287). -/
def bkMode (x : BitVec 1) (r : BitVec 2) : Mode := if x = 1 then .sr 0 else Mode.ofRm r

/-- The checks of the three addresses of R285 and R286, in the order of R353: a, b, then the register after b. -/
def State.bkAligned (s : State) (a b : Reg) (k : Res) : Res :=
  let p := s.sr a
  let q := s.sr b
  let r := s.sr (b + 1)
  s.need (p.toNat % 16 == 0) (alignFault p 16) (s.need (q.toNat % 8 == 0) (alignFault q 8) (s.need (r.toNat % 4 == 0) (alignFault r 4) k))

/-- BKPACK (R285). -/
def execBkpack (d a b : Reg) (x : BitVec 1) (r k e : BitVec 2) (s : State) : Host.Outcome State Fault Refusal :=
  s.issue (.bkpack d a b x r k e) { reads := [a, b, b + 1] } fun s =>
    let f := vecFmt e
    let bf := BkFmt.ofCode k.toNat
    let src := (s.sr a).toNat
    let dat := (s.sr b).toNat
    let sid := (s.sr (b + 1)).toNat
    let n := 4 * f.width
    s.bkAligned a b (s.access [(src, n, false, true), (dat, bf.bytes, true, false), (sid, 4, true, false)] fun s =>
      let (adv, seed) := advances 32 s.tile.core.seed
      let o := bkEncode bf f (elemVals f (s.loadN src n)) (bkMode x r) adv
      let s := if x = 1 && o.took then { s with tile.core.seed := seed } else s
      let s := (s.storeWords dat bf.bytes o.data).storeN sid 4 o.side.toNat
      .done ((s.setS d o.side).orFlags o.flags))

/-- BKUNPACK (R286). With sr every element takes its advance, those of overrange and error blocks too (log entry 58). -/
def execBkunpack (d a b : Reg) (x : BitVec 1) (r k e : BitVec 2) (s : State) : Host.Outcome State Fault Refusal :=
  s.issue (.bkunpack d a b x r k e) { reads := [a, b, b + 1] } fun s =>
    let f := vecFmt e
    let bf := BkFmt.ofCode k.toNat
    let dst := (s.sr a).toNat
    let dat := (s.sr b).toNat
    let sid := (s.sr (b + 1)).toNat
    let n := 4 * f.width
    s.bkAligned a b (s.access [(sid, 4, false, true), (dat, bf.bytes, false, true), (dst, n, true, false)] fun s =>
      let side := BitVec.ofNat 32 (s.loadN sid 4)
      let m := s.loadN dat bf.bytes
      let (adv, seed) := advances (if x = 1 then 32 else 0) s.tile.core.seed
      let rs := (List.range 32).map fun i => f.ofX (modeAt (bkMode x r) adv i) (bkDecode bf m side i)
      let s := { s with tile.core.seed := seed }
      let s := s.storeWords dst n (joinLanes f.width (rs.map (·.1)))
      .done ((s.setS d side).orFlags (rs.foldl (fun a r => a ||| r.2) 0)))

end Sys2Proof.Machine
end

