-- ==== Sys2Proof/Machine/Links.lean ====
section
/-!
DEFINITION. The steps of routers (R139 to R145, R149, R390) and of links (R141, R143, R385, R386, R389).
-/

namespace Sys2Proof.Machine

/- Routers. -/

/-- A router that has raised its event in this frame (R384). -/
def routerKey (p : Phys) : Nat := frameKey + 1 + p.operand.toNat

/-- Discarded flits are reported once a frame, and counted until then (R384, R390): 0xE1 for reserved headers (`why` 0) and ownership (1), 0xE6
at a router that is off (2); ownership is posted to the host too. -/
def State.report (s : State) (why : Nat) : State :=
  let p := s.tile.phys
  let r := s.tile.router
  let n := (match why with
    | 0 => r.reserved
    | 1 => r.ownership
    | _ => r.stray) + 1
  let set (x : Nat) : State := { s with tile := { s.tile with router := match why with
    | 0 => { r with reserved := x }
    | 1 => { r with ownership := x }
    | _ => { r with stray := x } } }
  if s.fld.did.contains (routerKey p) then set n
  else
    let s := (set 0).updFld fun f => { f with did := routerKey p :: f.did }
    let s := s.stewardEvent p.field (if why = 2 then 0xE6 else 0xE1 + 256 * why) p.operand (BitVec.ofNat 32 (min n 0xFFFF))
    if why = 1 then s.notifyField p.field 0x7F 0 (BitVec.ofNat 32 (p.operand.toNat + 2 ^ 22 * min n 1023)) else s

/-- A flit is discarded at the router in focus (R142, R145, R390). -/
def State.discard (s : State) (why : Nat) (x : Flit) : State := (s.report why).flitEnds x.msg true

/-- Two flits stand in one buffer: an input has one for each virtual channel, and four for transit (R139). -/
def sameBuf (x y : Dir × Flit) : Bool := x.1 == y.1 && x.2.hdr.vc == y.2.hdr.vc && x.2.hdr.lane == y.2.hdr.lane

/-- The heads of the buffers. -/
def heads : List (Dir × Flit) → List (Dir × Flit)
  | [] => []
  | x :: xs => x :: (heads xs).filter fun y => !sameBuf x y

/-- The first flit of a buffer has come to its head at `clk`. -/
def retop (b : Dir × Flit) (clk : Nat) : List (Dir × Flit) → List (Dir × Flit)
  | [] => []
  | x :: xs => if sameBuf b x then (x.1, { x.2 with since := clk }) :: xs else x :: retop b clk xs

def Tile.pushFlit (t : Tile) (d : Dir) (x : Flit) (clk : Nat) : Tile := { t with router.bufs := t.router.bufs ++ [(d, { x with since := clk })] }
def Tile.popFlit (t : Tile) (x : Dir × Flit) (clk : Nat) : Tile := { t with router.bufs := retop x clk (t.router.bufs.erase x) }

/-- The clk of a router's field. -/
def State.clkAt (s : State) (t : Tile) : Nat := (s.fieldAt t.phys.field).clk

/-- The router in focus has a flit (R142, R145, R390): it is discarded, or kept at its input for its next hop or for the local port. -/
def State.routeFlit (s : State) (d : Dir) (x : Flit) : State :=
  let t := s.tile
  let ok (port : Nat) : Bool := exempt x.hdr || (t.owns 0 x.hdr.carrel && t.owns port x.hdr.carrel)
  let out := match t.hop (home x.hdr.dst) x.hops with
    | some (n, _, _) => ok (n + 1)
    | none => true
  if t.router.off || t.router.dead then s.discard 2 x
  else if reservedHdr x.hdr then s.discard 0 x
  else if (d == .lcl || ok (Dir.code d)) && out then { s with tile := t.pushFlit d x (s.clkAt t) }
  else s.discard 1 x

/-- Flits in a buffer of 8 (R139). -/
def Tile.buffered (t : Tile) (d : Dir) (h : FlitHdr) : Nat := (t.router.bufs.filter fun x => x.1 == d && x.2.hdr.vc == h.vc && x.2.hdr.lane == h.lane).length

/-- A steward's cancel notice (R146). -/
def stewardNotice (p : Packet) : Bool := p.hdr.src == 0xFFFFFFFF && p.body.op == 0x11

/-- The next flit of a message enters the router at which its network interface connects, behind what that interface sends before it there for the same
carrel on the same channel; a steward's cancel notice begins in a control slot (R146). A header of a transit message enters lane `m` when the lane admits it (R149). -/
def State.inject (s : State) : State :=
  match s.inp.pkt.bind fun p => p.way.map (p, ·) with
  | none => s
  | some (p, w) =>
    let w := s.board p w s.inp.m
    let h := p.header w
    let first := s.net.find? fun q => q.hdr.carrel == p.hdr.carrel && q.way.any fun v => v.src == w.src && v.vc == w.vc && decide (v.sent < q.len + 1)
    if (stewardNotice p ∧ w.sent = 0 ∧ s.fld.slot % 16 ≠ 8) ∨ first ≠ some p ∨ home w.src ≠ s.tile.phys ∨ 8 ≤ s.tile.buffered .lcl h ∨ (w.vc = 3 ∧ w.sent = 0 ∧ !s.admits p w w.lane.toNat) then s
    else (s.putPacket p { p with way := some { w with sent := w.sent + 1 } }).routeFlit .lcl { msg := w.id, i := w.sent, hdr := h }

/-- The hold buffer of the tile in focus has no room: direct traffic waits in its channels, but for the control channel (R69). -/
def State.holdFull (s : State) (h : FlitHdr) : Bool :=
  s.tile.net.holding && h.vc != 4 && decide (Config.holdRoom < (s.net.filter fun q => !q.fwd && q.place.map (·.1) == some s.tile.phys).length)

/-- The head of a buffer, at its destination's router, leaves by the local port (R145): to the network interface of the tile, where the tile is its
carrel's, or of a steward, an edge agent or a peer port, where the link check does not concern it. -/
def State.deliver (s : State) : State :=
  let t := s.tile
  match (heads t.router.bufs).find? fun x => x.1 == s.inp.dir && x.2.hdr.vc.toNat == s.inp.n && x.2.hdr.lane.toNat == s.inp.m with
  | none => s
  | some x =>
    let h := x.2.hdr
    let ok := if h.dst.agent then exempt h else t.owns 0 h.carrel || (exempt h && t.phys.steward)
    if (t.hop (home h.dst) x.2.hops).isSome ∨ (ok ∧ !h.dst.agent ∧ s.holdFull h) then s
    else
      let s := { s with tile := t.popFlit x (s.clkAt t) }
      if ok then s.flitEnds x.2.msg false else s.discard 1 x.2

/-- The oldest flit that a link has accepted reaches the router. -/
def State.enter (s : State) (n : Nat) : State :=
  let l := s.tile.router.link n
  match l.accepted with
  | [] => s
  | x :: xs =>
    let s := { s with tile := s.tile.setLink n { l with accepted := xs } }
    if s.under x then s.routeFlit (linkDir n) x else s

/-- ROUTER_FLIT_ARRIVAL (R142 to R145, R149, R390): a flit reaches the router in focus, from link `dir` or from a network interface there, of message `pkt`; or, with
`k` = 1, one leaves by the local port. What is left of a message that has been withdrawn from the fabric goes first. -/
def execRouterFlitArrival (s : State) : Host.Outcome State Fault Refusal :=
  s.become fun s =>
    let s := { s with tile.router.bufs := s.tile.router.bufs.filter fun x => s.under x.2 }
    if s.inp.k = 1 then s.deliver
    else if s.inp.dir = .lcl then s.inject
    else s.enter (Dir.code s.inp.dir - 1)

/- Links. -/

/-- What a link's output sends in a clk: nothing, or a flit with the input that it leaves and the hops that remain to it across the link. -/
abbrev OutFlit := Option (Dir × Flit × List (BitVec 2))

/-- Flits of a channel and lane sent over a link and not yet in the far router's buffers. -/
def crossing (gs : List OutFlit) (h : FlitHdr) : Nat := (gs.filter fun x => x.any fun y => y.2.1.hdr.vc == h.vc && y.2.1.hdr.lane == h.lane).length

/-- No other message holds a channel and lane of a link: flits carry no name of their message, so a message crosses a link as one (R142). -/
def State.lockFree (s : State) (l : Link) (x : Flit) : Bool :=
  match l.locks.find? fun k => k.1 == x.hdr.vc && k.2.1 == x.hdr.lane with
  | none => true
  | some k => k.2.2 == x.msg || (s.onWay k.2.2).isNone

/-- The flits at the heads of a router's buffers whose next hop is link `n`, for which the buffer of tile `q` across the link has room; `g` has been chosen before. -/
def State.waiting (s : State) (n : Nat) (t q : Tile) (g : List OutFlit) : List (Dir × Flit × List (BitVec 2)) :=
  let l := t.router.link n
  let o := q.router.link (linkBack n)
  (heads t.router.bufs).filterMap fun x =>
    let h := x.2.hdr
    match t.hop (home h.dst) x.2.hops with
    | some (m, rest, _) =>
      let full := decide (8 ≤ q.buffered (linkDir (linkBack n)) h + (o.accepted.filter fun y => y.hdr.vc == h.vc && y.hdr.lane == h.lane).length
        + crossing (l.unacked.flatMap (·.flits)) h + crossing g h)
      if m = n ∧ !full ∧ s.lockFree l x.2 then some (x.1, x.2, rest) else none
    | none => none

/-- The flits that the output may serve in clk `c` (R141): one clk in four is transit's, for the owner of the slot, or in control slots the stewards'; in the others
a channel that has waited 64 clk at its head comes first, the lowest number before others, then control, urgent, reply and request. -/
def State.served (s : State) (t : Tile) (c : Nat) (xs : List (Dir × Flit × List (BitVec 2))) : List (Dir × Flit × List (BitVec 2)) :=
  let f := s.fieldAt t.phys.field
  if c % 4 = 3 then
    if f.clkTo (f.slot + 1) ≤ c - f.clk then []
    else xs.filter fun x =>
      let h := x.2.1.hdr
      (h.vc == 3 && f.owns (53 + h.lane.toNat) h.carrel) || (h.vc == 4 && h.stw && f.slot % 16 == 8)
  else
    let of (v : BitVec 3) : List (Dir × Flit × List (BitVec 2)) := xs.filter (·.2.1.hdr.vc == v)
    match ([0, 1, 2, 4] : List (BitVec 3)).find? fun v => (of v).any fun x => decide (x.2.1.since + 64 ≤ c) with
    | some v => of v
    | none => (([4, 2, 1, 0] : List (BitVec 3)).map of).find? (!·.isEmpty) |>.getD []

/-- A flit leaves its buffer for link `n` in clk `c`. -/
def Tile.leave (t : Tile) (n c : Nat) (x : Dir × Flit) : Tile :=
  let t := t.popFlit x c
  let h := x.2.hdr
  let l := t.router.link n
  let ks := l.locks.filter fun k => !(k.1 == h.vc && k.2.1 == h.lane)
  t.setLink n { l with locks := if x.2.i = h.len.toNat then ks else (h.vc, h.lane, x.2.msg) :: ks }

/-- Four clk of a link's output from the clk of its field; of several inputs that may be served, `pref` names one each clk. -/
def State.fillGroup (s : State) (n : Nat) (q : Tile) (pref : List Byte) : Nat → Tile → List OutFlit → Tile × List OutFlit
  | 0, t, g => (t, g)
  | k + 1, t, g =>
    let c := s.clkAt t + g.length
    let xs := s.served t c (s.waiting n t q g)
    match xs[(pref.getD g.length 0).toNat % xs.length]? with
    | none => s.fillGroup n q pref k t (g ++ [none])
    | some x => s.fillGroup n q pref k (t.leave n c (x.1, x.2.1)) (g ++ [some x])

/-- The bits of a flit in a group; an idle flit's are 0. -/
def State.sentBits (s : State) : OutFlit → BitVec 128
  | none => 0
  | some x => match s.onWay x.2.1.msg with
    | none => 0
    | some (p, w) => p.flitBits w x.2.1.i

/-- The 512 payload bits of a group, its first flit lowest. -/
def State.groupBits (s : State) (g : List OutFlit) : BitVec 512 := g.reverse.foldl (fun a x => (a <<< 128) ||| (s.sentBits x).setWidth 512) 0

/-- The groups left when those up to one are acknowledged (R385). -/
def ackGroups (g : BitVec 5) (l : List Group) : List Group := if l.any (·.seq == g) then (l.dropWhile (·.seq ≠ g)).drop 1 else l

/-- Link `n` of the tile in focus sends its next group (R143): at most 16 are kept. -/
def State.sendGroup (s : State) (n : Nat) (q : Tile) : State :=
  let l := s.tile.router.link n
  if s.clkAt s.tile < l.taken ∨ 16 ≤ l.unacked.length ∨ s.tile.router.dead then s
  else
    let (t, g) := s.fillGroup n q s.inp.bytes 4 s.tile []
    if g.all (·.isNone) then s
    else
      let l := t.router.link n
      { s with tile := t.setLink n { l with
          next := l.next + 1, unacked := l.unacked ++ [{ seq := l.next, flits := g, bits := s.groupBits g }], wires := l.wires ++ [l.next],
          taken := s.clkAt s.tile + 4 } }

/-- The group at the head of the wires of the link from tile `q` reaches the tile in focus (R143): with the error `e` over its payload and, above it, its
CRC. It is accepted if its CRC matches and it is the one expected; every other is discarded. An error that the CRC does not show does not occur (log entry 73). -/
def State.takeGroup (s : State) (n : Nat) (q : Phys) (e : BitVec 528) : State :=
  let l := s.tile.router.link n
  let o := (s.tileAt q).router.link (linkBack n)
  match o.wires with
    | [] => s
    | i :: is =>
      let far (o : Link) : State := s.updTile q (·.setLink (linkBack n) { o with wires := is })
      match o.unacked.find? (·.seq = i) with
      | some g =>
        let good := crc16 (g.bits ^^^ e.setWidth 512) == crc16 g.bits ^^^ (e >>> 512).setWidth 16
        if s.tile.router.dead ∨ (good ∧ e ≠ 0) then s
        else if !good ∨ i ≠ l.expect then { far o with tile := s.tile.setLink n { l with bad := true } }
        else
          let got := g.flits.filterMap fun x => x.map fun y => ({ y.2.1 with hops := y.2.2 } : Flit)
          let l := { l with expect := i + 1, bad := false, accepted := l.accepted ++ got }
          { (far { o with unacked := ackGroups i o.unacked, rounds := 0 }) with tile := s.tile.setLink n l }
      | none => far o

/-- LINK_GROUP (R141, R143, R385): on link `n` of the tile in focus, `k` 0 sends a group; 1 receives one, with the error pattern `j`; 2 sends again from the first
group that the far end has discarded. -/
def execLinkGroup (s : State) : Host.Outcome State Fault Refusal :=
  s.become fun s =>
    let n := s.inp.n % 4
    let l := s.tile.router.link n
    match physOver s.tile.phys n with
    | none => s
    | some q =>
      if l.dead then s
      else match s.inp.k with
        | 0 => { s with tile.router.bufs := s.tile.router.bufs.filter fun x => s.under x.2 }.sendGroup n (s.tileAt q)
        | 1 => s.takeGroup n q (BitVec.ofNat 528 s.inp.j)
        | _ =>
          if l.unacked = [] ∨ !((s.tileAt q).router.link (linkBack n)).bad then s
          else { s with tile := s.tile.setLink n { l with rounds := l.rounds + 1, wires := l.wires ++ l.unacked.map (·.seq) } }

/-- The home stewards of the carrels whose ownership covers an end of a link post a notice (R385). -/
def State.notifyOwners (s : State) (ps : List Phys) (code : Nat) (info : Word) : State :=
  let cs := ps.filterMap s.ownedNow
  { s with carrels := s.carrels.map fun c =>
      if cs.contains c.num then { c with ring.waiting := c.ring.waiting ++ [hostOnly c.num code 0 info (s.fieldAt c.home).ns] } else c }

/-- A dead link's output: the flits of its unacknowledged groups stand again at the heads of their buffers, in their order, and wait there for a detour
(R386). -/
def Tile.killLink (t : Tile) (n : Nat) : Tile :=
  let l := t.router.link n
  let back := l.unacked.flatMap fun g => g.flits.filterMap fun x => x.map fun y => (y.1, y.2.1)
  { t with router.bufs := back ++ t.router.bufs }.setLink n { l with dead := true, unacked := [], wires := [], locks := [] }

/-- LINK_DEAD (R385): link `n` of the tile in focus, after 8 rounds without an acknowledgement or with its CRC lock lost (`ok`). -/
def execLinkDead (s : State) : Host.Outcome State Fault Refusal :=
  s.become fun s =>
    let n := s.inp.n % 4
    let l := s.tile.router.link n
    let p := s.tile.phys
    match physOver p n with
    | none => s
    | some q =>
      if l.dead || !(s.inp.ok || decide (8 ≤ l.rounds)) then s
      else
        let s := { s with tile := s.tile.killLink n, wafer.deadLinks := s.wafer.deadLinks ++ [(p, linkDir n)] }
        let s := s.updTile q (·.killLink (linkBack n))
        let s := s.stewardEvent p.field (0xE0 + 256 * n) p.operand (BitVec.ofNat 32 l.unacked.length)
        s.notifyOwners [p, q] 0x7C (BitVec.ofNat 32 (p.operand.toNat + 2 ^ 22 * n))

/-- DEAD_ROUTER (R260, R344, R382, R389): the router in focus has lost its links, or is silent (`ok`): its tile is off, the flits in it are lost, the gang of its residency
ends faulted, and its nonet is replaced. A steward whose router dies is silent to its partner (R367). -/
def execDeadRouter (s : State) : Host.Outcome State Fault Refusal :=
  s.become fun s =>
    let t := s.tile
    if t.router.dead || !(s.inp.ok || s.linksGone false) then s
    else
      let s := if t.core.phase = .unbound then s else s.endGang
      let inside := t.router.bufs.map (·.2) ++ t.router.links.toList.flatMap (·.accepted)
      let s := inside.foldl (fun s x => s.flitEnds x.msg true) s
      let r := { s.tile.router with dead := true, off := true, bufs := [], links := s.tile.router.links.map fun l => { l with accepted := [] } }
      let s := { s with tile := { s.tile with stop.off := true, router := r } }
      let s := s.updFld fun f => { f with defects := f.defects ++ [t.phys] }
      if s.fld.served then s.replaceNonet t.phys.field t.phys.nonet else s

end Sys2Proof.Machine
end

