-- ==== Sys2Proof/Machine/Paging.lean ====
section
/-!
DEFINITION. The steps of paging (R77 to R79, R372, R373).
-/

namespace Sys2Proof.Machine

/-- A page has come back into a frame (R79): the frame's words get good check bits. -/
def Tile.pageInDone (t : Tile) (p : Page) (b : Nat) : Tile :=
  let t := t.setPage p.vbase fun q => { q with resident := true, pbase := b, pagingIn := false, failed := none, dirty := false, io := none }
  { t with view.bad := t.view.bad.filter fun w => decide (8 * w < b) || decide (b + pageSize p.k ≤ 8 * w) }

/-- The transfer of the page at a base has ended: every byte has been asked for and answered. -/
def Tile.pageMoved (t : Tile) (v : Nat) (out : Bool) : Option (Page × PageIo) :=
  t.view.pages.findSome? fun p => match p.io with
    | some io => if p.vbase = v ∧ io.out = out ∧ pageSize p.k ≤ io.done then some (p, io) else none
    | none => none

/-- PAGE_IN_DONE (R79, R373): the page at `n` has been read whole from its spill slot and becomes resident; or a far cause has failed it, and its frame
is returned. -/
def execPageInDone (s : State) : Host.Outcome State Fault Refusal :=
  s.become fun s =>
    match s.tile.pageMoved s.inp.n false with
    | none => s
    | some (p, io) =>
      match io.bad with
      | some info => { s with tile := s.tile.pageInFailed p info }
      | none => { s with tile := s.tile.pageInDone p (io.frame.getD 0) }

/-- PAGE_OUT_DONE (R79, R373): the page at `n` has been written whole to its spill slot; where a write was not taken the page has no spill copy:
steward event 0xD5 and host notice 0x6A. -/
def execPageOutDone (s : State) : Host.Outcome State Fault Refusal :=
  s.become fun s =>
    match s.tile.pageMoved s.inp.n true with
    | none => s
    | some (p, io) =>
      let set (x : Spill) : State :=
        let t := s.tile.setPage p.vbase fun q => { q with spill := x, io := none }
        { s with tile := { t with view.mem := t.view.mem.clear p.vbase (pageSize p.k) } }
      if io.bad.isNone then set .held
      else
        let i := s.tile.id
        let info := BitVec.ofNat 32 p.vbase
        ((set .lost).stewardEvent s.tile.phys.field 0xD5 i.name info).notify i.carrel.toNat (hostOnly i.carrel.toNat 0x6A i.name info s.fld.ns)

/-- LINE_ZEROED (R77): the next line of the background work is zeroed. -/
def execLineZeroed (s : State) : Host.Outcome State Fault Refusal :=
  s.become fun s => { s with tile.view.pages := zeroOne s.tile.view.pages }

end Sys2Proof.Machine
end

