-- ==== Sys2Proof/Machine/Peers.lean ====
section
/-!
DEFINITION. Peer ports (R182 to R184, R397, R398): frames to and from other wafers, the messages in them, and the loss of ports.
-/

namespace Sys2Proof.Machine

def State.peer (s : State) (n : Nat) : PeerPort := (s.wafer.peers.find? (·.num = n)).getD { num := n }

/-- Replace a peer port of a list, or list it. -/
def putPeer (p : PeerPort) : List PeerPort → List PeerPort
  | [] => [p]
  | q :: qs => if q.num = p.num then p :: qs else q :: putPeer p qs

def State.updPeer (s : State) (n : Nat) (f : PeerPort → PeerPort) : State := { s with wafer.peers := putPeer (f (s.peer n)) s.wafer.peers }

/- Frames. -/

/-- The CRC-32 of IEEE 802.3 over bytes (R182). -/
def crc32 (bs : List Byte) : Word :=
  ~~~(bs.foldl (fun c b => (List.range 8).foldl (fun c _ => if c.getLsbD 0 then (c >>> 1) ^^^ 0xEDB88320 else c >>> 1) (c ^^^ b.setWidth 32)) 0xFFFFFFFF)

/-- The 72 bytes of a frame (R182): four flits, and the trailer of the sequence number, the returned credits and the CRC over what stands before it. -/
def frameBytes (seq credits : BitVec 16) (flits : List (BitVec 128)) : List Byte :=
  let bs := flits.flatMap (fun f => natBytes 16 f.toNat) ++ natBytes 2 seq.toNat ++ natBytes 2 credits.toNat
  bs ++ natBytes 4 (crc32 bs).toNat

/-- A frame is good: it has 72 bytes, and its CRC matches. -/
def frameGood (bs : List Byte) : Bool := decide (bs.length = 72) && decide (field bs 68 4 = (crc32 (bs.take 68)).toNat)

/-- The four credit counts of a trailer, by logical channel. -/
def creditsOf (x : Nat) : List Nat := (List.range 4).map fun i => x / 2 ^ (4 * i) % 16

/-- Add to, and take from, the count of a channel. -/
def addCredit (l : List Nat) (c : Nat) : List Nat := (List.range 4).map fun i => l.getD i 0 + if i = c then 1 else 0
def takeCredits (l m : List Nat) : List Nat := (List.range 4).map fun i => l.getD i 0 - m.getD i 0

/-- The way of a message over a peer link, where a header has no coordinate of the far wafer. -/
def peerWay (p : Packet) : Way := { id := 0, src := p.origin, dst := p.origin, vc := 3, left := 0 }

/-- The frames of a message: four flits each, idle flits behind the last. -/
def framesOf (p : Packet) : List (List (BitVec 128)) :=
  (List.range ((p.len + 4) / 4)).map fun k => (List.range 4).map fun i => if 4 * k + i ≤ p.len then p.flitBits (peerWay p) (4 * k + i) else 0

/- What cannot go. -/

/-- A port turns an operation back to its issuer (R374, R398); steward traffic, and what has no acknowledgement, is lost. -/
def State.turnBack (s : State) (n : Nat) (how : AckKind) (p : Packet) : State :=
  let s := s.unsend p
  let back (s : State) (b : Body) : State := s.emitFrom (peerAgent n) { hdr := backHdr p, body := b, armed := p.armed, urg := p.urg }
  let answer (a : Nat) (copy : Option Nat) : State := back s (.ack 2 p.body.op how a copy)
  if p.hdr.src = 0xFFFFFFFF ∨ p.orphan then s
  else match p.body with
  | .ratom _ _ wide reg m _ _ => back (answer 0 none) (.ratomReply reg wide m (BitVec.allOnes 64) how)
  | .getReq a _ id _ _ => answer a (some id)
  | .putChunk id a _ _ _ _ _ => answer a (some id)
  | .send _ _ => answer 0 none
  | .rst _ _ _ => answer 0 none
  | .tdec _ _ => answer 0 none
  | .spawn _ _ _ => answer 0 none
  | .istore _ _ => answer 0 none
  | .barArrive _ => answer 0 none
  | .barDec _ _ => answer 0 none
  | _ => s

/-- No path leads to the wafer that a name gives. -/
def Carrel.noWay (c : Carrel) (n : Word) : Bool := c.pathless.contains (nameWafer n) || ((c.peers.find? (·.1 = nameWafer n)).map (·.2)).getD [] == []

/- Sending. -/

/-- The message that a coordinate takes next: of those that stand there, and that no earlier operation of their pair and channel, wherever it is, holds behind it
(R121), the oldest arrival. -/
def State.oldestAt (s : State) (q : Phys) : Option Packet :=
  let ps := s.net.filter fun p => p.place.map (·.1) == some q && oldestOn p s.net
  ps.find? fun p => ps.all fun r => decide ((p.place.map (·.2)).getD 0 ≤ (r.place.map (·.2)).getD 0)

/-- A port puts its next frame on the link (R182): of the message that it is sending, of the frames that a dead port has left to it, of one that it relays, or of the
oldest that has come to it; it holds at most 64 for replay. A message is sent whole before another begins, and begins with a credit of its channel, which is room at the far
side for one message (log entry 96). -/
def State.sendFrame (s : State) (n : Nat) : State :=
  let q := s.peer n
  let held := decide (64 ≤ q.buf.length)
  let full (p : Packet) : Bool := held || decide (Config.peerCredits < q.used.getD (p.lch (peerWay p)) 0)
  let put (p : Packet) (flits : List (BitVec 128)) (last : Bool) (q : PeerPort) : PeerPort :=
    let cr := q.owed.map (min · 15)
    let x : Frame := { bytes := frameBytes q.sent (BitVec.ofNat 16 (((List.range 4).map fun i => 2 ^ (4 * i) * cr.getD i 0).foldl (· + ·) 0)) flits,
                       seq := q.sent, msg := p, flits := flits, last := last }
    { q with sent := q.sent + 1, buf := q.buf ++ [x], used := if last then addCredit q.used (p.lch (peerWay p)) else q.used, owed := takeCredits q.owed cr }
  let begin_ (p : Packet) (s : State) (q : PeerPort) : State :=
    match framesOf p with
    | [] => s
    | x :: xs => s.updPeer n fun _ => put p x xs.isEmpty { q with cur := if xs = [] then none else some (p, xs) }
  match q.cur, q.late with
  | some (p, x :: xs), _ => if held then s else s.updPeer n fun q => put p x xs.isEmpty { q with cur := if xs = [] then none else some (p, xs) }
  | _, x :: xs => if full x.msg then s else s.updPeer n fun q => put x.msg x.flits x.last { q with late := xs }
  | _, [] =>
    match q.relay with
    | p :: ps => if full p then s else begin_ p s { q with relay := ps }
    | [] =>
      match s.oldestAt (peerAgent n) with
      | none => s
      | some p =>
        match s.carrel p.hdr.carrel.toNat with
        | none => s.unsend p
        | some c => if c.noWay p.hdr.dst then s.turnBack n .noPath p else if full p then s else begin_ p (s.unsend p) q

/-- The next live port along the edge ring, by which a middle wafer sends on what it relays (R182, R397; log entry 97). -/
def State.ringPort (s : State) (n : Nat) : Option Nat := ((List.range 143).map fun k => (n + k + 1) % 144).find? fun m => (s.peer m).up

/-- A port that is down hands what comes to it to the port that its carrel's list now gives (R397). -/
def State.handOver (s : State) (n : Nat) : State :=
  match s.oldestAt (peerAgent n) with
  | none => s
  | some p =>
    match s.carrel p.hdr.carrel.toNat with
    | none => s.unsend p
    | some c =>
      if c.noWay p.hdr.dst then s.turnBack n .noPath p
      else { s.putPacket p { p with place := some (c.egress p.hdr.src p.hdr.dst, s.serial) } with serial := s.serial + 1 }

/- Receiving. -/

/-- A name of another wafer as this one names it (R183): `d` is the distance of that wafer in the carrel's order. -/
def nameHere (nw d : Nat) (n : Word) : Word := if n = 0xFFFFFFFF then n else mkName ((nameWafer n + d) % nw) (nameX n) (nameY n)

/-- The names in an operation, as this wafer names them. -/
def renameBody (f : Word → Word) : Body → Body
  | .barReply h a g => .barReply (f h) a g
  | .barRelease h a g c => .barRelease (f h) a g c
  | .boostCount c h a => .boostCount c (f h) a
  | b => b

/-- The message of another wafer of a carrel as this wafer's headers give it (R183): `k` is that wafer's number in the carrel. None where it is not from
another wafer of the carrel, or not for this one. -/
def Carrel.letIn (c : Carrel) (k : Nat) (p : Packet) : Option Packet :=
  let d := (k + c.nw - c.k) % c.nw
  let f := nameHere c.nw d
  if c.nw ≤ k ∨ d = 0 ∨ nameWafer (f p.hdr.dst) ≠ 0 then none
  else some { p with hdr := { p.hdr with dst := f p.hdr.dst, src := f p.hdr.src, carrel := BitVec.ofNat 11 c.num }, body := renameBody f p.body,
                     dest := none, way := none, place := none, fwd := false }

/-- A good frame is the expected one (R182): its credits return, and the message that it ends waits for its name to be resolved; one for another wafer of a
path goes on through port `out` along the edge ring. -/
def State.acceptFrame (s : State) (n : Nat) (bs : List Byte) (p : Option Packet) (key : Word) (k : Nat) (out : Option Nat) : State :=
  let back := creditsOf (field bs 66 2)
  let s := s.updPeer n fun q => { q with expect := q.expect + 1, bad := false, used := takeCredits q.used back,
                                         owed := match p with
                                           | some p => addCredit q.owed (p.lch (peerWay p))
                                           | none => q.owed }
  match p, out with
  | none, _ => s
  | some p, some m => s.updPeer m fun q => { q with relay := q.relay ++ [{ p with dest := some (peerAgent m) }] }
  | some p, none =>
    match s.carrels.find? fun c => c.live && c.key == key with
    | none => s
    | some c => match c.letIn k p with
      | none => s
      | some p => s.updPeer n fun q => { q with waiting := q.waiting ++ [p] }

/-- A message that has come by a port waits behind what a dead port has accepted for the same destination, the dead port's end markers to it among that, until all
of it has been performed (R397 steps 4 and 5; log entry 97). -/
def State.behindDead (s : State) (n : Nat) (p : Packet) : Bool :=
  let same (x : Packet) : Bool := x.hdr.carrel == p.hdr.carrel && x.hdr.dst == p.hdr.dst
  (s.peer n).up && s.wafer.peers.any fun q => !q.up && (q.waiting.any same || s.net.any fun x => x.origin == peerAgent q.num && same x)

/-- The end markers of a port that has died (R397 step 4): behind what it has accepted last, one for each channel to every residency of each carrel that spans wafers. -/
def State.deadMarkers (s : State) : List Packet :=
  (s.carrels.filter fun c => c.live && decide (1 < c.nw)).flatMap fun c => (s.bound c.num).flatMap fun q =>
    ([0, 1, 2, 3] : List (BitVec 2)).map fun ch => { hdr := stewardHdr (BitVec.ofNat 11 c.num) (s.tileAt q).id.name 0 0 0 false, body := .endMarker ch }

/-- A message that has come to a port is for a name with no tile in the carrel's part of this wafer (R183, R374). -/
def State.unmappedHere (s : State) (n : Nat) (c : Carrel) (p : Packet) : Bool :=
  decide (c.w ≤ nameX p.hdr.dst) || decide (c.h ≤ nameY p.hdr.dst) || (s.leads (peerAgent n) p).isNone

/-- What another wafer has asked of the whole part of a carrel on this one, or answered (R165, R184; log entry 61); the rest goes to the residency that its name gives,
and is turned back where that name is unmapped (R374). -/
def State.takeAbroad (s : State) (n : Nat) (c : Carrel) (p : Packet) : State :=
  match p.body with
  | .barRelease _ _ _ _ => (s.bound c.num).foldl (fun s q => s.emitFrom (peerAgent n) { p with hdr := { p.hdr with dst := (s.tileAt q).id.name } }) s
  | .cancelNotice x => s.startSweep c.num x none false (some (nameWafer p.hdr.src))
  | .cancelAck x total =>
    (match c.sweeps.find? fun w => w.scope == x && w.abroad.contains (nameWafer p.hdr.src) with
     | none => s
     | some w => s.stepSweep c w { w with abroad := w.abroad.erase (nameWafer p.hdr.src), total := w.total + total })
  | .retireNotice x => s.startRetireOf c.num x 0 none none (some (nameWafer p.hdr.src))
  | .retireAck x =>
    s.updCarrel c.num fun k => { k with retires := match k.retires.find? fun w => w.scope == x && w.abroad.contains (nameWafer p.hdr.src) with
      | none => k.retires
      | some w => k.retires.map fun z => if z = w then { w with abroad := w.abroad.erase (nameWafer p.hdr.src) } else z }
  | .lineReport n => s.updCarrel c.num fun k => { k with reports := k.reports ++ [(n, (c.k + nameWafer p.hdr.src) % c.nw)] }
  | .lineRelease n => s.updCarrel c.num fun k => { k with reports := k.reports ++ [(n, 0)] }
  | _ => if s.unmappedHere n c p then s.turnBack n .unmapped p else s.emitFrom (peerAgent n) p

/-- The oldest message that waits at a port is resolved by walker lane `lane` of its carrel (R148, R183). -/
def State.resolveAt (s : State) (n lane : Nat) : State :=
  match (s.peer n).waiting with
  | [] => s
  | p :: ps =>
    let f := peerFieldOf n
    match s.carrel p.hdr.carrel.toNat with
    | none => s.updPeer n fun q => { q with waiting := ps }
    | some c =>
      if !(s.fieldAt f).walkerFree lane p.hdr.carrel || s.behindDead n p then s
      else ((s.updField f fun fl => { fl with walked := putAt lane fl.clk fl.walked }).updPeer n fun q => { q with waiting := ps }).takeAbroad n c p

/-- Frames up to a sequence number have been acknowledged. -/
def ackFrames (m : BitVec 16) (l : List Frame) : List Frame := if l.any (·.seq == m) then (l.dropWhile (·.seq ≠ m)).drop 1 else l

/-- PEER_FRAME (R182, R183): at port `n`, `k` 0 receives the 72 `bytes` of a frame, which ends the message `pkt` of the carrel with key `word` sent by its wafer `j`; with
`ok` the message goes on through port `m`. 1 sends the next frame; 2 replays what is not acknowledged; 3 the far side has acknowledged frames up to `m`; 4 resolves the name of the oldest
message received, with walker lane `m`. A bad frame, and every later one until its replay, is dropped. -/
def execPeerFrame (s : State) : Host.Outcome State Fault Refusal :=
  s.become fun s =>
    let n := s.inp.n
    let q := s.peer n
    let bs := s.inp.bytes
    if 144 ≤ n then s
    else match s.inp.k with
      | 0 =>
        if !q.up then s
        else if !frameGood bs then s.updPeer n fun q => { q with bad := true }
        else if BitVec.ofNat 16 (field bs 64 2) ≠ q.expect then s
        else s.acceptFrame n bs s.inp.pkt s.inp.word s.inp.j (if s.inp.ok then some (s.inp.m % 144) else none)
      | 1 => if q.up then s.sendFrame n else s.handOver n
      | 2 => if q.up && !q.buf.isEmpty then s.updPeer n fun q => { q with replays := q.replays + 1 } else s
      | 3 => s.updPeer n fun q => { q with replays := 0, buf := ackFrames (BitVec.ofNat 16 s.inp.m) q.buf }
      | _ => s.resolveAt n (s.inp.m % 4)

/- The loss of ports. -/

/-- The next live port of a list after position i, cyclically (R397). -/
def State.nextLive (s : State) (l : List Nat) (i : Nat) : Option Nat :=
  ((List.range l.length).map fun k => l.getD ((i + k + 1) % l.length) 0).find? fun n => (s.peer n).up

/-- The dead port's places in a list take the next live port (R397). -/
def State.replacePort (s : State) (n : Nat) (l : List Nat) : List Nat :=
  (List.range l.length).map fun i => if l.getD i 0 = n then (s.nextLive l i).getD n else l.getD i 0

/-- The lists of a carrel after a port's loss; a list with no live port takes a path through other wafers, given as ports (R398), or is lost. -/
def State.loseRoutes (s : State) (n : Nat) (path : List Nat) (c : Carrel) : State :=
  c.peers.foldl (fun s x =>
    if !x.2.contains n then s
    else
      let l := s.replacePort n x.2
      let live := l.any fun m => (s.peer m).up
      let l := if live then l else path.filter fun m => (s.peer m).up
      let put (s : State) (lost : Bool) : State := s.updCarrel c.num fun c =>
        { c with peers := c.peers.map fun y => if y.1 = x.1 then (x.1, l) else y, pathless := if lost then c.pathless ++ [x.1] else c.pathless }
      if l ≠ [] then put s false
      else (put s true).stewardEvent (peerFieldOf n) 0xE4 (BitVec.ofNat 32 c.num) (BitVec.ofNat 32 ((c.k + x.1) % c.nw))) s

/-- A frame of port `n` whose acceptance is not known goes through the port that its pair now has, ahead of new traffic (R397), or if it is another wafer's through the next
of the edge ring; with no path, the message that ends in it is refused (R398). -/
def State.moveFrame (s : State) (n : Nat) (x : Frame) : State :=
  if x.msg.dest.isSome then
    match s.ringPort n with
    | none => s
    | some m => s.updPeer m fun q => { q with late := q.late ++ [x] }
  else
  match s.carrel x.msg.hdr.carrel.toNat with
  | none => s
  | some c =>
    if c.noWay x.msg.hdr.dst then (if x.last then s.turnBack n .noPath x.msg else s)
    else s.updPeer ((c.egress x.msg.hdr.src x.msg.hdr.dst).px - 1152) fun q => { q with late := q.late ++ [x] }

/-- The frames of a dead port that the far side, whose last accepted frame is `m`, has not accepted: those kept, and those of the message being sent. -/
def PeerPort.unaccepted (q : PeerPort) (m : BitVec 16) : List Frame :=
  ackFrames m q.buf ++ match q.cur with
    | none => []
    | some (p, xs) => (List.range xs.length).map fun i =>
        ({ bytes := [], seq := 0, msg := p, flits := xs.getD i [], last := decide (i + 1 = xs.length) } : Frame)

/-- PEER_PORT_DOWN (R397, R398): port `n` has lost lock (`ok`), or has replayed one frame 16 times; the far side's last accepted frame is `m`. `bytes` are the first ports of a
path through other wafers, where the stewards find one. Behind what it has accepted from the far side come its end markers, and what comes by other ports for the same
destinations waits for them. What it relays goes on by the next port of the edge ring. -/
def execPeerPortDown (s : State) : Host.Outcome State Fault Refusal :=
  s.become fun s =>
    let n := s.inp.n
    let q := s.peer n
    if 144 ≤ n ∨ !q.up ∨ !(s.inp.ok ∨ 16 ≤ q.replays) then s
    else
      let s := s.updPeer n fun q => { q with up := false, buf := [], cur := none, late := [], relay := [], waiting := q.waiting ++ s.deadMarkers }
      let s := (s.stewardEvent (peerFieldOf n) (0xE3 + 256 * n) 0 ((q.sent - 1).setWidth 32)).notifyAll 0x7D 0 (BitVec.ofNat 32 n)
      let s := s.carrels.foldl (fun s c => s.loseRoutes n (s.inp.bytes.map fun b => b.toNat % 144) c) s
      let s := (q.unaccepted (BitVec.ofNat 16 s.inp.m) ++ q.late).foldl (fun s x => s.moveFrame n x) s
      match s.ringPort n with
      | none => s
      | some m => s.updPeer m fun r => { r with relay := r.relay ++ q.relay.map fun p => { p with dest := some (peerAgent m) } }

/-- PEER_PORT_UP (R397): it rejoins the lists when a carrel is next created or restored. Its link starts with all its credits, and its numbers at 0 (log entry 96). -/
def execPeerPortUp (s : State) : Host.Outcome State Fault Refusal :=
  s.become fun s =>
    let n := s.inp.n
    if 144 ≤ n ∨ (s.peer n).up then s
    else (s.updPeer n fun q => { q with up := true, bad := false, replays := 0, expect := 0, sent := 0, used := [0, 0, 0, 0], owed := [0, 0, 0, 0] }).notifyAll 0x7D 0 (BitVec.ofNat 32 (n + 256))

end Sys2Proof.Machine
end

