-- ==== Sys2Proof/Machine/Streams.lean ====
section
/-!
DEFINITION. The stream engine and the tensor unit at work (R89 to R92, R111 to R116, R160, R291 to R298, R302, R319): the elements of
patterns, the tensor command queue, k-steps and drains, the chunks of copies, and folio replays.
-/

namespace Sys2Proof.Machine

/- Pattern elements (R90, R371). -/

/-- What the fetch of an element gives. -/
inductive Elem where
  | null
  | row (v : VWord) (s : State)
  | wait (t : Tile)
  | fault (f : FaultRec) (s : State)

/-- Fetch from a local address; `who` is c.finfo [7:4] (R369). -/
def State.localElem (s : State) (x : Int) (who : Nat) : Elem :=
  let a := (wrap32 x).toNat
  match s.tile.view.mapCheck a 16 false with
  | .ok =>
    match s.tile.seek a 16 true 1 with
    | .ok => .row (s.tile.view.mem.row a) { s with tile := s.tile.touch a 16 false false }
    | .wait t => .wait t
    | .fault f t => .fault f { s with tile := t }
  | .fault f => .fault { f with agent := 1, info := BitVec.ofNat 32 (16 * who) } s
  | .wait _ _ => .null

/-- Fetch from a far address through its entry port (R86, R87): a read asked for once, and waited for. -/
def State.farElem (s : State) (x : Int) (who : Nat) : Elem :=
  let va := (x % 2 ^ 48).toNat
  let ask : Elem := .wait { s.tile with strm.farReads := s.tile.strm.farReads.filter (·.who ≠ who) ++ [{ id := s.tile.net.nextId, who := who, va := va }],
                                        net.nextId := s.tile.net.nextId + 1 }
  let taken := { s with tile.strm.farReads := s.tile.strm.farReads.filter (·.who ≠ who) }
  match s.tile.strm.farReads.find? (·.who = who) with
  | none => ask
  | some r =>
    if r.va ≠ va then ask
    else match r.fail, r.data with
      | some f, _ => .fault f taken
      | none, some bs => .row (BitVec.ofNat 128 (leNat bs)) taken
      | none, none => .wait s.tile

/-- Fetch element i of a pattern from its space (R90, R371) for a stream register or an operand's plane, as FarRead numbers them. -/
def State.element (s : State) (p : PatRec) (i reader : Nat) : Elem :=
  let who := if reader < 4 then 12 + reader else 0
  match p.at i with
  | none => .null
  | some x =>
    match p.space with
    | 0 => s.localElem x who
    | 1 => s.farElem x reader
    | n =>
      let w : BitVec 3 := BitVec.ofNat 3 (n - 8)
      let win := s.tile.view.pw[w.toNat]
      let off := wrap32 x
      let bad (code : BitVec 8) : Elem := .fault { code := code, agent := 1, addr := off, info := w.setWidth 32 } s
      if win.kind = 0 ∨ win.kind = 3 then bad 0x45
      else if 16 * win.length.toNat < off.toNat + 16 then bad 0x46
      else if win.kind = 2 then s.localElem (win.start + off.toNat) who
      else s.farElem (win.start + off.toNat) reader

/- Slabs from local patterns (R298). -/

/-- Eight zero blocks (R295). -/
def zeroSlab : Slab := { blocks := List.replicate 8 (0, 0x4000) }

/-- A slab from its rows (R298). -/
def slabFrom (f : BkFmt) (data side : List (Option VWord)) : Slab :=
  if side.all (·.isNone) then zeroSlab
  else
    let bits := data.foldr (fun r a => (r.getD 0).toNat + 2 ^ 128 * a) 0
    { blocks := (List.range 8).map fun i =>
        (bits / 2 ^ (8 * f.bytes * i) % 2 ^ (8 * f.bytes),
         match side.getD (i / 4) none with
         | some v => (v >>> (32 * (i % 4))).setWidth 32
         | none => 0x4000) }

/-- What the head of an operand FIFO gives: the next slab with what is left, nothing yet, or a slab that a fault has cut short. -/
inductive Head where
  | slab (x : Slab) (q : Fifo)
  | none
  | failed (q : Fifo)

/-- The slab that is next in a FIFO's sequence, in the format given (R113, R295, R298, R299). Of a local binding it is cut from the elements read
so far, once there are enough or the patterns have none left: those that are missing are null. -/
def Fifo.head (q : Fifo) (f : BkFmt) : Head :=
  match q.bind with
  | .unbound => .slab zeroSlab q
  | .loc d sd =>
    let n := 2 * f.ebits
    let short := decide (q.data.length < n) || decide (q.side.length < 2)
    if (decide (q.data.length < n) && !d.ended) || (decide (q.side.length < 2) && !sd.ended) then .none
    else if q.failed && short then .failed { q with data := [], side := [], failed := false }
    else .slab (slabFrom f (q.data.take n) (q.side.take 2)) { q with data := q.data.drop n, side := q.side.drop 2 }
  | .fabric c hi next sc =>
    match q.slabs.find? (·.1 = next) with
    | some x => .slab x.2 { q with bind := .fabric c hi (next + 1) sc, slabs := q.slabs.erase x }
    | Option.none => .none

/-- The agents of the residency in focus stand still: it is halted for a migration or an archive, off, or its field is paused. -/
def State.engineStill (s : State) : Bool := s.still

/-- What an agent waits for has been asked for: pages, and a far element. -/
def State.await (s : State) (t : Tile) : State :=
  { s with tile := { s.tile with view.pages := t.view.pages, strm.farReads := t.strm.farReads, net.nextId := t.net.nextId } }

/-- Replace an operand FIFO: `true` TB. -/
def Tile.setFifo (t : Tile) (tb : Bool) (q : Fifo) : Tile := if tb then { t with tens.tb := q } else { t with tens.ta := q }
def Tile.fifo (t : Tile) (tb : Bool) : Fifo := if tb then t.tens.tb else t.tens.ta

/-- A pattern after the fetch of an element that gives a row, or a null one, or that meets a fault: what is read, with the state. -/
inductive Fetch where
  | row (r : Option VWord) (p : Pattern) (s : State)
  | wait (t : Tile)
  | fault (p : Pattern) (s : State)

/-- Fetch a pattern's next element; a fault stops the pattern (R371). -/
def State.fetchNext (s : State) (p : Pattern) (reader : Nat) : Fetch :=
  match s.element p.pat p.next reader with
  | .null => .row none { p with next := p.next + 1 } s
  | .row v s => .row (some v) { p with next := p.next + 1 } s
  | .wait t => .wait t
  | .fault f s => .fault { p with stopped := true } { s with tile := s.tile.addPend f }

/-- The next element of a plane of an operand binding is read ahead (R92, R298): two slabs of the widest format at most. -/
def State.fetchPlane (s : State) (tb side : Bool) (reader : Nat) : State :=
  let q := s.tile.fifo tb
  match q.bind with
  | .loc d sd =>
    let p := if side then sd else d
    let put (s : State) (q : Fifo) : State := { s with tile := s.tile.setFifo tb q }
    let now (p : Pattern) : Bind := if side then .loc d p else .loc p sd
    if p.ended || decide ((if side then 4 else 32) ≤ (if side then q.side else q.data).length) then s
    else match s.fetchNext p reader with
      | .wait t => s.await t
      | .fault p s => put s { q with bind := now p, failed := true }
      | .row r p s => put s (if side then { q with bind := now p, side := q.side ++ [r] } else { q with bind := now p, data := q.data ++ [r] })
  | _ => s

/-- STREAM_ELEMENT_FETCH (R91, R92, R298, R371): `n` 0 to 3 fetches the next element of the pattern on v12 + n while its buffer has room; 4 and 5
the next data element of TA's and TB's local binding, 6 and 7 the next sidecar element. -/
def execStreamElementFetch (s : State) : Host.Outcome State Fault Refusal :=
  s.become fun s =>
    if s.engineStill then s
    else if s.inp.n < 4 then
      match s.tile.strm.regs.find? (·.n.toNat = s.inp.n) with
      | none => s
      | some r =>
        let put (s : State) (x : StreamReg) : State := { s with tile.strm.regs := s.tile.strm.regs.map fun y => if y.n = r.n then x else y }
        if r.pat.ended || decide (4 ≤ r.buf.length) then s
        else match s.fetchNext r.pat s.inp.n with
          | .wait t => s.await t
          | .fault p s => put s { r with pat := p }
          | .row v p s => put s { r with pat := p, buf := r.buf ++ [v.getD (fillRow r.pat.pat.fill)] }
    else s.fetchPlane (s.inp.n % 2 == 1) (decide (6 ≤ s.inp.n)) s.inp.n

/- The tensor command queue (R291 to R297). -/

/-- Merge the flags of the tensor unit into c.tstat (R104). -/
def State.tensorFlags (s : State) (fl : Flags) : State := { s with tile := s.tile.setSticky (fl.setWidth 12) false }

/-- Replace an accumulator. -/
def State.setAcc (s : State) (n : BitVec 2) (a : Accum) : State := { s with tile.tens.acc := s.tile.tens.acc.set n.toNat a }

/-- Drop the head command. -/
def State.popCmd (s : State) : State := { s with tile.tens.cmds := s.tile.tens.cmds.drop 1 }

/-- TENSOR_COMMAND_PERFORM (R291 to R294, R298, R300): the head command, once no k-step runs. -/
def execTensorCommandPerform (s : State) : Host.Outcome State Fault Refusal :=
  s.become fun s =>
    if s.engineStill || s.tile.tens.kstep.isSome then s
    else match s.tile.tens.cmds with
      | [] => s
      | c :: _ =>
        let out := s.popCmd
        let setFifo (tb : Bool) (q : Fifo) : State :=
          { out with tile := { (out.tile.setFifo tb q) with
              strm.farReads := out.tile.strm.farReads.filter fun r => decide (r.who < 4) || (r.who % 2 == 1) != tb } }
        match c.op with
        | .tcfg f => { out with tile.tens.fmt := f }
        | .tarm n p =>
          let (a, fl) := (s.tile.tens.acc[n.toNat]).mapOuts fun _ o => o.settle
          (out.setAcc n { a with p := p }).tensorFlags fl
        | .tzero n => out.setAcc n { s.tile.tens.acc[n.toNat] with outs := Vector.replicate 64 {} }
        | .bind tb b => setFifo tb { bind := b, own := c.own }
        | .stop tb => setFifo tb {}
        | .tfeed _ left => if left = 0 then out else s
        | .tdrain _ _ _ _ => s

/-- A k-step whose slab met a fault is removed with its TFEED, and with it the drains of its accumulator that have not begun: their tokens are
written (R341; log entry 63). -/
def Tile.failStep (t : Tile) (n : BitVec 2) (cs : List TensorCmd) : Tile :=
  let lost := cs.filter fun c => match c.op with
    | .tdrain m _ _ _ => m == n
    | _ => false
  lost.foldl (fun t c => t.writeToken c.token 0x80000000) { t with tens.cmds := cs.filter fun c => !lost.contains c }

/-- KSTEP_FIRE (R113, R295): the TFEED at the head pops both slabs, cut in the format that is current for it; it leaves the queue with its last step. -/
def execKstepFire (s : State) : Host.Outcome State Fault Refusal :=
  s.become fun s =>
    if s.engineStill || s.tile.tens.kstep.isSome then s
    else match s.tile.tens.cmds with
      | [] => s
      | c :: cs =>
        match c.op with
        | .tfeed n (left + 1) =>
          let f := s.tile.tens.fmt
          (match s.tile.tens.ta.head f, s.tile.tens.tb.head f with
           | .slab a qa, .slab b qb =>
             { s with tile.tens := { s.tile.tens with ta := qa, tb := qb, kstep := some { n := n, a := a, b := b, fmt := f },
                                                      cmds := if left = 0 then cs else { c with op := .tfeed n left } :: cs } }
           | .failed qa, .failed qb => { s with tile := ((s.tile.setFifo false qa).setFifo true qb).failStep n cs }
           | .failed qa, _ => { s with tile := (s.tile.setFifo false qa).failStep n cs }
           | _, .failed qb => { s with tile := (s.tile.setFifo true qb).failStep n cs }
           | _, _ => s)
        | _ => s

/-- KSTEP_COMPLETE (R104, R111 to R115). -/
def execKstepComplete (s : State) : Host.Outcome State Fault Refusal :=
  s.become fun s =>
    match s.tile.tens.kstep with
    | none => s
    | some k =>
      if s.fld.paused then s else
      let (a, fl) := (s.tile.tens.acc[k.n.toNat]).kstep k.fmt k.a k.b
      ({ s with tile.tens.kstep := none }.setAcc k.n a).tensorFlags fl

/-- The FP format of a drain's code, or its block format (R296). -/
def drainFp (n : Nat) : Option Fmt :=
  match n with
  | 0 => some Fmt.fp32
  | 1 => some Fmt.bf16
  | 2 => some Fmt.fp16
  | _ => none

/-- A row of results as bytes. -/
def rowBytes (w : Nat) (l : List Nat) : List Byte := l.flatMap (natBytes (w / 8))

/-- One block of a drain (R116, R297): an error output makes an error block. -/
def drainBlock (f : BkFmt) (mode : Mode) (adv : List Word) (xs : List XVal) : BkOut :=
  match xs.findSome? fun x => match x with
    | .err o => some o
    | _ => none with
  | some o => errBlock o 0
  | none => bkEncode f Fmt.fp32 (xs.map fun x => match x with
      | .val v => v
      | .err _ => .fin false 0 0) mode adv

/-- The writes of a drain and its flags (R297), from the drained values in ascending order of output. -/
def DrainDesc.results (d : DrainDesc) (adv : List Word) (xs : List XVal) : List (Nat × List Byte) × Flags :=
  match drainFp d.fmt with
  | some f =>
    let ys := xs.map fun x => match x with
      | .val v => Fmt.convert Fmt.fp32 f .rne v
      | .err o => (f.errNaN o, 0)
    ((List.range 8).map fun i => ((d.target + i * d.stride) % 2 ^ 32, rowBytes f.width (((ys.drop (8 * i)).take 8).map (·.1))),
     ys.foldl (fun a y => a ||| y.2) 0)
  | none =>
    let f := BkFmt.ofCode (d.fmt - 4)
    let mode := if d.sr then Mode.sr 0 else Mode.ofRm d.rm
    let b (i : Nat) : BkOut := drainBlock f mode ((adv.drop (32 * i)).take 32) ((xs.drop (32 * i)).take 32)
    ([0, 1].flatMap (fun i => [((d.target + f.bytes * i) % 2 ^ 32, natBytes f.bytes (b i).data)])
      ++ [0, 1].map (fun i => ((d.side + 4 * i) % 2 ^ 32, natBytes 4 (b i).side.toNat)),
     (b 0).flags ||| (b 1).flags)

/-- The bytes that a drain's token counts (R297). -/
def drainBytes (n : Nat) : Nat :=
  match drainFp n with
  | some f => 8 * f.width
  | none => 2 * (BkFmt.ofCode (n - 4)).bytes + 8

/-- The scale vectors that a drain reads: local ranges (R296). -/
def DrainDesc.reads (d : DrainDesc) : List Nat := (if d.rsen then [d.rs] else []) ++ if d.csen then [d.cs] else []

/-- The faults and waits of a drain's reads. -/
def Tile.seekReads (t : Tile) (l : List Nat) : Seek :=
  match l.findSome? fun a => match t.view.mapCheck a 32 false with
      | .fault f => some { f with agent := 2 }
      | _ => none with
  | some f => .fault f t
  | none => (l.findSome? fun a => match t.seek a 32 true 2 with
      | .ok => none
      | x => some x).getD .ok

/-- TDRAIN_PERFORM (R116, R297, R341): the TDRAIN at the head, once no k-step runs. A drain that meets a fault writes nothing. -/
def execTdrainPerform (s : State) : Host.Outcome State Fault Refusal :=
  s.become fun s =>
    if s.engineStill || s.tile.tens.kstep.isSome then s
    else match s.tile.tens.cmds with
      | [] => s
      | c :: _ =>
        match c.op with
        | .tdrain n d adv m =>
          let fail (t : Tile) (f : FaultRec) : State :=
            { s with tile := ({ t with tens.cmds := t.tens.cmds.drop 1 }.writeToken m 0x80000000).addPend f }
          match s.tile.seekReads d.reads with
          | .wait t => s.await t
          | .fault f t => fail t f
          | .ok =>
            let (a, f1) := (s.tile.tens.acc[n.toNat]).mapOuts fun _ o => o.settle
            let scale (on : Bool) (base i : Nat) : Word := if on then s.tile.view.mem.word (base + 4 * i) else 0x3F800000
            let xs := (List.range 64).map fun i => (a.outs.toList.getD i {}).drain (scale d.rsen d.rs (i / 8)) (scale d.csen d.cs (i % 8))
            let (ws, f2) := d.results adv (xs.map (·.1))
            match s.tile.writeAll 2 ws with
            | .wait t => s.await t
            | .fault f t => fail t f
            | .ok =>
              let t := d.reads.foldl (fun t x => t.touch x 32 false false) s.tile
              let s := ({ s with tile := t.putAll ws }.popCmd.setAcc n a).tensorFlags (xs.foldl (fun (a : Flags) (x : XVal × Flags) => a ||| x.2) (f1 ||| f2))
              { s with tile := s.tile.writeToken m (BitVec.ofNat 64 (drainBytes d.fmt)) }
        | _ => s

/- Chunks (R86, R89, R302). -/

/-- Issue the next chunk of the copy in a slot (R302): a far chunk is queued for its entry port, a PUT's is read and sent, a GET.LOC's read and
written. -/
def State.issueChunk (s : State) (slot : Nat) : State :=
  match s.tile.strm.copies.find? (·.slot = slot) with
  | none => s
  | some c =>
    if s.engineStill || c.ended.isSome || decide (c.length ≤ c.issued) then s
    else
      let off := c.issued
      let n := chunkLen c.src off c.length
      let more (st : ChunkState) : Copy := { c with issued := off + n, pend := c.pend ++ [(off, n, st)] }
      match c.kind with
      | .get => s
      | .getFar => { s with tile := s.tile.setCopy (more .queued) }
      | .putFar => { s with tile := s.tile.setCopy (more .queued) }
      | _ =>
        match s.tile.seek (c.src + off) n true 1 with
        | .wait t => { s with tile := t }
        | .fault f t => { s with tile := t.endCopy c f }
        | .ok =>
          let bs := s.tile.view.mem.bytes (c.src + off) n
          let t := s.tile.touch (c.src + off) n false false
          match c.kind with
          | .getLoc =>
            (match t.seek (c.dst + off) n false 1 with
             | .wait t => { s with tile := t }
             | .fault f t => { s with tile := t.endCopy c f }
             | .ok => { s with tile := (t.setCopy (more .sent)).arrive (more .sent) off bs })
          | _ =>
            { s with tile := (t.setCopy (more .sent)).useName c.name }.emit
              { hdr := s.hdr c.name c.scope,
                body := .putChunk c.id (c.dst + off) bs c.wm c.dcnt (decide (off + n = c.length)) c.ftag, armed := c.armed, urg := c.urgent }

/- Folio replays (R159, R160, R319). -/

/-- A word of record j of the folio at an address. -/
def State.folioWord (s : State) (a j off : Nat) : Nat := (s.tile.view.mem.word (a + 16 + 32 * j + off)).toNat

/-- The lowest operation that is ready (R160). -/
def Replay.ready (r : Replay) : Option Nat :=
  (List.range r.counts.length).find? fun j => decide (r.counts.getD j 1 = 0) && !r.issued.contains j && !r.completed.contains j

/-- An operation of a replay fails as it issues (R160, R341). -/
def State.failReplay (s : State) (f : FaultRec) : State :=
  match s.tile.strm.replay with
  | none => s
  | some r =>
    ({ s with tile := { s.tile.addPend { f with urgent := r.urgent } with strm.replay := some { r with failed := true } } }).endReplay

/-- Start a copy for record j (R159). -/
def State.folioCopy (s : State) (r : Replay) (j slot : Nat) (k : CopyKind) (src dst : Nat) (name : Word) (len : Nat) (tag : Option (BitVec 8)) : State :=
  let c : Copy := { slot := slot, id := copyId s.tile.net.nextId slot, kind := k, src := src, dst := dst, name := name, length := len, wm := none, cen := none,
                    dcnt := none, prio := 0, scope := r.scope, urgent := r.urgent, mark := none, folio := some j, ftag := tag,
                    own := r.own }
  { s with tile.net.nextId := s.tile.net.nextId + 1, tile.strm.copies := s.tile.strm.copies ++ [c] }

/-- The first local range that no page covers (R371): its fault, with the copy slot. -/
def View.rangeFault (v : View) (slot : Nat) (l : List (Nat × Nat × Bool)) : Option FaultRec :=
  l.findSome? fun x => match (if x.2.1 = 0 then Chk.ok else v.mapCheck x.1 x.2.1 x.2.2) with
    | .fault f => some { f with agent := 1, info := BitVec.ofNat 32 ((if x.2.2 then 1 else 0) + 16 * slot) }
    | _ => none

/-- Issue operation j of the replay (R159, R160): its record is read from memory now. -/
def State.issueOpOf (s : State) (r : Replay) (a j kind slot : Nat) : State :=
  let w := s.folioWord a j
  let base (i : Nat) : Nat := (r.bases[i % 4]'(Nat.mod_lt _ (by decide))).toNat
  let src := (base (w 0 / 16) + w 8) % 2 ^ 32
  let dst := (base (w 0 / 64) + w 12) % 2 ^ 32
  let len := w 16
  let peer := BitVec.ofNat 32 (w 20)
  let tag : BitVec 8 := BitVec.ofNat 8 (w 24)
  let hi := 2 ^ 32 * (w 28 % 65536)
  let far := w 24 / 2 ^ 16 % 2 = 1
  let farw := w 24 / 2 ^ 17 % 2 = 1
  let started := { s with tile.strm.replay := some { r with
    issued := r.issued ++ [j], recvs := if kind = 1 ∨ kind = 4 then r.recvs ++ [(j, tag, len)] else r.recvs } }
  let nameBad : Option FaultRec :=
    if !s.nameInside peer then some { code := 0x50, agent := 1, addr := peer, info := 0x6E }
    else if (s.resolve peer).isNone ∧ nameWafer peer = 0 then some { code := 0x51, agent := 1, addr := peer, info := 0x6E }
    else none
  let go (l : List (Nat × Nat × Bool)) (k : State) : State := match s.tile.view.rangeFault slot l with
    | some f => s.failReplay f
    | none => k
  match kind with
  | 1 => started
  | 2 => started.injectComb j (BitVec.ofNat 8 (w 24 / 256)) src dst len
  | 3 =>
    if far then go [(dst, len, true)] (started.folioCopy r j slot .getFar (src + hi) dst 0 len none)
    else if farw then go [(src, len, false)] (started.folioCopy r j slot .putFar src (dst + hi) 0 len none)
    else go [(dst, len, true), (src, len, false)] (started.folioCopy r j slot .getLoc src dst 0 len none)
  | _ =>
    match nameBad with
    | some f => s.failReplay f
    | none => go [(src, len, false)] (started.folioCopy r j slot .put src dst peer len (some tag))

/-- The replay's next ready operation issues, one per clk, in ascending index (R160); it waits for its record's page and for a copy slot. -/
def State.issueFolio (s : State) : State :=
  match s.tile.strm.replay, s.tile.strm.folio with
  | some r, some (a, rs) =>
    if s.engineStill || r.failed then s
    else match r.ready with
      | none => s
      | some j =>
        let kind := ((rs[j]?).map (·.kind)).getD 0
        match s.tile.copySlot, s.tile.view.mapCheck (a + 16 + 32 * j) 32 false with
        | _, .fault f => s.failReplay { f with agent := 1 }
        | none, _ => s
        | some slot, _ =>
          match s.tile.seek (a + 16 + 32 * j) 32 true 1 with
          | .wait t => { s with tile := t }
          | .fault f t => ({ s with tile := t }).failReplay f
          | .ok => s.issueOpOf r a j kind slot
  | _, _ => s

/-- Lower the counts of an operation's successors (R160). -/
def lowerCounts (cs succ : List Nat) : List Nat := succ.foldl (fun cs i => cs.set i (cs.getD i 0 - 1)) cs

/-- The received bytes of a tag (R319). -/
def Tile.tagBytes (t : Tile) (x : BitVec 8) : Nat := ((t.strm.ftags.find? (·.1 = x)).map (·.2)).getD 0

/-- FOLIO_OP_COMPLETE (R159, R160, R319): operation `n` of the replay is complete: its copy has ended, its tag's bytes have come, its tokens have
left the local port. -/
def execFolioOpComplete (s : State) : Host.Outcome State Fault Refusal :=
  s.become fun s =>
    match s.tile.strm.replay, s.tile.strm.folio with
    | some r, some (_, rs) =>
      let j := s.inp.n
      let wait := r.recvs.find? (·.1 = j)
      let copied := s.tile.strm.copies.all (·.folio ≠ some j)
      let injected := s.tile.comb.toList.all fun e => e.gated.all (·.1 ≠ j)
      let received := match wait with
        | some (_, tag, len) => decide (len ≤ s.tile.tagBytes tag)
        | none => true
      if s.engineStill || !r.issued.contains j || r.completed.contains j || !copied || !injected || !received then s
      else
        let succ := ((rs[j]?).map (·.succ)).getD []
        let t := match wait with
          | some (_, tag, len) => { s.tile with strm.ftags := s.tile.strm.ftags.map fun (x : BitVec 8 × Nat) => if x.1 = tag then (x.1, x.2 - len) else x }
          | none => s.tile
        ({ s with tile := { t with strm.replay := some { r with completed := r.completed ++ [j], counts := lowerCounts r.counts succ } } }).endReplay
    | _, _ => s

end Sys2Proof.Machine
end

