-- ==== Sys2Proof/Machine/Dispatch.lean ====
section
/-!
DEFINITION. The dispatch of every instruction to its meaning.
-/

namespace Sys2Proof.Machine

/-- One step of an instruction or of another agent. -/
def exec (i : Instr) (s : State) : Host.Outcome State Fault Refusal :=
  match i with
  | .add d a b => Sys2Proof.Machine.execAdd d a b s
  | .sub d a b => Sys2Proof.Machine.execSub d a b s
  | .adds d a b => Sys2Proof.Machine.execAdds d a b s
  | .subs d a b => Sys2Proof.Machine.execSubs d a b s
  | .and d a b => Sys2Proof.Machine.execAnd d a b s
  | .or d a b => Sys2Proof.Machine.execOr d a b s
  | .xor d a b => Sys2Proof.Machine.execXor d a b s
  | .andn d a b => Sys2Proof.Machine.execAndn d a b s
  | .orn d a b => Sys2Proof.Machine.execOrn d a b s
  | .slt d a b => Sys2Proof.Machine.execSlt d a b s
  | .sltu d a b => Sys2Proof.Machine.execSltu d a b s
  | .min d a b => Sys2Proof.Machine.execMin d a b s
  | .max d a b => Sys2Proof.Machine.execMax d a b s
  | .minu d a b => Sys2Proof.Machine.execMinu d a b s
  | .maxu d a b => Sys2Proof.Machine.execMaxu d a b s
  | .shl d a b => Sys2Proof.Machine.execShl d a b s
  | .shr d a b => Sys2Proof.Machine.execShr d a b s
  | .sra d a b => Sys2Proof.Machine.execSra d a b s
  | .rot d a b => Sys2Proof.Machine.execRot d a b s
  | .clz d a => Sys2Proof.Machine.execClz d a s
  | .ctz d a => Sys2Proof.Machine.execCtz d a s
  | .popc d a => Sys2Proof.Machine.execPopc d a s
  | .brev d a => Sys2Proof.Machine.execBrev d a s
  | .mul d a b => Sys2Proof.Machine.execMul d a b s
  | .mulh d a b => Sys2Proof.Machine.execMulh d a b s
  | .mulhu d a b => Sys2Proof.Machine.execMulhu d a b s
  | .div d a b => Sys2Proof.Machine.execDiv d a b s
  | .divu d a b => Sys2Proof.Machine.execDivu d a b s
  | .rem d a b => Sys2Proof.Machine.execRem d a b s
  | .remu d a b => Sys2Proof.Machine.execRemu d a b s
  | .fshl d a b c => Sys2Proof.Machine.execFshl d a b c s
  | .fshr d a b c => Sys2Proof.Machine.execFshr d a b c s
  | .crcw d a b => Sys2Proof.Machine.execCrcw d a b s
  | .addi d a imm => Sys2Proof.Machine.execAddi d a imm s
  | .andi d a imm => Sys2Proof.Machine.execAndi d a imm s
  | .ori d a imm => Sys2Proof.Machine.execOri d a imm s
  | .xori d a imm => Sys2Proof.Machine.execXori d a imm s
  | .slti d a imm => Sys2Proof.Machine.execSlti d a imm s
  | .sltiu d a imm => Sys2Proof.Machine.execSltiu d a imm s
  | .shli d a n => Sys2Proof.Machine.execShli d a n s
  | .shri d a n => Sys2Proof.Machine.execShri d a n s
  | .srai d a n => Sys2Proof.Machine.execSrai d a n s
  | .roti d a n => Sys2Proof.Machine.execRoti d a n s
  | .li d imm => Sys2Proof.Machine.execLi d imm s
  | .lui d imm => Sys2Proof.Machine.execLui d imm s
  | .bfx d a w p => Sys2Proof.Machine.execBfx d a w p s
  | .bfi d a w p => Sys2Proof.Machine.execBfi d a w p s
  | .lut3 d a b t => Sys2Proof.Machine.execLut3 d a b t s
  | .beq o t x => Sys2Proof.Machine.execBeq o t x s
  | .bne o t x => Sys2Proof.Machine.execBne o t x s
  | .blt o t x => Sys2Proof.Machine.execBlt o t x s
  | .bge o t x => Sys2Proof.Machine.execBge o t x s
  | .bltu o t x => Sys2Proof.Machine.execBltu o t x s
  | .bgeu o t x => Sys2Proof.Machine.execBgeu o t x s
  | .jal d imm => Sys2Proof.Machine.execJal d imm s
  | .jalr d a imm => Sys2Proof.Machine.execJalr d a imm s
  | .loop a l k => Sys2Proof.Machine.execLoop a l k s
  | .loopi c l k => Sys2Proof.Machine.execLoopi c l k s
  | .nop => Sys2Proof.Machine.execNop s
  | .done => Sys2Proof.Machine.execDone s
  | .doneG => Sys2Proof.Machine.execDoneG s
  | .yield => Sys2Proof.Machine.execYield s
  | .cancelchk => Sys2Proof.Machine.execCancelchk s
  | .mask => Sys2Proof.Machine.execMask s
  | .unmask => Sys2Proof.Machine.execUnmask s
  | .fence x => Sys2Proof.Machine.execFence x s
  | .mfc d n => Sys2Proof.Machine.execMfc d n s
  | .mtc a n => Sys2Proof.Machine.execMtc a n s
  | .trap c => Sys2Proof.Machine.execTrap c s
  | .sleep m => Sys2Proof.Machine.execSleep m s
  | .ldb d a imm => Sys2Proof.Machine.execLdb d a imm s
  | .ldbu d a imm => Sys2Proof.Machine.execLdbu d a imm s
  | .ldh d a imm => Sys2Proof.Machine.execLdh d a imm s
  | .ldhu d a imm => Sys2Proof.Machine.execLdhu d a imm s
  | .ldw d a imm => Sys2Proof.Machine.execLdw d a imm s
  | .ldd d a imm => Sys2Proof.Machine.execLdd d a imm s
  | .stb d a imm => Sys2Proof.Machine.execStb d a imm s
  | .sth d a imm => Sys2Proof.Machine.execSth d a imm s
  | .stw d a imm => Sys2Proof.Machine.execStw d a imm s
  | .std d a imm => Sys2Proof.Machine.execStd d a imm s
  | .vld d a imm => Sys2Proof.Machine.execVld d a imm s
  | .vst d a imm => Sys2Proof.Machine.execVst d a imm s
  | .vldt d a imm => Sys2Proof.Machine.execVldt d a imm s
  | .ldbit d a w => Sys2Proof.Machine.execLdbit d a w s
  | .stbit d a w => Sys2Proof.Machine.execStbit d a w s
  | .ldp d a b w => Sys2Proof.Machine.execLdp d a b w s
  | .atom d a b o => Sys2Proof.Machine.execAtom d a b o s
  | .atomD d a b o => Sys2Proof.Machine.execAtomD d a b o s
  | .alloc a k => Sys2Proof.Machine.execAlloc a k s
  | .free a => Sys2Proof.Machine.execFree a s
  | .pin a => Sys2Proof.Machine.execPin a s
  | .vaddF d a b f r => Sys2Proof.Machine.execVaddF d a b f r s
  | .vsubF d a b f r => Sys2Proof.Machine.execVsubF d a b f r s
  | .vmulF d a b f r => Sys2Proof.Machine.execVmulF d a b f r s
  | .vfma d a b c f r => Sys2Proof.Machine.execVfma d a b c f r s
  | .vmin d a b f => Sys2Proof.Machine.execVmin d a b f s
  | .vmax d a b f => Sys2Proof.Machine.execVmax d a b f s
  | .vabs d a f => Sys2Proof.Machine.execVabs d a f s
  | .vneg d a f => Sys2Proof.Machine.execVneg d a f s
  | .vaddI d a b w => Sys2Proof.Machine.execVaddI d a b w s
  | .vsubI d a b w => Sys2Proof.Machine.execVsubI d a b w s
  | .vadds d a b w => Sys2Proof.Machine.execVadds d a b w s
  | .vsubs d a b w => Sys2Proof.Machine.execVsubs d a b w s
  | .vmulI d a b w => Sys2Proof.Machine.execVmulI d a b w s
  | .vmulh d a b w => Sys2Proof.Machine.execVmulh d a b w s
  | .vmulhu d a b w => Sys2Proof.Machine.execVmulhu d a b w s
  | .vshl d a b w => Sys2Proof.Machine.execVshl d a b w s
  | .vshr d a b w => Sys2Proof.Machine.execVshr d a b w s
  | .vsra d a b w => Sys2Proof.Machine.execVsra d a b w s
  | .vrot d a b w => Sys2Proof.Machine.execVrot d a b w s
  | .vcmp d a b t p => Sys2Proof.Machine.execVcmp d a b t p s
  | .vsel d a b c w => Sys2Proof.Machine.execVsel d a b c w s
  | .vshuf d a b c w => Sys2Proof.Machine.execVshuf d a b c w s
  | .vred d a k r => Sys2Proof.Machine.execVred d a k r s
  | .vamax d a b f => Sys2Proof.Machine.execVamax d a b f s
  | .rqacc d a k r => Sys2Proof.Machine.execRqacc d a k r s
  | .vlut3 d a b t => Sys2Proof.Machine.execVlut3 d a b t s
  | .vmov d a => Sys2Proof.Machine.execVmov d a s
  | .vbcast d a => Sys2Proof.Machine.execVbcast d a s
  | .vext d a b => Sys2Proof.Machine.execVext d a b s
  | .vins d a b => Sys2Proof.Machine.execVins d a b s
  | .kset d a => Sys2Proof.Machine.execKset d a s
  | .kget d a => Sys2Proof.Machine.execKget d a s
  | .tcfg f => Sys2Proof.Machine.execTcfg f s
  | .tarm d a => Sys2Proof.Machine.execTarm d a s
  | .tzero d => Sys2Proof.Machine.execTzero d s
  | .tdrain d a n => Sys2Proof.Machine.execTdrain d a n s
  | .tfeed d a => Sys2Proof.Machine.execTfeed d a s
  | .strmCfg d a => Sys2Proof.Machine.execStrmCfg d a s
  | .strmBind d a b f => Sys2Proof.Machine.execStrmBind d a b f s
  | .strmStop d => Sys2Proof.Machine.execStrmStop d s
  | .strmSync => Sys2Proof.Machine.execStrmSync s
  | .get d a b => Sys2Proof.Machine.execGet d a b s
  | .getFar d a b => Sys2Proof.Machine.execGetFar d a b s
  | .getLoc d a b => Sys2Proof.Machine.execGetLoc d a b s
  | .put d a b x r => Sys2Proof.Machine.execPut d a b x r s
  | .putFar d a b x r => Sys2Proof.Machine.execPutFar d a b x r s
  | .wmcfg d a b => Sys2Proof.Machine.execWmcfg d a b s
  | .sfence => Sys2Proof.Machine.execSfence s
  | .fenceFar => Sys2Proof.Machine.execFenceFar s
  | .send d a b c x r => Sys2Proof.Machine.execSend d a b c x r s
  | .sendm d a b c x r => Sys2Proof.Machine.execSendm d a b c x r s
  | .rst d a b x r => Sys2Proof.Machine.execRst d a b x r s
  | .rstDw d a b x r => Sys2Proof.Machine.execRstDw d a b x r s
  | .rstV d a b x r => Sys2Proof.Machine.execRstV d a b x r s
  | .ratom d a b x r o => Sys2Proof.Machine.execRatom d a b x r o s
  | .ratomD d a b x r o => Sys2Proof.Machine.execRatomD d a b x r o s
  | .recv d => Sys2Proof.Machine.execRecv d s
  | .recvM a b => Sys2Proof.Machine.execRecvM a b s
  | .recvSel d a => Sys2Proof.Machine.execRecvSel d a s
  | .tnew d a b => Sys2Proof.Machine.execTnew d a b s
  | .tdec d a b => Sys2Proof.Machine.execTdec d a b s
  | .spawn d a b => Sys2Proof.Machine.execSpawn d a b s
  | .istore d a b => Sys2Proof.Machine.execIstore d a b s
  | .istoreM d a b => Sys2Proof.Machine.execIstoreM d a b s
  | .trigArm d a b n => Sys2Proof.Machine.execTrigArm d a b n s
  | .trigClr d => Sys2Proof.Machine.execTrigClr d s
  | .cntset d a b => Sys2Proof.Machine.execCntset d a b s
  | .cntsetV d a => Sys2Proof.Machine.execCntsetV d a s
  | .cntrd d a => Sys2Proof.Machine.execCntrd d a s
  | .barJoin d a b => Sys2Proof.Machine.execBarJoin d a b s
  | .barJoinX a => Sys2Proof.Machine.execBarJoinX a s
  | .barLine d a => Sys2Proof.Machine.execBarLine d a s
  | .barArrive a => Sys2Proof.Machine.execBarArrive a s
  | .barWait a => Sys2Proof.Machine.execBarWait a s
  | .scopeOpen d => Sys2Proof.Machine.execScopeOpen d s
  | .scopeClose => Sys2Proof.Machine.execScopeClose s
  | .cancel d a => Sys2Proof.Machine.execCancel d a s
  | .combCfg a b => Sys2Proof.Machine.execCombCfg a b s
  | .combCfgRoot d a b => Sys2Proof.Machine.execCombCfgRoot d a b s
  | .folioLoad a => Sys2Proof.Machine.execFolioLoad a s
  | .folioRun d a => Sys2Proof.Machine.execFolioRun d a s
  | .cvtRne d a b x f t => Sys2Proof.Machine.execCvtRne d a b x f t s
  | .cvtRtz d a b f t => Sys2Proof.Machine.execCvtRtz d a b f t s
  | .cvtRdn d a b f t => Sys2Proof.Machine.execCvtRdn d a b f t s
  | .cvtRup d a b f t => Sys2Proof.Machine.execCvtRup d a b f t s
  | .cvts d a b f => Sys2Proof.Machine.execCvts d a b f s
  | .bkpack d a b x r k e => Sys2Proof.Machine.execBkpack d a b x r k e s
  | .bkunpack d a b x r k e => Sys2Proof.Machine.execBkunpack d a b x r k e s
  | .migr d a b => Sys2Proof.Machine.execMigr d a b s
  | .migrG d a b => Sys2Proof.Machine.execMigrG d a b s
  | .mapwrSlot d a b p => Sys2Proof.Machine.execMapwrSlot d a b p s
  | .mapwrDetour d a b p => Sys2Proof.Machine.execMapwrDetour d a b p s
  | .mapwrOwnership d a b p => Sys2Proof.Machine.execMapwrOwnership d a b p s
  | .mapwrDistbound d a b p => Sys2Proof.Machine.execMapwrDistbound d a b p s
  | .maprd d a => Sys2Proof.Machine.execMaprd d a s
  | .shoot d a b => Sys2Proof.Machine.execShoot d a b s
  | .almset d a b => Sys2Proof.Machine.execAlmset d a b s
  | .archive d a b => Sys2Proof.Machine.execArchive d a b s
  | .tileoff d a => Sys2Proof.Machine.execTileoff d a s
  | .eret => Sys2Proof.Machine.execEret s
  | .eccrd d a => Sys2Proof.Machine.execEccrd d a s
  | .mov a b => Sys2Proof.Machine.execMov a b s
  | .addCompact a b => Sys2Proof.Machine.execAddCompact a b s
  | .subCompact a b => Sys2Proof.Machine.execSubCompact a b s
  | .andCompact a b => Sys2Proof.Machine.execAndCompact a b s
  | .orCompact a b => Sys2Proof.Machine.execOrCompact a b s
  | .xorCompact a b => Sys2Proof.Machine.execXorCompact a b s
  | .addi5 a imm => Sys2Proof.Machine.execAddi5 a imm s
  | .shliCompact a n => Sys2Proof.Machine.execShliCompact a n s
  | .shriCompact a n => Sys2Proof.Machine.execShriCompact a n s
  | .sraiCompact a n => Sys2Proof.Machine.execSraiCompact a n s
  | .li5 a imm => Sys2Proof.Machine.execLi5 a imm s
  | .beqz a o => Sys2Proof.Machine.execBeqz a o s
  | .bnez a o => Sys2Proof.Machine.execBnez a o s
  | .ldwCompact a b => Sys2Proof.Machine.execLdwCompact a b s
  | .stwCompact a b => Sys2Proof.Machine.execStwCompact a b s
  | .jr a => Sys2Proof.Machine.execJr a s
  | .doneCompact => Sys2Proof.Machine.execDoneCompact s
  | .doneGCompact => Sys2Proof.Machine.execDoneGCompact s
  | .nopCompact => Sys2Proof.Machine.execNopCompact s
  | .cancelchkCompact => Sys2Proof.Machine.execCancelchkCompact s
  | .vauxValid => Sys2Proof.Machine.execVauxValid s
  | .vauxLost => Sys2Proof.Machine.execVauxLost s
  | .pwrenAsserted => Sys2Proof.Machine.execPwrenAsserted s
  | .powerOnStepEnd => Sys2Proof.Machine.execPowerOnStepEnd s
  | .powerOnStepLimit => Sys2Proof.Machine.execPowerOnStepLimit s
  | .startTimeWrite => Sys2Proof.Machine.execStartTimeWrite s
  | .pwrenDeasserted => Sys2Proof.Machine.execPwrenDeasserted s
  | .resetNAsserted => Sys2Proof.Machine.execResetNAsserted s
  | .attestationRequest => Sys2Proof.Machine.execAttestationRequest s
  | .managementRegisterWrite => Sys2Proof.Machine.execManagementRegisterWrite s
  | .sensorSample => Sys2Proof.Machine.execSensorSample s
  | .fieldThermalCheck => Sys2Proof.Machine.execFieldThermalCheck s
  | .thermalPause => Sys2Proof.Machine.execThermalPause s
  | .thermalResume => Sys2Proof.Machine.execThermalResume s
  | .almanacSlotBoundary => Sys2Proof.Machine.execAlmanacSlotBoundary s
  | .frameStart => Sys2Proof.Machine.execFrameStart s
  | .scrub => Sys2Proof.Machine.execScrub s
  | .epochTick => Sys2Proof.Machine.execEpochTick s
  | .timeExchange => Sys2Proof.Machine.execTimeExchange s
  | .transitTableCheck => Sys2Proof.Machine.execTransitTableCheck s
  | .stewardHeartbeat => Sys2Proof.Machine.execStewardHeartbeat s
  | .partnerLost => Sys2Proof.Machine.execPartnerLost s
  | .shadeRotation => Sys2Proof.Machine.execShadeRotation s
  | .migrationHalt => Sys2Proof.Machine.execMigrationHalt s
  | .migrationFreezeDone => Sys2Proof.Machine.execMigrationFreezeDone s
  | .migrationCopyLanded => Sys2Proof.Machine.execMigrationCopyLanded s
  | .migrationResume => Sys2Proof.Machine.execMigrationResume s
  | .migrationAbort => Sys2Proof.Machine.execMigrationAbort s
  | .forwardedArrival => Sys2Proof.Machine.execForwardedArrival s
  | .endMarker => Sys2Proof.Machine.execEndMarker s
  | .forwardingRetire => Sys2Proof.Machine.execForwardingRetire s
  | .finalMarker => Sys2Proof.Machine.execFinalMarker s
  | .cataloguePublish => Sys2Proof.Machine.execCataloguePublish s
  | .catalogueInvalidation => Sys2Proof.Machine.execCatalogueInvalidation s
  | .publishToken => Sys2Proof.Machine.execPublishToken s
  | .publishStallTimeout => Sys2Proof.Machine.execPublishStallTimeout s
  | .nameWalkDone => Sys2Proof.Machine.execNameWalkDone s
  | .hostQueueExamine => Sys2Proof.Machine.execHostQueueExamine s
  | .hostQueueRestart => Sys2Proof.Machine.execHostQueueRestart s
  | .cmpidxWrite => Sys2Proof.Machine.execCmpidxWrite s
  | .hostWindowWrite => Sys2Proof.Machine.execHostWindowWrite s
  | .launch => Sys2Proof.Machine.execLaunch s
  | .hostMessage => Sys2Proof.Machine.execHostMessage s
  | .withdrawLaunch => Sys2Proof.Machine.execWithdrawLaunch s
  | .hostCancel => Sys2Proof.Machine.execHostCancel s
  | .createCarrel => Sys2Proof.Machine.execCreateCarrel s
  | .destroyCarrel => Sys2Proof.Machine.execDestroyCarrel s
  | .archiveRequest => Sys2Proof.Machine.execArchiveRequest s
  | .restoreRequest => Sys2Proof.Machine.execRestoreRequest s
  | .gangPlace => Sys2Proof.Machine.execGangPlace s
  | .gangLoad => Sys2Proof.Machine.execGangLoad s
  | .stewardControlWrite => Sys2Proof.Machine.execStewardControlWrite s
  | .startMessage => Sys2Proof.Machine.execStartMessage s
  | .gangRetire => Sys2Proof.Machine.execGangRetire s
  | .completionNoticeWrite => Sys2Proof.Machine.execCompletionNoticeWrite s
  | .taskDispatch => Sys2Proof.Machine.execTaskDispatch s
  | .agingPromotion => Sys2Proof.Machine.execAgingPromotion s
  | .boostNotice => Sys2Proof.Machine.execBoostNotice s
  | .urgentRequest => Sys2Proof.Machine.execUrgentRequest s
  | .urgentAccept => Sys2Proof.Machine.execUrgentAccept s
  | .urgentOverrun => Sys2Proof.Machine.execUrgentOverrun s
  | .maskWindowTimeout => Sys2Proof.Machine.execMaskWindowTimeout s
  | .killCounterExpiry => Sys2Proof.Machine.execKillCounterExpiry s
  | .waitConditionMet => Sys2Proof.Machine.execWaitConditionMet s
  | .waitWatchdogExpiry => Sys2Proof.Machine.execWaitWatchdogExpiry s
  | .cancelNotice => Sys2Proof.Machine.execCancelNotice s
  | .cancelAck => Sys2Proof.Machine.execCancelAck s
  | .cancelDoneReport => Sys2Proof.Machine.execCancelDoneReport s
  | .retireNotice => Sys2Proof.Machine.execRetireNotice s
  | .retireAckComplete => Sys2Proof.Machine.execRetireAckComplete s
  | .messageArrival => Sys2Proof.Machine.execMessageArrival s
  | .slabMessage => Sys2Proof.Machine.execSlabMessage s
  | .rstArrival => Sys2Proof.Machine.execRstArrival s
  | .ratomArrival => Sys2Proof.Machine.execRatomArrival s
  | .ratomReply => Sys2Proof.Machine.execRatomReply s
  | .tdecArrival => Sys2Proof.Machine.execTdecArrival s
  | .spawnArrival => Sys2Proof.Machine.execSpawnArrival s
  | .istoreArrival => Sys2Proof.Machine.execIstoreArrival s
  | .getRequestArrival => Sys2Proof.Machine.execGetRequestArrival s
  | .getReplyArrival => Sys2Proof.Machine.execGetReplyArrival s
  | .putChunkArrival => Sys2Proof.Machine.execPutChunkArrival s
  | .performanceAck => Sys2Proof.Machine.execPerformanceAck s
  | .copyComplete => Sys2Proof.Machine.execCopyComplete s
  | .copyFaultEnd => Sys2Proof.Machine.execCopyFaultEnd s
  | .farRequest => Sys2Proof.Machine.execFarRequest s
  | .translationWalkDone => Sys2Proof.Machine.execTranslationWalkDone s
  | .farReplyArrival => Sys2Proof.Machine.execFarReplyArrival s
  | .edgePortSlot => Sys2Proof.Machine.execEdgePortSlot s
  | .shootAgentAck => Sys2Proof.Machine.execShootAgentAck s
  | .shootTimeout => Sys2Proof.Machine.execShootTimeout s
  | .pageInDone => Sys2Proof.Machine.execPageInDone s
  | .pageOutDone => Sys2Proof.Machine.execPageOutDone s
  | .lineZeroed => Sys2Proof.Machine.execLineZeroed s
  | .streamElementFetch => Sys2Proof.Machine.execStreamElementFetch s
  | .tensorCommandPerform => Sys2Proof.Machine.execTensorCommandPerform s
  | .kstepFire => Sys2Proof.Machine.execKstepFire s
  | .kstepComplete => Sys2Proof.Machine.execKstepComplete s
  | .tdrainPerform => Sys2Proof.Machine.execTdrainPerform s
  | .folioOpComplete => Sys2Proof.Machine.execFolioOpComplete s
  | .combineToken => Sys2Proof.Machine.execCombineToken s
  | .renormNotice => Sys2Proof.Machine.execRenormNotice s
  | .segmentMarker => Sys2Proof.Machine.execSegmentMarker s
  | .barrierArrival => Sys2Proof.Machine.execBarrierArrival s
  | .barrierDecrement => Sys2Proof.Machine.execBarrierDecrement s
  | .barrierReleaseNotice => Sys2Proof.Machine.execBarrierReleaseNotice s
  | .lineRelease => Sys2Proof.Machine.execLineRelease s
  | .linePhaseReport => Sys2Proof.Machine.execLinePhaseReport s
  | .routerFlitArrival => Sys2Proof.Machine.execRouterFlitArrival s
  | .linkGroup => Sys2Proof.Machine.execLinkGroup s
  | .linkDead => Sys2Proof.Machine.execLinkDead s
  | .deadRouter => Sys2Proof.Machine.execDeadRouter s
  | .peerFrame => Sys2Proof.Machine.execPeerFrame s
  | .peerPortDown => Sys2Proof.Machine.execPeerPortDown s
  | .cxlLinkDown => Sys2Proof.Machine.execCxlLinkDown s
  | .cxlLinkRetrain => Sys2Proof.Machine.execCxlLinkRetrain s
  | .correctableError => Sys2Proof.Machine.execCorrectableError s
  | .faultTaken => Sys2Proof.Machine.execFaultTaken s
  | .faultReply => Sys2Proof.Machine.execFaultReply s
  | .stewardException => Sys2Proof.Machine.execStewardException s
  | .unallocatedEncoding => Sys2Proof.Machine.execUnallocatedEncoding s
  | .peerPortUp => Sys2Proof.Machine.execPeerPortUp s
  | .cxlLinkReturned => Sys2Proof.Machine.execCxlLinkReturned s
  | .ideIntegrityFailure => Sys2Proof.Machine.execIdeIntegrityFailure s
  | .ideKmKeyExchange => Sys2Proof.Machine.execIdeKmKeyExchange s
  | .signedConfiguration => Sys2Proof.Machine.execSignedConfiguration s

end Sys2Proof.Machine
end

