-- ==== Sys2Proof/Machine/Turn.lean ====
section
/-!
DEFINITION. The next step of the machine from the schedule (log entry 4): the environment's next entry, or, with none, the tile in focus.
-/

namespace Sys2Proof.Machine

/-- A bit error appears in an 8-byte word of the tile in focus (R345, R346): `w` counts the data SRAM's words or the instruction store's. -/
def State.upset (s : State) (ist hard : Bool) (w : Nat) : State :=
  let v := s.tile.view
  if (if ist then 2048 else 12288) ≤ w then s
  else if !hard then { s with tile.view := { v with soft := if v.soft.contains (ist, w) then v.soft else v.soft ++ [(ist, w)] } }
  else if ist then { s with tile.view := { v with badIst := if v.badIst.contains w then v.badIst else v.badIst ++ [w] } }
  else { s with tile.view := { v with bad := if v.bad.contains w then v.bad else v.bad ++ [w] } }

/-- The segment of barrier line `n` at a tile sticks low or high, or is whole again (R394). -/
def State.stick (s : State) (p : Phys) (n : BitVec 2) (v : Option Bool) : State :=
  let rest := s.wafer.stuck.filter fun x => !(x.1 == p && x.2.1 == n)
  { s with wafer.stuck := match v with
      | some b => (p, n, b) :: rest
      | none => rest }

/-- The next chunk of the copy in a slot; slot 16 is the replay's next operation (R160), and slot 17 the fired operations that wait (R313). -/
def State.chunkTurn (s : State) (slot : Nat) : State :=
  if slot = 16 then s.issueFolio else if slot = 17 then s.retryFires else s.issueChunk slot

/-- The environment's entry is taken: what it makes of the machine. An entry that names an instruction with an encoding asks for nothing. -/
def State.take (s : State) : Sched → Turn
  | .event p e x => if isEvent e then .run e { s.focus p with inp := x } else .rest s
  | .issue p k => (s.focus p).turnHere fun _ => k
  | .delay n => .rest (s.elapse n)
  | .chunk p slot => .rest ((s.focus p).chunkTurn slot)
  | .upset p ist hard w => .rest ((s.focus p).upset ist hard w)
  | .stick p n v => .rest (s.stick p n v)

/-- The next step (log entry 4); with no entry left the queue of the tile in focus performs a store a clk (log entry 8). -/
def State.turn (s : State) : Turn :=
  match s.sched with
  | [] => s.turnHere id
  | x :: xs => ({ s with sched := xs }).take x

end Sys2Proof.Machine
end

