-- ==== Sys2Proof/Machine/Step.lean ====
section
/-!
DEFINITION. One step of the machine.
-/

namespace Sys2Proof.Machine

/-- One step: the meaning that comes next, or a step that runs none. -/
def step (s : State) : Host.Outcome State Fault Refusal :=
  match s.turn with
  | .run i s => exec i s
  | .rest s => .next s

/-- Nothing stands before the fetch of the tile in focus: the schedule is empty, the residency runs at its pc, no timer is due, no fault,
urgent header, steward event or migration waits (log entry 1: how a program comes to run). -/
def State.readyToFetch (s : State) : State :=
  let t := s.tile
  let s := if s.fld.paused then s.updFld fun f => { f with paused := false } else s
  { s with
    sched := [],
    tile := { t with
      core := { t.core with phase := .running, wait := none, mask := none, urgentClk := 0, cur := { t.core.cur with kill := none } },
      stop := { t.stop with faulted := none, pend := [], archived := false, off := false },
      view := { t.view with epochClk := 0 },
      task := { t.task with urgents := [], rings := t.task.rings.map fun e => { e with age := 0 } },
      net := { t.net with mig := none },
      stw := { t.stw with exns := [] } } }

/-- The instruction whose bits are `w` at the pc of the tile in focus, ready to be fetched. -/
def State.withFetchWord (s : State) (nbits w : Nat) : State :=
  let s := s.readyToFetch
  let pc := s.tile.core.cur.pc.toNat
  { s with tile.view := { s.tile.view with
      ist := s.tile.view.ist.setParcels pc (tableParcels nbits w),
      badIst := s.tile.view.badIst.filter fun x => x ≠ pc / 4 ∧ x ≠ (pc + 1) / 4 } }

end Sys2Proof.Machine
end

