-- ==== Sys2Proof/Safety.lean ====
section
/-!
DEFINITION. The terms in which claims speak of a step: when an instruction issues and falls through, the state it then leaves, what a
frame says, and the invariant of every step.
-/

namespace Sys2Proof.Machine

/-- A step that answers a next state: neither a stop of the model nor a refusal. -/
def Completes (o : Host.Outcome State Fault Refusal) : Prop := ∃ s, o = .next s

/-- The pc of the tile in focus. -/
def State.pcNat (s : State) : Nat := s.tile.core.cur.pc.toNat

/-- `i` issues at the pc: its fields are allocated (R353), it straddles no open loop's end (R240), and none of the scalar registers `reads`
carries a token mark (R93). -/
def State.issues (s : State) (i : Instr) (reads : List Reg) : Bool :=
  i.wf && (s.straddled i).isNone && (s.stalledOn reads).isNone

/-- `i` issues, and falls through when it completes: no open loop's body ends after it (R240), and the parcel that follows lies in the
store (R352). -/
def State.clear (s : State) (i : Instr) (reads : List Reg) : Bool :=
  s.issues i reads && s.tile.core.cur.loops.all (fun l => l.stop != s.pcNat + i.parcels) && decide (s.pcNat + i.parcels < 0x2000)

/-- The running level goes on `n` parcels further: no wait is open, and at the normal level the residency is Running (R24). -/
def State.after (s : State) (n : Nat) : State :=
  { s with tile.core := { s.tile.core with
      wait := none, phase := if s.urgent then s.tile.core.phase else .running,
      cur := { s.tile.core.cur with pc := s.tile.core.cur.pc + BitVec.ofNat 13 n } } }

/-- The running level goes on at parcel address `t`. -/
def State.goesTo (s : State) (t : Nat) : State :=
  { s with tile.core := { s.tile.core with
      wait := none, phase := if s.urgent then s.tile.core.phase else .running, cur := { s.tile.core.cur with pc := BitVec.ofNat 13 t } } }

/-- A transfer to parcel address `t` leaves the open loops as they are: none is open, or `t` lies in the innermost body (R241). -/
def State.staysAt (s : State) (t : Nat) : Bool := match s.tile.core.cur.loops with
  | [] => true
  | l :: _ => decide (l.start ≤ t) && decide (t < l.stop)

/-- The state in which core accesses are checked: where a word's check bits fail, the store queue has drained. -/
def State.settled (s : State) : State := if s.tile.view.bad = [] then s else s.drained

/-- The core accesses of a list (R263) are all granted; each is (address, bytes, store, core load). -/
def State.grants (s : State) (l : List (Nat × Nat × Bool × Bool)) : Bool := s.settled.tile.checkAll l == .ok

/-- The state in which granted accesses act: the page map has noted them (R76). -/
def State.noted (s : State) (l : List (Nat × Nat × Bool × Bool)) : State := s.settled.noteAll l

/-- The byte that a core load of local address `a` would give (R118). -/
def State.localByte (s : State) (a : Nat) : Byte := s.tile.view.coreMem.read a

/-- A tile's view and instruction store are in canonical form. -/
def Tile.memoriesCanonical (t : Tile) : Bool := t.view.mem.wf && t.view.ist.wf

/-- Every memory is in canonical form: those of the tiles and of the tiles in archives, far memory, and the memories of the host ports. -/
def State.memoriesCanonical (s : State) : Bool :=
  (s.tile :: s.rest).all Tile.memoriesCanonical && s.wafer.far.wf && s.wafer.edge.all (fun e => e.2.wf)
    && s.carrels.all fun c => c.image.all fun a => a.tiles.all fun x => x.2.2.memoriesCanonical

end Sys2Proof.Machine
end

