-- ==== Sys2Proof/Certificates/Slice0/Obligations.lean ====
section
/-!
DEFINITION. The statements for the provers. A statement that an instruction completes names the whole state that it leaves, so that what
it leaves unchanged is said with what it changes. The tables below are written from the rules that their docstrings cite.
-/

namespace Sys2Proof.Claims

open Sys2Proof Sys2Proof.Machine

/-- What a scalar instruction writes: the register, the registers it reads, and the value. -/
abbrev Written := Reg × List Reg × Word

/-- A condition as a word. -/
def bool (b : Bool) : Word := if b then 1 else 0

/-- R224, by its table. -/
def arithmetic (s : State) : Instr → Option Written
  | .add d a b => some (d, [a, b], BitVec.ofNat 32 ((s.sr a).toNat + (s.sr b).toNat))
  | .sub d a b => some (d, [a, b], BitVec.ofInt 32 ((s.sr a).toInt - (s.sr b).toInt))
  | .adds d a b => some (d, [a, b], BitVec.ofInt 32 (max (-2 ^ 31) (min (2 ^ 31 - 1) ((s.sr a).toInt + (s.sr b).toInt))))
  | .subs d a b => some (d, [a, b], BitVec.ofInt 32 (max (-2 ^ 31) (min (2 ^ 31 - 1) ((s.sr a).toInt - (s.sr b).toInt))))
  | .and d a b => some (d, [a, b], s.sr a &&& s.sr b)
  | .or d a b => some (d, [a, b], s.sr a ||| s.sr b)
  | .xor d a b => some (d, [a, b], s.sr a ^^^ s.sr b)
  | .andn d a b => some (d, [a, b], s.sr a &&& ~~~s.sr b)
  | .orn d a b => some (d, [a, b], s.sr a ||| ~~~s.sr b)
  | .slt d a b => some (d, [a, b], bool (decide ((s.sr a).toInt < (s.sr b).toInt)))
  | .sltu d a b => some (d, [a, b], bool (decide ((s.sr a).toNat < (s.sr b).toNat)))
  | .min d a b => some (d, [a, b], BitVec.ofInt 32 (min (s.sr a).toInt (s.sr b).toInt))
  | .max d a b => some (d, [a, b], BitVec.ofInt 32 (max (s.sr a).toInt (s.sr b).toInt))
  | .minu d a b => some (d, [a, b], BitVec.ofNat 32 (min (s.sr a).toNat (s.sr b).toNat))
  | .maxu d a b => some (d, [a, b], BitVec.ofNat 32 (max (s.sr a).toNat (s.sr b).toNat))
  | _ => none

/-- R225, by its table. -/
def immediate (s : State) : Instr → Option Written
  | .addi d a i => some (d, [a], BitVec.ofInt 32 ((s.sr a).toInt + i.toInt))
  | .andi d a i => some (d, [a], s.sr a &&& BitVec.ofInt 32 i.toInt)
  | .ori d a i => some (d, [a], s.sr a ||| BitVec.ofInt 32 i.toInt)
  | .xori d a i => some (d, [a], s.sr a ^^^ BitVec.ofInt 32 i.toInt)
  | .slti d a i => some (d, [a], bool (decide ((s.sr a).toInt < i.toInt)))
  | .sltiu d a i => some (d, [a], bool (decide ((s.sr a).toNat < (BitVec.ofInt 32 i.toInt).toNat)))
  | _ => none

/-- The shifts of R226 by an amount taken whole. -/
def shifted (x : Word) (n : Nat) : Nat → Word
  | 0 => BitVec.ofNat 32 (x.toNat * 2 ^ n)
  | 1 => BitVec.ofNat 32 (x.toNat / 2 ^ n)
  | 2 => BitVec.ofInt 32 (x.toInt / 2 ^ n)
  | _ => BitVec.ofNat 32 (x.toNat * 2 ^ (n % 32) + x.toNat / 2 ^ (32 - n % 32))

/-- R226 and R227, by their tables. -/
def shift (s : State) : Instr → Option Written
  | .shl d a b => some (d, [a, b], shifted (s.sr a) (s.sr b).toNat 0)
  | .shr d a b => some (d, [a, b], shifted (s.sr a) (s.sr b).toNat 1)
  | .sra d a b => some (d, [a, b], shifted (s.sr a) (s.sr b).toNat 2)
  | .rot d a b => some (d, [a, b], shifted (s.sr a) (s.sr b).toNat 3)
  | .shli d a n => some (d, [a], shifted (s.sr a) n.toNat 0)
  | .shri d a n => some (d, [a], shifted (s.sr a) n.toNat 1)
  | .srai d a n => some (d, [a], shifted (s.sr a) n.toNat 2)
  | .roti d a n => some (d, [a], shifted (s.sr a) n.toNat 3)
  | _ => none

/-- The quotient and the remainder of R231: truncated toward zero, with the case of y = 0 and that of the greatest quotient. -/
def quotient (x y : Word) : Word :=
  if y = 0 then 0xFFFFFFFF else if x = 0x80000000 ∧ y = 0xFFFFFFFF then 0x80000000 else BitVec.ofInt 32 (x.toInt.tdiv y.toInt)
def remainder (x y : Word) : Word :=
  if y = 0 then x else if x = 0x80000000 ∧ y = 0xFFFFFFFF then 0 else BitVec.ofInt 32 (x.toInt - y.toInt * x.toInt.tdiv y.toInt)

/-- R230 and R231. -/
def multiply (s : State) : Instr → Option Written
  | .mul d a b => some (d, [a, b], BitVec.ofNat 32 ((s.sr a).toNat * (s.sr b).toNat))
  | .mulh d a b => some (d, [a, b], BitVec.ofInt 32 ((s.sr a).toInt * (s.sr b).toInt / 2 ^ 32))
  | .mulhu d a b => some (d, [a, b], BitVec.ofNat 32 ((s.sr a).toNat * (s.sr b).toNat / 2 ^ 32))
  | .div d a b => some (d, [a, b], quotient (s.sr a) (s.sr b))
  | .divu d a b => some (d, [a, b], if s.sr b = 0 then 0xFFFFFFFF else BitVec.ofNat 32 ((s.sr a).toNat / (s.sr b).toNat))
  | .rem d a b => some (d, [a, b], remainder (s.sr a) (s.sr b))
  | .remu d a b => some (d, [a, b], if s.sr b = 0 then s.sr a else BitVec.ofNat 32 ((s.sr a).toNat % (s.sr b).toNat))
  | _ => none

/-- R228, R229 and R232 to R235. -/
def bitwise (s : State) : Instr → Option Written
  | .clz d a => some (d, [a], clzWord (s.sr a))
  | .ctz d a => some (d, [a], ctzWord (s.sr a))
  | .popc d a => some (d, [a], popcWord (s.sr a))
  | .brev d a => some (d, [a], brevWord (s.sr a))
  | .fshl d a b c => some (d, [a, b, c],
      ((s.sr a ++ s.sr b) <<< (min (s.sr c).toNat 32)).extractLsb' 32 32)
  | .fshr d a b c => some (d, [a, b, c], ((s.sr a ++ s.sr b) >>> (min (s.sr c).toNat 32)).setWidth 32)
  | .bfx d a w p => some (d, [a], (s.sr a >>> p.toNat) &&& BitVec.ofNat 32 (2 ^ (w.toNat + 1) - 1))
  | .bfi d a w p => some (d, [a, d],
      let m := BitVec.ofNat 32 ((2 ^ (w.toNat + 1) - 1) * 2 ^ p.toNat)
      (s.sr d &&& ~~~m) ||| ((s.sr a <<< p.toNat) &&& m))
  | .lut3 d a b t => some (d, [a, b, d], lut3Bits t (s.sr a) (s.sr b) (s.sr d))
  | .crcw d a b => some (d, [a, b], crcWord (s.sr a) (s.sr b))
  | .li d i => some (d, [], BitVec.ofInt 32 i.toInt)
  | .lui d i => some (d, [], BitVec.ofNat 32 (i.toNat * 2 ^ 13))
  | _ => none

/-- The compact instructions of R200 that write a scalar register, with what their 32-bit equivalents write. -/
def compact (s : State) : Instr → Option Written
  | .mov a b => some (a, [b], s.sr b)
  | .addCompact a b => some (a, [a, b], BitVec.ofNat 32 ((s.sr a).toNat + (s.sr b).toNat))
  | .subCompact a b => some (a, [a, b], BitVec.ofInt 32 ((s.sr a).toInt - (s.sr b).toInt))
  | .andCompact a b => some (a, [a, b], s.sr a &&& s.sr b)
  | .orCompact a b => some (a, [a, b], s.sr a ||| s.sr b)
  | .xorCompact a b => some (a, [a, b], s.sr a ^^^ s.sr b)
  | .addi5 a i => some (a, [a], BitVec.ofInt 32 ((s.sr a).toInt + i.toInt))
  | .shliCompact a n => some (a, [a], shifted (s.sr a) n.toNat 0)
  | .shriCompact a n => some (a, [a], shifted (s.sr a) n.toNat 1)
  | .sraiCompact a n => some (a, [a], shifted (s.sr a) n.toNat 2)
  | .li5 a i => some (a, [], BitVec.ofInt 32 i.toInt)
  | _ => none

/-- Every instruction whose whole effect is to write one scalar register with a function of scalar registers. -/
def scalar (s : State) (i : Instr) : Option Written :=
  (((((arithmetic s i).or (immediate s i)).or (shift s i)).or (multiply s i)).or (bitwise s i)).or (compact s i)

/-- An instruction that is clear at `s` writes its value and falls through. -/
def Writes (table : State → Instr → Option Written) : Prop :=
  ∀ (s : State) (i : Instr) (d : Reg) (rs : List Reg) (x : Word),
    table s i = some (d, rs, x) → s.clear i rs = true → exec i s = .next ((s.setS d x).after i.parcels)

end Sys2Proof.Claims

open Sys2Proof Sys2Proof.Machine Sys2Proof.Claims

/-- R224 to R227, R230, R231: each form of the ALU, immediate, shift, multiply and divide groups sets d to its function of its operands, a shift's
amount taken whole and a divide's two special cases decided, and does nothing else. -/
def Obligations.IntegerArithmetic : Prop :=
  Writes arithmetic ∧ Writes immediate ∧ Writes shift ∧ Writes multiply

/-- R228, R229, R232 to R235, R200: bit counts, funnel shifts, bit fields, LUT3, CRCW, constants and the compact forms set d to their values,
and do nothing else; what the counts, BREV and LUT3 compute is said bit by bit. -/
def Obligations.BitOperations : Prop :=
  Writes bitwise ∧ Writes compact ∧
  ∀ (x y z : Word) (t : BitVec 8) (i : Nat), i < 32 →
    (brevWord x).getLsbD i = x.getLsbD (31 - i) ∧
    (lut3Bits t x y z).getLsbD i = t.getLsbD (4 * (x.getLsbD i).toNat + 2 * (y.getLsbD i).toNat + (z.getLsbD i).toNat) ∧
    (popcWord x).toNat = ((List.range 32).filter fun k => x.getLsbD k).length ∧
    (x ≠ 0 → x.getLsbD (31 - (clzWord x).toNat) = true ∧ (i < (clzWord x).toNat → x.getLsbD (31 - i) = false) ∧
      x.getLsbD (ctzWord x).toNat = true ∧ (i < (ctzWord x).toNat → x.getLsbD i = false)) ∧
    (x = 0 → clzWord x = 32 ∧ ctzWord x = 32)

namespace Sys2Proof.Claims

/-- A branch or jump at `s`: the registers it reads, whether it is taken, its target, and the register that gets the return address
(R236, R237; R200 for the compact forms). -/
def transfers (s : State) : Instr → Option (List Reg × Bool × Word × Option Reg)
  | .beq o t x => some ([x, t], decide (s.sr x = s.sr t), s.pcWord + o.signExtend 32, none)
  | .bne o t x => some ([x, t], decide (s.sr x ≠ s.sr t), s.pcWord + o.signExtend 32, none)
  | .blt o t x => some ([x, t], decide ((s.sr x).toInt < (s.sr t).toInt), s.pcWord + o.signExtend 32, none)
  | .bge o t x => some ([x, t], decide ((s.sr t).toInt ≤ (s.sr x).toInt), s.pcWord + o.signExtend 32, none)
  | .bltu o t x => some ([x, t], decide ((s.sr x).toNat < (s.sr t).toNat), s.pcWord + o.signExtend 32, none)
  | .bgeu o t x => some ([x, t], decide ((s.sr t).toNat ≤ (s.sr x).toNat), s.pcWord + o.signExtend 32, none)
  | .beqz a o => some ([a, 0], decide (s.sr a = 0), s.pcWord + o.signExtend 32, none)
  | .bnez a o => some ([a, 0], decide (s.sr a ≠ 0), s.pcWord + o.signExtend 32, none)
  | .jal d o => some ([], true, s.pcWord + o.signExtend 32, some d)
  | .jalr d a o => some ([a], true, s.sr a + o.signExtend 32, some d)
  | .jr a => some ([a], true, s.sr a, none)
  | _ => none

/-- The return address in its register. -/
def linked (s : State) (i : Instr) : Option Reg → State
  | none => s
  | some d => s.setS d (s.pcWord + BitVec.ofNat 32 i.parcels)

/-- A new loop (R239): count n, body from the parcel after the instruction, of a length. -/
def opened (s : State) (n : Word) (len : Nat) (k : Bool) : State :=
  { s with tile.core.cur.loops := { start := s.pcNat + 2, stop := s.pcNat + 2 + len, kill := k, left := n - 1 } :: s.tile.core.cur.loops }

/-- A loop instruction (R239): the registers it reads, its count, length and K. -/
def loops (s : State) : Instr → Option (List Reg × Word × Nat × Bool)
  | .loop a l k => some ([a], s.sr a, l.toNat, k == 1)
  | .loopi c l k => some ([], c.setWidth 32, l.toNat, k == 1)
  | _ => none

/-- A further loop may be opened (R239): fewer than two are open, and the body lies inside the open one. -/
def mayOpen (s : State) (stop : Nat) : Bool :=
  decide (stop ≤ 0x2000) && match s.tile.core.cur.loops with
    | [] => true
    | [l] => decide (stop ≤ l.stop)
    | _ => false

/-- Instructions that at the normal level, with nothing to do, or with a latch, window or fence to act on, complete at once: what they
leave (R200, R245 to R248). -/
def quiet (s : State) : Instr → Option State
  | .nop => some s
  | .nopCompact => some s
  | .cancelchk => if s.workCovered then none else some s
  | .cancelchkCompact => if s.workCovered then none else some s
  | .mask => some (if s.urgent || s.tile.core.mask.isSome then s else { s with tile := { s.tile with core.mask := some 0, core.maskPages := [] } })
  | .unmask => some (if s.urgent then s else { s with tile := { s.tile with core.mask := none, core.maskPages := [] } })
  | .sleep m =>
    if s.urgent || s.tile.core.latch &&& m.setWidth 8 = 0 then none
    else some { s with tile.core.latch := s.tile.core.latch &&& ~~~(m.setWidth 8) }
  | .fence x => if s.urgent || !s.released x.toNat then none else some s
  | _ => none

/-- DONE, DONE.G and YIELD end the running work of the normal level (R242 to R244); the state of R24 that follows. -/
def ends : Instr → Option Phase
  | .done => some .idle
  | .doneCompact => some .idle
  | .doneG => some .finished
  | .doneGCompact => some .finished
  | .yield => some .idle
  | _ => none

/-- One more on the reduction tree of the residency's gang (R56, R243). -/
def counted (s : State) : State :=
  s.updCarrel s.tile.id.carrel.toNat fun c => c.updGang s.tile.id.gang.toNat fun g => { g with count := g.count + 1 }

/-- What DONE leaves as it stands (R242): memberships, and slots, marks and copies of scopes that no cancel notice covers; those of a covered scope are
acted on as their work ends (R36), but for the marks of operations that no kill clears. With no notice the registers, the streams and the tensor unit stay too. -/
def Inherits (s t : State) : Prop :=
  t.tile.task.members = s.tile.task.members ∧ t.tile.task.armed = (s.tile.task.armed.filter fun a => !s.coveredBy a.scope) ∧
    t.tile.net.marks = (s.tile.net.marks.filter fun m => m.plain || !s.coveredBy m.scope) ∧
    t.tile.strm.copies = (s.tile.strm.copies.filter fun c => !s.coveredBy c.scope) ∧
    (s.tile.task.cancels = [] → t.tile.core.normal = s.tile.core.normal ∧ t.tile.strm = { s.tile.strm with farWord := none } ∧
      t.tile.tens = s.tile.tens)

end Sys2Proof.Claims

/-- R236 to R238: a taken branch or jump inside the open loops writes its return address and goes to its target; an untaken branch sets
pc := next_pc; a target outside the store raises the fetch-range fault with the registers and the pc unchanged. -/
def Obligations.BranchesAndJumps : Prop :=
  ((∀ (s : State) (i : Instr) (rs : List Reg) (t : Word) (d : Option Reg), transfers s i = some (rs, true, t, d) → s.issues i rs = true →
    t.toNat < 0x2000 → s.staysAt t.toNat = true → exec i s = .next ((linked s i d).goesTo t.toNat)) ∧
  (∀ (s : State) (i : Instr) (rs : List Reg) (t : Word) (d : Option Reg), transfers s i = some (rs, false, t, d) → s.clear i rs = true →
    exec i s = .next (s.after i.parcels))) ∧
  (∀ (s : State) (i : Instr) (rs : List Reg) (t : Word) (d : Option Reg), transfers s i = some (rs, true, t, d) → s.issues i rs = true →
    0x2000 ≤ t.toNat → exec i s = .next (s.precise { code := 0x04, addr := t }))

/-- R239, R240: LOOP and LOOPI open a loop whose count is the iterations still to begin, and enter its body; a count of 0 skips the body, and past the
store's end is the fetch-range fault; a third open loop, and a body that ends beyond the open one, fault. At the iteration boundary of the one open loop a count that is not 0 is decremented
and the body begins again; at 0 the loop is closed and the pc is its end. -/
def Obligations.HardwareLoops : Prop :=
  ((∀ (s : State) (i : Instr) (rs : List Reg) (n : Word) (len : Nat) (k : Bool), loops s i = some (rs, n, len, k) → s.issues i rs = true →
    (n ≠ 0 → mayOpen s (s.pcNat + 2 + len) = true → exec i s = .next ((opened s n len k).goesTo (s.pcNat + 2))) ∧
    (n = 0 → s.pcNat + 2 + len < 0x2000 → s.staysAt (s.pcNat + 2 + len) = true → exec i s = .next (s.goesTo (s.pcNat + 2 + len))) ∧
    (n = 0 → s.pcNat + 2 + len = 0x2000 → exec i s = .next (s.precise { code := 0x04, addr := 0x2000, info := 1 }))) ∧
  (∀ (s : State) (i : Instr) (rs : List Reg) (n : Word) (len : Nat) (k : Bool), loops s i = some (rs, n, len, k) → s.issues i rs = true →
    n ≠ 0 → s.pcNat + 2 + len ≤ 0x2000 →
    (2 ≤ s.tile.core.cur.loops.length → exec i s = .next (s.precise { code := 0x05, addr := BitVec.ofNat 32 (s.pcNat + 2 + len) })) ∧
    (∀ l, s.tile.core.cur.loops = [l] → l.stop < s.pcNat + 2 + len →
      exec i s = .next (s.precise { code := 0x06, addr := BitVec.ofNat 32 (s.pcNat + 2 + len), info := BitVec.ofNat 32 l.stop })))) ∧
  (∀ (s : State) (i : Instr) (d : Reg) (rs : List Reg) (x : Word) (l : Loop), scalar s i = some (d, rs, x) → s.issues i rs = true →
    s.tile.core.cur.loops = [l] → l.stop = s.pcNat + i.parcels → l.start < 0x2000 → l.stop < 0x2000 → l.kill = false →
    exec i s = .next (if l.left = 0 then { (s.setS d x).goesTo l.stop with tile.core.cur.loops := [] }
      else { (s.setS d x).goesTo l.start with tile.core.cur.loops := [{ l with left := l.left - 1 }] }))

/-- R245 to R248 and R200: NOP, CANCELCHK on work that is not covered, MASK, UNMASK, SLEEP with its event latched, and a fence with nothing
outstanding in its scope complete at once. -/
def Obligations.QuietInstructions : Prop :=
  ∀ (s t : State) (i : Instr), quiet s i = some t → s.clear i [] = true → exec i s = .next (t.after i.parcels)

/-- R242 to R244, R51: at the normal level DONE, DONE.G and YIELD of work that is no task end the work: the open loops and the masked window close,
and what R242 lists stays as it is; DONE.G adds one on the gang's reduction tree. DONE at the urgent level restores what the normal level held.
YIELD in a task pushes its record to the ring of its class and ends the task. -/
def Obligations.EndOfWork : Prop :=
  (∀ (s : State) (i : Instr) (ph : Phase), ends i = some ph → s.issues i [] = true → s.urgent = false →
    (i = .yield → ∀ a, s.tile.core.cur.work ≠ .task a) →
    ∃ t, exec i s = .next t ∧ t.tile.core.phase = ph ∧ t.tile.core.cur.loops = [] ∧ t.tile.core.mask = none ∧ Inherits s t ∧
      t.carrels = if ph = .finished then (counted s).carrels else s.carrels) ∧
  (∀ (s : State) (i : Instr) (c : Ctx), (i = .done ∨ i = .doneCompact) → s.issues i [] = true → s.urgent = true →
    s.tile.core.halt = some c → s.coveredBy c.scope = false → s.tile.stop.reply = none →
    ∃ t, exec i s = .next t ∧ t.urgent = false ∧ t.tile.core.cur = c ∧ t.tile.core.halt = none ∧ t.tile.core.phase = s.tile.core.phase ∧
      (s.tile.task.cancels = [] → t.tile.core.normal = s.tile.core.normal) ∧ t.tile.core.shadow = s.tile.core.shadow) ∧
  (∀ (s : State) (a : Word), s.issues .yield [] = true → s.urgent = false → s.tile.core.cur.work = .task a → s.tile.task.overflow = [] →
    s.drained.tile.view.bad = [] → s.coveredBy (s.drained.tile.recScope a.toNat) = false → s.tile.ringCount s.tile.core.cur.prio < 256 →
    ∃ t, exec .yield s = .next t ∧ t.tile.core.phase = .idle ∧ t.tile.task.rings =
      s.tile.task.rings ++
        [{ work := .task a, prio := s.tile.core.cur.prio, scope := s.drained.tile.recScope a.toNat,
           slot := ringPlace s.tile.task.rings s.tile.core.cur.prio }])

/-- R249, R207: MFC gives the register that the number names, c.time with its upper half latched in c.timeh; MTC writes it, and a read-only
register ignores it. -/
def Obligations.ControlRegisters : Prop :=
  (∀ (s : State) (d : Reg) (n : BitVec 7), s.clear (.mfc d n) [] = true → ctlListed n.toNat = true →
    (ctlSteward n.toNat = true → s.onSteward = true) →
    (n ≠ 0x18 → exec (.mfc d n) s = .next ((s.setS d (s.ctl n.toNat)).after 2)) ∧
    (n = 0x18 → ∃ t, exec (.mfc d n) s = .next t ∧ (d ≠ 0 → t.sr d = BitVec.ofNat 32 t.fld.ns) ∧
      t.tile.core.timeh = BitVec.ofNat 32 (t.fld.ns / 2 ^ 32))) ∧
  (∀ (s : State) (a : Reg) (n : BitVec 7), s.clear (.mtc a n) [a] = true → ctlListed n.toNat = true →
    (ctlSteward n.toNat = true → s.onSteward = true) →
    exec (.mtc a n) s = .next ((s.setCtl n.toNat (s.sr a)).after 2) ∧
    (n = 0x13 → (s.setCtl n.toNat (s.sr a)).tile.core.tstat = s.tile.core.tstat &&& ~~~((s.sr a).setWidth 10)) ∧
    (n = 0x15 → (s.setCtl n.toNat (s.sr a)).tile.core.seed = s.sr a) ∧
    (n = 0x60 → (s.setCtl n.toNat (s.sr a)).tile.stw.sepc = (s.sr a).setWidth 13) ∧
    (n.toNat < 0x10 ∨ (0x16 ≤ n.toNat ∧ n ≠ 0x60) → s.setCtl n.toNat (s.sr a) = s))

/-- R250, R252, R366: TRAP raises the software trap with its code. On a steward tile a TRAP is an exception whose return address is the next
instruction, and a fault of an instruction is one that saves its pc; each names its code and sets the pc to handler 14. ERET ends the exception
and goes to the saved pc. A fault or a TRAP while an exception is active stops the steward, which then runs nothing, and its partner treats it as
lost; a steward event raised meanwhile is held and stops nothing. -/
def Obligations.StewardExceptions : Prop :=
  (∀ (s : State) (c : BitVec 14), s.issues (.trap c) [] = true →
    (s.onSteward = false → exec (.trap c) s = .next (s.precise { code := 0x90, info := c.setWidth 32 })) ∧
    (s.onSteward = true → s.tile.stw.active = false → ∃ t, exec (.trap c) s = .next t ∧ t.tile.stw.sepc = s.tile.core.cur.pc + 2 ∧
      t.tile.stw.scause.toNat % 256 = 0x90 ∧ t.tile.stw.active = true ∧ t.tile.core.cur.pc = (s.tile.handler 14).1) ∧
    (s.onSteward = true → s.tile.stw.active = true → ∃ t, exec (.trap c) s = .next t ∧ t.tile.stop.off = true ∧ t.tile.stw = s.tile.stw ∧
      t.bank = s.bank ∧ t.tile.core.cur = s.tile.core.cur)) ∧
  (∀ (s : State) (f : FaultRec), s.onSteward = true →
    (s.tile.stw.active = false → ∃ t, s.precise f = t ∧ t.tile.stw.sepc = s.tile.core.cur.pc ∧ t.tile.stw.scause = f.code.setWidth 16 ∧
      t.tile.stw.active = true ∧ t.tile.core.cur.pc = (s.tile.handler 14).1 ∧ t.tile.stop.faddr = f.addr ∧ t.tile.stop.finfo = f.info ∧
      t.tile.core.normal = s.tile.core.normal ∧ t.tile.view.mem = s.tile.view.mem) ∧
    (s.tile.stw.active = true → s.precise f = { s.countHard f with tile.stop.off := true })) ∧
  (∀ (s : State), s.issues .eret [] = true → s.onSteward = true → s.staysAt s.tile.stw.sepc.toNat = true →
    exec .eret s = .next ({ s with tile.stw.active := false }.goesTo s.tile.stw.sepc.toNat)) ∧
  (∀ (s : State), s.tile.stop.off = true → s.sched = [] → s.dueAlways = none → step s = .next (s.tick 1 1)) ∧
  (∀ (s : State) (m : Bool) (f : Nat × Nat), f = s.tile.phys.field → (s.tileAt (if m then mirrorSteward f else actingSteward f)).stop.off = true →
    m ∉ s.fld.stewardsLost → s.liveSteward f (!m) = true → exec .partnerLost s = .next (s.lose f m)) ∧
  (∀ (t : Tile) (e : Exn), t.stw.exns.length < 64 → t.stewardEvent e = { t with stw.exns := t.stw.exns ++ [e] })

/-- R338, R336: a precise fault of work that no cancel covers, on a residency that is not Faulted and whose gang is not ended by it: the
fault registers are written, the level halts, and the registers, the pc and memory stay. -/
def Obligations.FaultEntry : Prop :=
  ∀ (s : State) (f : FaultRec), s.onSteward = false → s.tile.stop.faulted = none → f.hard = false → s.workCovered = false →
    (s.urgent = true ∨ s.tile.core.phase = .running ∨ s.tile.core.phase = .waiting) →
    (s.myGang = none ∨ ∃ n p, s.receiver = some (n, p) ∧ p ≠ s.tile.phys ∧ s.receives p = true) →
    ∃ t, s.precise f = t ∧ t.tile.stop.faulted = some s.tile.core.level ∧ t.tile.stop.fpc = s.tile.core.cur.pc ∧
      t.tile.stop.faddr = f.addr ∧ t.tile.stop.finfo = f.info ∧
      t.tile.stop.fcause.toNat % 65536 = f.code.toNat + 256 + (if s.urgent then 1024 else 0) + 8192 * f.agent.toNat ∧
      t.tile.stop.fcause.toNat / 2 ^ 24 = (s.tile.stop.fcause.toNat / 2 ^ 24 + 1) % 256 ∧
      t.tile.core.normal = s.tile.core.normal ∧ t.tile.core.shadow = s.tile.core.shadow ∧ t.tile.core.cur = s.tile.core.cur ∧
      t.tile.view = s.tile.view ∧ t.issuing = false

/-- R204: s0 reads 0 and a write to it is discarded; a write to another register of the running level changes that register alone. -/
def Obligations.ScalarRegisters : Prop :=
  ∀ (s : State) (d r : Reg) (x : Word), s.sr 0 = 0 ∧ s.setS 0 x = s ∧ (d ≠ 0 → (s.setS d x).sr d = x) ∧
    (r ≠ d → (s.setS d x).sr r = s.sr r) ∧ (s.setS d x).vr r = s.vr r ∧ (s.setS d x).kr r = s.kr r

namespace Sys2Proof.Claims

/-- A scalar load (R265; R200 for the compact form): base, offset, bytes, and what it does with the little-endian number it reads. -/
def load : Instr → Option (Reg × Word × Nat × (Nat → State → State))
  | .ldb d a i => some (a, i.signExtend 32, 1, fun x s => s.setS d ((BitVec.ofNat 8 x).signExtend 32))
  | .ldbu d a i => some (a, i.signExtend 32, 1, fun x s => s.setS d (BitVec.ofNat 32 x))
  | .ldh d a i => some (a, i.signExtend 32, 2, fun x s => s.setS d ((BitVec.ofNat 16 x).signExtend 32))
  | .ldhu d a i => some (a, i.signExtend 32, 2, fun x s => s.setS d (BitVec.ofNat 32 x))
  | .ldw d a i => some (a, i.signExtend 32, 4, fun x s => s.setS d (BitVec.ofNat 32 x))
  | .ldd d a i => some (a, i.signExtend 32, 8, fun x s => (s.setS d (BitVec.ofNat 32 x)).setS (d + 1) (BitVec.ofNat 32 (x / 2 ^ 32)))
  | .ldwCompact a b => some (30, BitVec.ofNat 32 (4 * b.toNat), 4, fun x s => s.setS a (BitVec.ofNat 32 x))
  | _ => none

/-- A scalar store (R265; R200): base, offset, bytes, the other registers it reads, and the number it stores. -/
def store (s : State) : Instr → Option (Reg × Word × Nat × List Reg × Nat)
  | .stb d a i => some (a, i.signExtend 32, 1, [d], (s.sr d).toNat)
  | .sth d a i => some (a, i.signExtend 32, 2, [d], (s.sr d).toNat)
  | .stw d a i => some (a, i.signExtend 32, 4, [d], (s.sr d).toNat)
  | .std d a i => some (a, i.signExtend 32, 8, [d, d + 1], (s.sr d).toNat + 2 ^ 32 * (s.sr (d + 1)).toNat)
  | .stwCompact a b => some (30, BitVec.ofNat 32 (4 * b.toNat), 4, [a], (s.sr a).toNat)
  | _ => none

/-- The bits that LDBIT reads at bit address `p` (R82, R267), as the bytes of a state have them. -/
def bitsAt (s : State) (p w : Nat) : Nat := s.loadN (p / 8) ((p + w - 1) / 8 - p / 8 + 1) / 2 ^ (p % 8) % 2 ^ w

/-- The bytes of a bit field of `w` bits at bit address `p`, as a core access. -/
def bitAccess (p w : Nat) (write : Bool) : List (Nat × Nat × Bool × Bool) := [(p / 8, (p + w - 1) / 8 - p / 8 + 1, write, !write)]

/-- A local atomic (R269): address register, operand register, destination register, operation, bytes, and the registers it reads. -/
def atomic : Instr → Option (Reg × Reg × Reg × Nat × Nat × List Reg)
  | .atom d a b o => some (a, b, d, o.toNat, 4, if o = 9 then [a, b, d] else [a, b])
  | .atomD d a b o => some (a, b, d, o.toNat, 8, if o = 9 then [a, b, b + 1, d, d + 1] else [a, b, b + 1])
  | _ => none

/-- An operand of an atomic, and its result in the destination, by the width in bytes. -/
def wide (s : State) (n : Nat) (r : Reg) : Nat := if n = 8 then (s.sr r).toNat + 2 ^ 32 * (s.sr (r + 1)).toNat else (s.sr r).toNat
def setWide (s : State) (n : Nat) (r : Reg) (x : Nat) : State :=
  if n = 8 then (s.setS r (BitVec.ofNat 32 x)).setS (r + 1) (BitVec.ofNat 32 (x / 2 ^ 32)) else s.setS r (BitVec.ofNat 32 x)

/-- A packed integer operation (R274): destination, sources, width code, and the lane's result from the sources' lanes. -/
def packed : Instr → Option (Reg × Reg × Reg × BitVec 2 × (Nat → Nat → Nat → Int))
  | .vaddI d a b w => some (d, a, b, w, fun _ x y => x + y)
  | .vsubI d a b w => some (d, a, b, w, fun _ x y => x - y)
  | .vadds d a b w => some (d, a, b, w, fun n x y => max (-2 ^ (n - 1)) (min (2 ^ (n - 1) - 1) (sgnLane n x + sgnLane n y)))
  | .vsubs d a b w => some (d, a, b, w, fun n x y => max (-2 ^ (n - 1)) (min (2 ^ (n - 1) - 1) (sgnLane n x - sgnLane n y)))
  | .vmulI d a b w => some (d, a, b, w, fun _ x y => x * y)
  | .vmulh d a b w => some (d, a, b, w, fun n x y => sgnLane n x * sgnLane n y / 2 ^ n)
  | .vmulhu d a b w => some (d, a, b, w, fun n x y => (x : Int) * y / 2 ^ n)
  | .vshl d a b w => some (d, a, b, w, fun n x y => if y < n then x * 2 ^ y else 0)
  | .vshr d a b w => some (d, a, b, w, fun n x y => if y < n then x / 2 ^ y else 0)
  | .vsra d a b w => some (d, a, b, w, fun n x y => if y < n then sgnLane n x / 2 ^ y else if sgnLane n x < 0 then -1 else 0)
  | .vrot d a b w => some (d, a, b, w, fun n x y => x * 2 ^ (y % n) + x / 2 ^ (n - y % n))
  | _ => none

/-- A vector operation that writes v_d with a function of scalars and of the source elements, and raises flags (R272, R273, R276 to R279,
R281, R282): destination, scalar reads, sources, function. -/
def vector (s : State) : Instr → Option (Reg × List Reg × List Reg × (List VWord → VWord × Flags))
  | .vaddF d a b f r => some (d, [], [a, b], fun xs => lanesF (vecFmt f).width fun j =>
      (vecFmt f).add (Mode.ofRm r) (laneN (xs.getD 0 0) (vecFmt f).width j) (laneN (xs.getD 1 0) (vecFmt f).width j))
  | .vsubF d a b f r => some (d, [], [a, b], fun xs => lanesF (vecFmt f).width fun j =>
      (vecFmt f).sub (Mode.ofRm r) (laneN (xs.getD 0 0) (vecFmt f).width j) (laneN (xs.getD 1 0) (vecFmt f).width j))
  | .vmulF d a b f r => some (d, [], [a, b], fun xs => lanesF (vecFmt f).width fun j =>
      (vecFmt f).mul (Mode.ofRm r) (laneN (xs.getD 0 0) (vecFmt f).width j) (laneN (xs.getD 1 0) (vecFmt f).width j))
  | .vfma d a b c f r => some (d, [], [a, b, c], fun xs => lanesF (vecFmt f).width fun j =>
      (vecFmt f).fma (Mode.ofRm r) (laneN (xs.getD 0 0) (vecFmt f).width j) (laneN (xs.getD 1 0) (vecFmt f).width j)
        (laneN (xs.getD 2 0) (vecFmt f).width j))
  | .vmin d a b f => some (d, [], [a, b], fun xs => lanesF (vecFmt f).width fun j =>
      (vecFmt f).minMax false (laneN (xs.getD 0 0) (vecFmt f).width j) (laneN (xs.getD 1 0) (vecFmt f).width j))
  | .vmax d a b f => some (d, [], [a, b], fun xs => lanesF (vecFmt f).width fun j =>
      (vecFmt f).minMax true (laneN (xs.getD 0 0) (vecFmt f).width j) (laneN (xs.getD 1 0) (vecFmt f).width j))
  | .vabs d a f => some (d, [], [a], fun xs => signLanes (vecFmt f) true (xs.getD 0 0))
  | .vneg d a f => some (d, [], [a], fun xs => signLanes (vecFmt f) false (xs.getD 0 0))
  | .vsel d a b c w => some (d, [], [a, b], fun xs =>
      (lanes (vecWidth w) fun j => laneN (if (s.kr c).getLsbD j then xs.getD 0 0 else xs.getD 1 0) (vecWidth w) j, 0))
  | .vshuf d a b c w => some (d, [], [a, b, c], fun xs => (lanes (vecWidth w) fun j =>
      let i := laneN (xs.getD 1 0) (vecWidth w) j
      if i < 128 / vecWidth w then laneN (xs.getD 0 0) (vecWidth w) i
      else if i < 2 * (128 / vecWidth w) then laneN (xs.getD 2 0) (vecWidth w) (i - 128 / vecWidth w) else 0, 0))
  | .vred d a k r => some (d, [], [a], fun xs =>
      let y := vecReduce k.toNat (Mode.ofRm r) (laneN (xs.getD 0 0) 32 0) (laneN (xs.getD 0 0) 32 1) (laneN (xs.getD 0 0) 32 2)
        (laneN (xs.getD 0 0) 32 3)
      (BitVec.ofNat 128 y.1, y.2))
  | .vamax d a b f => some (d, [], [a, b], fun xs =>
      (lanes 32 fun _ => (vecAmax (vecFmt f) (xs.getD 0 0) (xs.getD 1 0)).1, (vecAmax (vecFmt f) (xs.getD 0 0) (xs.getD 1 0)).2))
  | .vlut3 d a b t => some (d, [], [a, b, d], fun xs => (lut3Bits t (xs.getD 0 0) (xs.getD 1 0) (xs.getD 2 0), 0))
  | .vmov d a => some (d, [], [a], fun xs => (xs.getD 0 0, 0))
  | .vbcast d a => some (d, [a], [], fun _ => (s.sr a ++ s.sr a ++ s.sr a ++ s.sr a, 0))
  | .vins d a b => some (d, [a], [d], fun xs =>
      (lanes 32 fun j => if j = b.toNat then (s.sr a).toNat else laneN (xs.getD 0 0) 32 j, 0))
  | _ => none

/-- The accesses of BKPACK, what it encodes, the accesses of BKUNPACK, its sidecar and its elements (R285, R286). -/
def packAccess (s : State) (a b : Reg) (k e : BitVec 2) : List (Nat × Nat × Bool × Bool) :=
  [((s.sr a).toNat, 4 * (vecFmt e).width, false, true), ((s.sr b).toNat, (BkFmt.ofCode k.toNat).bytes, true, false),
   ((s.sr (b + 1)).toNat, 4, true, false)]
def packOut (s : State) (a b : Reg) (x : BitVec 1) (r k e : BitVec 2) :=
  bkEncode (BkFmt.ofCode k.toNat) (vecFmt e)
    (elemVals (vecFmt e) ((s.noted (packAccess s a b k e)).loadN (s.sr a).toNat (4 * (vecFmt e).width))) (bkMode x r)
    (advances 32 s.tile.core.seed).1
def unpackAccess (s : State) (a b : Reg) (k e : BitVec 2) : List (Nat × Nat × Bool × Bool) :=
  [((s.sr (b + 1)).toNat, 4, false, true), ((s.sr b).toNat, (BkFmt.ofCode k.toNat).bytes, false, true),
   ((s.sr a).toNat, 4 * (vecFmt e).width, true, false)]
def unpackSide (s : State) (a b : Reg) (k e : BitVec 2) : Word :=
  BitVec.ofNat 32 ((s.noted (unpackAccess s a b k e)).loadN (s.sr (b + 1)).toNat 4)
def unpackElem (s : State) (a b : Reg) (x : BitVec 1) (r k e : BitVec 2) (i : Nat) : Nat :=
  ((vecFmt e).ofX (if x = 1 then .sr ((advances 32 s.tile.core.seed).1.getD i 0) else Mode.ofRm r) (bkDecode (BkFmt.ofCode k.toNat)
    ((s.noted (unpackAccess s a b k e)).loadN (s.sr b).toNat (BkFmt.ofCode k.toNat).bytes) (unpackSide s a b k e) i)).1

/-- CVT (R283): destination, source, register of the scale and part, formats, mode, and whether it rounds stochastically. -/
def converts : Instr → Option (Reg × Reg × Reg × BitVec 4 × BitVec 4 × Mode × Bool)
  | .cvtRne d a b x f t => some (d, a, b, f, t, .rne, x == 1)
  | .cvtRtz d a b f t => some (d, a, b, f, t, .rtz, false)
  | .cvtRdn d a b f t => some (d, a, b, f, t, .rdn, false)
  | .cvtRup d a b f t => some (d, a, b, f, t, .rup, false)
  | _ => none

end Sys2Proof.Claims

/-- R265, R200, R263: an aligned, granted scalar load writes its destination from the little-endian bytes at its address, a store stores its bytes
there, and neither does anything else; an address that is no multiple of the size raises the misaligned-access fault with nothing done. -/
def Obligations.ScalarMemory : Prop :=
  (∀ (s : State) (i : Instr) (a : Reg) (off : Word) (n : Nat) (w : Nat → State → State), load i = some (a, off, n, w) →
    s.clear i [a] = true → (s.sr a + off).toNat % n = 0 → s.grants [((s.sr a + off).toNat, n, false, true)] = true →
    exec i s = .next ((w ((s.noted [((s.sr a + off).toNat, n, false, true)]).loadN (s.sr a + off).toNat n)
      (s.noted [((s.sr a + off).toNat, n, false, true)])).after i.parcels)) ∧
  (∀ (s : State) (i : Instr) (a : Reg) (off : Word) (n : Nat) (rs : List Reg) (x : Nat), store s i = some (a, off, n, rs, x) →
    s.clear i (a :: rs) = true → (s.sr a + off).toNat % n = 0 → s.grants [((s.sr a + off).toNat, n, true, false)] = true →
    exec i s = .next (((s.noted [((s.sr a + off).toNat, n, true, false)]).storeN (s.sr a + off).toNat n x).after i.parcels)) ∧
  (∀ (s : State) (i : Instr) (a : Reg) (off : Word) (n : Nat) (rs : List Reg),
    ((∃ w, load i = some (a, off, n, w) ∧ rs = []) ∨ ∃ x, store s i = some (a, off, n, rs, x)) → s.issues i (a :: rs) = true →
    (s.sr a + off).toNat % n ≠ 0 →
    exec i s = .next (s.precise { code := 0x08, addr := s.sr a + off, info := BitVec.ofNat 32 n }))

/-- R76, R118, R96: what an access notes changes no byte that a core load sees; a store changes the bytes of its range alone, and they read
as the little-endian bytes stored; a number read is the little-endian value of its bytes. -/
def Obligations.StoredBytes : Prop :=
  (∀ (s : State) (l : List (Nat × Nat × Bool × Bool)) (a n x b : Nat), s.tile.view.mem.wf = true →
    (s.noted l).localByte b = s.localByte b ∧
    (s.storeN a n x).localByte b = if a ≤ b ∧ b < a + n then BitVec.ofNat 8 (x / 256 ^ (b - a)) else s.localByte b) ∧
  (∀ (s : State) (a n : Nat), s.loadN a n = ((List.range n).map fun i => (s.localByte (a + i)).toNat * 256 ^ i).sum)

/-- R266: VLD, VST and VLDT complete at a granted 16-byte aligned address: one row, or four rows transposed. -/
def Obligations.VectorMemory : Prop :=
  ∀ (s : State) (d a : Reg) (i : BitVec 14), let ea := (s.vecAddr a i).toNat
    ea % 16 = 0 →
    (s.clear (.vld d a i) [a] = true → s.streaming d.toNat = false → s.grants [(ea, 16, false, true)] = true →
      exec (.vld d a i) s = .next (((s.noted [(ea, 16, false, true)]).setV d
        (BitVec.ofNat 128 ((s.noted [(ea, 16, false, true)]).loadN ea 16))).after 2)) ∧
    (∀ x t, s.clear (.vst d a i) [a] = true → s.grants [(ea, 16, true, false)] = true →
      s.settled.popV d = some (x, t) →
      exec (.vst d a i) s = .next (((t.noteAll [(ea, 16, true, false)]).storeN ea 16 x.toNat).after 2)) ∧
    (s.clear (.vldt d a i) [a] = true → (∀ k : Fin 4, s.streaming (d + BitVec.ofNat 5 k).toNat = false) →
      s.grants [(ea, 64, false, true)] = true →
      ∃ t, exec (.vldt d a i) s = .next t ∧ ∀ j q : Fin 4,
        laneN (t.vr (d + BitVec.ofNat 5 j)) 32 q = (s.noted [(ea, 64, false, true)]).loadN (ea + 16 * q + 4 * j) 4)

/-- R267, R82: LDBIT writes the bits of its field, zero-extended; STBIT leaves a state in which the field holds the low bits of s(d) and every other
bit is unchanged. A bit field of the store queue that is performed on any memory changes its own bits there alone. -/
def Obligations.BitFields : Prop :=
  (∀ (m : Memory) (p w x q : Nat), m.wf = true → 0 < w → ((StoreOp.bits p w x).apply m).getN (q / 8) 1 / 2 ^ (q % 8) % 2 =
    if p ≤ q ∧ q < p + w then x / 2 ^ (q - p) % 2 else m.getN (q / 8) 1 / 2 ^ (q % 8) % 2) ∧
  ∀ (s : State) (d a : Reg) (w : BitVec 5), (s.sr a).toNat < 2 ^ 20 →
    (s.clear (.ldbit d a w) [a] = true → s.grants (bitAccess (s.sr a).toNat (w.toNat + 1) false) = true →
      exec (.ldbit d a w) s = .next (((s.noted (bitAccess (s.sr a).toNat (w.toNat + 1) false)).setS d
        (BitVec.ofNat 32 (bitsAt (s.noted (bitAccess (s.sr a).toNat (w.toNat + 1) false)) (s.sr a).toNat (w.toNat + 1)))).after 2)) ∧
    (s.clear (.stbit d a w) [a, d] = true → s.grants (bitAccess (s.sr a).toNat (w.toNat + 1) true) = true → s.tile.view.mem.wf = true →
      ∃ t, exec (.stbit d a w) s = .next t ∧ bitsAt t (s.sr a).toNat (w.toNat + 1) = (s.sr d).toNat % 2 ^ (w.toNat + 1) ∧
        (∀ q, q < (s.sr a).toNat ∨ (s.sr a).toNat + w.toNat < q → bitsAt t q 1 = bitsAt s q 1) ∧ t.bank = s.bank)

/-- R268, R85, R269, R83: LDP from a window bound to the local view gives the word at the window's start plus its offset, and from a far window the
word that has arrived for it; through an unbound window
it is code 0x45 and past its end code 0x46, each with the offset and the window. A granted, aligned atomic drains the store queue, stores the
result of its operation at its address and gives the old value in d. -/
def Obligations.ParametersAndAtomics : Prop :=
  ((∀ (s : State) (d a b : Reg) (w : BitVec 3), let win := s.tile.view.pw[w.toNat]
    let off := s.sr a + s.sr b
    let l := [(win.start + off.toNat, 4, false, true)]
    s.clear (.ldp d a b w) [a, b] = true → win.kind = 2 → off.toNat % 4 = 0 → off.toNat + 4 ≤ 16 * win.length.toNat → s.grants l = true →
    exec (.ldp d a b w) s = .next (((s.noted l).setS d (BitVec.ofNat 32 ((s.noted l).loadN (win.start + off.toNat) 4))).after 2)) ∧
  (∀ (s : State) (d a b : Reg) (w : BitVec 3) (r : FarWord) (x : Word), let win := s.tile.view.pw[w.toNat]
    let off := s.sr a + s.sr b
    s.clear (.ldp d a b w) [a, b] = true → s.urgent = false → win.kind = 1 → off.toNat % 4 = 0 → off.toNat + 4 ≤ 16 * win.length.toNat →
    s.tile.strm.farWord = some r → r.va = (win.start + off.toNat) % 2 ^ 48 → r.fail = none → r.word = some x →
    exec (.ldp d a b w) s = .next (({ s with tile.strm.farWord := none }.setS d x).after 2)) ∧
  (∀ (s : State) (d a b : Reg) (w : BitVec 3), let win := s.tile.view.pw[w.toNat]
    let off := s.sr a + s.sr b
    s.issues (.ldp d a b w) [a, b] = true → off.toNat % 4 = 0 → (win.kind = 1 → s.urgent = false) →
    (win.kind = 0 → exec (.ldp d a b w) s = .next (s.precise { code := 0x45, addr := off, info := w.setWidth 32 })) ∧
    (win.kind = 1 ∨ win.kind = 2 → 16 * win.length.toNat < off.toNat + 4 →
      exec (.ldp d a b w) s = .next (s.precise { code := 0x46, addr := off, info := w.setWidth 32 })))) ∧
  (∀ (s : State) (i : Instr) (a b d : Reg) (o n : Nat) (rs : List Reg), atomic i = some (a, b, d, o, n, rs) → s.clear i rs = true →
    (s.sr a).toNat % n = 0 → s.grants [((s.sr a).toNat, n, true, true)] = true →
    let t := (s.noted [((s.sr a).toNat, n, true, true)]).drained
    let x := atomNew (8 * n) o (t.loadN (s.sr a).toNat n) (wide s n b) (wide s n d)
    exec i s = .next ((setWide { t with tile := t.tile.storeN (s.sr a).toNat n x } n d (t.loadN (s.sr a).toNat n)).after 2))

/-- R77, R80, R270: ALLOC that its checks pass has the new page mapped, zero and unpinned; FREE of a page that nothing uses removes it;
PIN of a resident page within the limit pins it. -/
def Obligations.Pages : Prop :=
  ∀ (s : State) (a k : Reg) (u : Tile) (p : Page),
    (s.clear (.alloc a k) [a] = true → s.drained.tile.alloc (s.sr a).toNat k.toNat = (none, u) →
      exec (.alloc a k) s = .next (State.after { s.drained with tile := u } 2) ∧
      (∃ q ∈ u.view.pages, q.vbase = (s.sr a).toNat ∧ q.k = k.toNat ∧ q.resident = true ∧ q.pinned = false) ∧
      ∀ b, (s.sr a).toNat ≤ b → b < (s.sr a).toNat + pageSize k.toNat → s.tile.view.mem.wf = true → u.view.mem.read b = 0) ∧
    (s.clear (.free a) [a] = true → s.urgent = false → s.tile.view.mapCheck (s.sr a).toNat 1 false = .ok →
      s.tile.view.page (s.sr a).toNat = some p → s.tile.busy p = false →
      ∃ t, exec (.free a) s = .next t ∧ t.tile.view.pages = s.tile.view.pages.filter (·.vbase ≠ p.vbase)) ∧
    (s.clear (.pin a) [a] = true → s.urgent = false → s.tile.view.mapCheck (s.sr a).toNat 1 false = .ok →
      s.tile.view.page (s.sr a).toNat = some p → p.resident = true → p.pinned = false →
      s.tile.view.pinned + pageSize p.k ≤ 72 * 1024 →
      exec (.pin a) s = .next ({ s with tile.view := s.tile.view.updPage (s.sr a).toNat (fun q => { q with pinned := true }) }.after 2))

/-- R274: each packed integer operation gives every lane its result modulo 2^w, whatever the other lanes hold, and does nothing else. -/
def Obligations.PackedIntegers : Prop :=
  ∀ (s t : State) (i : Instr) (d a b : Reg) (w : BitVec 2) (f : Nat → Nat → Nat → Int) (x y : VWord),
    packed i = some (d, a, b, w, f) → s.clear i [] = true → s.streaming d.toNat = false → s.popVs [a, b] = some ([x, y], t) →
    ∃ r : VWord, exec i s = .next (((t.setV d r).orFlags 0).after 2) ∧ ∀ j, j < 128 / vecWidth w →
      (laneN r (vecWidth w) j : Int) = f (vecWidth w) (laneN x (vecWidth w) j) (laneN y (vecWidth w) j) % 2 ^ vecWidth w

/-- R271 to R273, R276 to R279, R281, R282: a vector operation whose sources have elements writes v_d and ORs its flags into c.tstat. -/
def Obligations.VectorOperations : Prop :=
  ∀ (s t : State) (i : Instr) (d : Reg) (rs vs : List Reg) (f : List VWord → VWord × Flags) (xs : List VWord),
    vector s i = some (d, rs, vs, f) → s.clear i rs = true → s.streaming d.toNat = false → s.popVs vs = some (xs, t) →
    exec i s = .next (((t.setV d (f xs).1).orFlags (f xs).2).after 2)

/-- R271, R91, R354: outside stream mode a source read changes nothing; in stream mode it takes the oldest element of the buffer; an
instruction that would write a v register in stream mode is an illegal use, with the register in c.finfo. -/
def Obligations.SourceReads : Prop :=
  (∀ (s : State) (r : Reg), (s.streaming r.toNat = false → s.popV r = some (s.vr r, s)) ∧
    (∀ (n : BitVec 2) (p : Pattern) (e : VWord) (es : List VWord), s.urgent = false → r.toNat = n.toNat + 12 →
      s.tile.strm.regs = [{ n := n, pat := p, buf := e :: es }] →
      s.popV r = some (e, { s with tile.strm.regs := [{ n := n, pat := p, buf := es }] }))) ∧
  (∀ (s : State) (i : Instr) (d : Reg) (rs vs : List Reg) (f : List VWord → VWord × Flags), vector s i = some (d, rs, vs, f) →
    s.issues i rs = true → s.streaming d.toNat = true →
    exec i s = .next (s.precise { code := 0x0A, info := d.setWidth 32 }))

/-- R275, R282: VCMP writes one bit of k_d per lane; VEXT, KSET and KGET move a lane and a mask. -/
def Obligations.MasksAndLanes : Prop :=
  ∀ (s t : State) (d a b : Reg) (ty p : BitVec 2) (x y : VWord),
    (s.clear (.vcmp d a b ty p) [] = true → s.popVs [a, b] = some ([x, y], t) →
      exec (.vcmp d a b ty p) s = .next (((t.setK d (vecCompare ty p x y).1).orFlags (vecCompare ty p x y).2).after 2) ∧
      (ty ≠ 3 → ∀ j, j < 128 / vecWidth ty → (vecCompare ty p x y).1.getLsbD j =
        cmpInt (vecWidth ty) p.toNat (laneN x (vecWidth ty) j) (laneN y (vecWidth ty) j))) ∧
    (s.clear (.vext d a b) [] = true → s.popVs [a] = some ([x], t) →
      exec (.vext d a b) s = .next ((t.setS d (BitVec.ofNat 32 (laneN x 32 b.toNat))).after 2)) ∧
    (s.clear (.kset d a) [a] = true → exec (.kset d a) s = .next ((s.setK d ((s.sr a).setWidth 16)).after 2)) ∧
    (s.clear (.kget d a) [] = true → exec (.kget d a) s = .next ((s.setS d ((s.kr a).setWidth 32)).after 2))

/-- R283, R98, R284, R103: CVT converts the lanes of its part, keeps the others, and with stochastic rounding advances c.seed once per
converted lane; CVTS gives the scale exponent. -/
def Obligations.Conversions : Prop :=
  ∀ (s t : State) (i : Instr) (d a b : Reg) (f g : BitVec 4) (m : Mode) (sr : Bool) (x y : VWord) (e : BitVec 1),
    (converts i = some (d, a, b, f, g, m, sr) → s.clear i [b] = true → s.streaming d.toNat = false → s.popVs [a, d] = some ([x, y], t) →
      let n := if sr then 128 / Nat.max (CvtFmt.ofCode f).width (CvtFmt.ofCode g).width else 0
      let r := cvtReg (CvtFmt.ofCode f) (CvtFmt.ofCode g) ((s.sr b).setWidth 8).toInt ((s.sr b).toNat / 256 % 4)
        (if sr then .sr 0 else m) (advances n s.tile.core.seed).1 x y
      exec i s = .next (((State.setV { t with tile.core.seed := (advances n s.tile.core.seed).2 } d r.1).orFlags r.2).after 2)) ∧
    (s.clear (.cvts d a b e) [b] = true → s.popVs [a] = some ([x], t) →
      let k := computeScale (laneN x 32 0) (if e = 0 then Fmt.e4m3 else Fmt.e5m2) ((s.sr b).setWidth 8).toInt
      exec (.cvts d a b e) s = .next (((t.setS d (BitVec.ofInt 32 k.1)).orFlags k.2).after 2))

/-- R285 to R287: BKPACK writes the block's data at s(b), where the sidecar does not overlie it, and its sidecar at s(b + 1) and in d; BKUNPACK writes the 32
elements, each rounded as its form says, under sr with one advance for each (log entry 58: in overrange and error blocks too), and the sidecar to d. -/
def Obligations.Blocks : Prop :=
  ∀ (s : State) (d a b : Reg) (x : BitVec 1) (r k e : BitVec 2), (s.sr a).toNat % 16 = 0 → (s.sr b).toNat % 8 = 0 →
    (s.sr (b + 1)).toNat % 4 = 0 →
    (s.clear (.bkpack d a b x r k e) [a, b, b + 1] = true → s.grants (packAccess s a b k e) = true →
      ∃ t, exec (.bkpack d a b x r k e) s = .next t ∧ (d ≠ 0 → t.sr d = (packOut s a b x r k e).side) ∧
        (s.tile.view.mem.wf = true → t.loadN (s.sr (b + 1)).toNat 4 = (packOut s a b x r k e).side.toNat ∧
          ((s.sr b).toNat + (BkFmt.ofCode k.toNat).bytes ≤ (s.sr (b + 1)).toNat ∨ (s.sr (b + 1)).toNat + 4 ≤ (s.sr b).toNat →
            t.loadN (s.sr b).toNat (BkFmt.ofCode k.toNat).bytes = (packOut s a b x r k e).data % 2 ^ (8 * (BkFmt.ofCode k.toNat).bytes)))) ∧
    (s.clear (.bkunpack d a b x r k e) [a, b, b + 1] = true → s.grants (unpackAccess s a b k e) = true →
      ∃ t, exec (.bkunpack d a b x r k e) s = .next t ∧ (d ≠ 0 → t.sr d = unpackSide s a b k e) ∧
        (s.tile.view.mem.wf = true → ∀ i, i < 32 →
          t.loadN (s.sr a).toNat (4 * (vecFmt e).width) / 2 ^ ((vecFmt e).width * i) % 2 ^ (vecFmt e).width
            = unpackElem s a b x r k e i % 2 ^ (vecFmt e).width))

namespace Sys2Proof.Claims

/-- A command entered at the tail of the tensor command queue (R291). -/
def queued (s : State) (op : TensorOp) : State :=
  { s with tile.tens.cmds := s.tile.tens.cmds ++ [{ op := op, scope := s.tile.core.cur.scope, own := s.tile.core.cur.own }] }

/-- The commands that an instruction enters with nothing but registers read (R292 to R295, R298, R300): reads, operation, and whether the
store queue drains first. -/
def command (s : State) : Instr → Option (List Reg × TensorOp × Bool)
  | .tcfg f => some ([], .tcfg (BkFmt.ofCode f.toNat), false)
  | .tarm d a =>
    if 1 ≤ (s.sr a).toNat ∧ (s.sr a).toNat ≤ 256 then some ([a], .tarm (d.setWidth 2) (s.sr a).toNat, true) else none
  | .tzero d => some ([], .tzero (d.setWidth 2), false)
  | .tfeed d a => if s.sr a = 0 then none else some ([a], .tfeed (d.setWidth 2) (s.sr a).toNat, true)
  | .strmBind d a b f =>
    if f = 1 ∧ (s.sr a).toNat / 16 % 4096 = 0 ∧ (s.sr b).toNat < 65536 then
      some ([a, b], .bind (d == 1) (.fabric ((s.sr a).setWidth 4) ((s.sr a >>> 16).setWidth 16) ((s.sr b).setWidth 16)
        s.tile.core.cur.scope), true)
    else none
  | .strmStop d => if d.toNat < 16 then none else some ([], .stop (d == 17), false)
  | _ => none

/-- A destination name that needs no walk (R58, R64): inside the carrel, and the residency's own or cached. -/
def known (s : State) (n : Word) : Bool := s.nameInside n && (n == s.tile.id.name || (s.tile.cached n).isSome)

/-- The state after its lookup: the entry is the most recently used, and its used bit is set (R64). -/
def looked (s : State) (n : Word) : State :=
  if n = s.tile.id.name then s
  else match s.tile.cached n with
    | some e => { s with tile.net.names := { e with used := true } :: s.tile.net.names.filter (·.name ≠ n) }
    | none => s

/-- A residency is bound at the tile in focus, under a name (R24, R58), or it is a steward's. -/
def Speaks (s : State) : Prop := s.tile.core.phase ≠ .unbound ∧ (s.onSteward = true ∨ s.tile.id.name ≠ 0xFFFFFFFF)

/-- The step from `s` has put the messages of a list in flight from the tile in focus, in order, and none besides (R142). -/
def SentAll (s t : State) (l : List (Hdr × Body)) : Prop :=
  ∃ ps, t.net = s.net ++ ps ∧ ps.map (fun p => (p.hdr, p.body)) = l ∧ ∀ p ∈ ps, p.way.map (·.src) = some s.tile.phys

/-- One message. -/
def Sent (s t : State) (h : Hdr) (b : Body) : Prop := SentAll s t [(h, b)]

/-- A release asked for is over (R123). -/
def mayRelease (s : State) (r : BitVec 1) (x : BitVec 2) : Bool := r == 0 || s.released x.toNat

/-- A copy instruction (R301): kind, registers, release and scope. -/
def copies : Instr → Option (CopyKind × Reg × Reg × Reg × BitVec 1 × BitVec 2)
  | .get d a b => some (.get, d, a, b, 0, 0)
  | .getFar d a b => some (.getFar, d, a, b, 0, 0)
  | .getLoc d a b => some (.getLoc, d, a, b, 0, 0)
  | .put d a b x r => some (.put, d, a, b, r, x)
  | .putFar d a b x r => some (.putFar, d, a, b, r, x)
  | _ => none

/-- The far address that a pair holds (R301). -/
def farAddr (s : State) (b : Reg) : Nat := (s.sr b).toNat + 2 ^ 32 * ((s.sr (b + 1)).toNat % 65536)

/-- The source and the destination of a copy (R301): GETs write the local side s(a), PUTs read it. -/
def copySrc (s : State) (k : CopyKind) (a b : Reg) : Nat := match k with
  | .get | .getLoc => (s.sr b).toNat
  | .getFar => farAddr s b
  | .put | .putFar => (s.sr a).toNat
def copyDst (s : State) (k : CopyKind) (a b : Reg) : Nat := match k with
  | .get | .getLoc | .getFar => (s.sr a).toNat
  | .put => (s.sr b).toNat
  | .putFar => farAddr s b

/-- A remote operation of one packet (R307, R308, R310, R311): the registers it reads, the destination register, whether its operand word
is in order, the release, and the body with the state's registers in it; the operation number is the next. -/
def remote (s : State) : Instr → Option (List Reg × Reg × Bool × BitVec 1 × BitVec 2 × Body)
  | .rst d a b x r => some ([d, a, b], a, decide ((s.sr b).toNat / 2 ^ 17 % 1024 = 0 ∧ (s.sr b).toNat % 2 ^ 17 % 4 = 0), r, x,
      .rst ((s.sr b).toNat % 2 ^ 17) (natBytes 4 (s.sr d).toNat) (if (s.sr b).getLsbD 31 then some ((s.sr b >>> 27).setWidth 4) else none))
  | .rstDw d a b x r => some ([d, d + 1, a, b], a, decide ((s.sr b).toNat / 2 ^ 17 % 1024 = 0 ∧ (s.sr b).toNat % 2 ^ 17 % 8 = 0), r, x,
      .rst ((s.sr b).toNat % 2 ^ 17) (natBytes 8 (s.pair d).toNat) (if (s.sr b).getLsbD 31 then some ((s.sr b >>> 27).setWidth 4) else none))
  | .tdec d a b => some ([d, a, b], a, decide ((s.sr b).toNat % 16 = 0), 0, 0, .tdec (s.sr b).toNat (s.sr d))
  | .spawn d a b => some ([d, d + 1, a, b], a, decide ((s.sr b).toNat % 16 = 0), 0, 0, .spawn (s.sr b).toNat (s.sr d &&& 0x7FFF) (s.sr (d + 1)))
  | _ => none

/-- A remote atomic (R308): registers read, destination, name, operand, release, scope, body. -/
def remoteAtomic (s : State) : Instr → Option (List Reg × Reg × Reg × Bool × Bool × BitVec 1 × BitVec 2 × Body)
  | .ratom d a b x r o => some ([a, b, b + 1] ++ (if o = 9 then [d] else []), d, a, false, decide ((s.sr b).toNat % 4 = 0), r, x,
      .ratom (s.sr b).toNat o.toNat false d s.tile.net.nextId ((s.sr (b + 1)).setWidth 64) (if o = 9 then (s.sr d).setWidth 64 else 0))
  | .ratomD d a b x r o => some ([a, b, b + 2, b + 3] ++ (if o = 9 then [d, d + 1] else []), d, a, true,
      decide ((s.sr b).toNat % 8 = 0), r, x,
      .ratom (s.sr b).toNat o.toNat true d s.tile.net.nextId (s.pair (b + 2)) (if o = 9 then s.pair d else 0))
  | _ => none

/-- One message of a send (R305), to name `n`, with its payload out of the view. -/
def message (s : State) (d b : Reg) (c : BitVec 4) (n : Word) : Hdr × Body :=
  (s.hdr n s.tile.core.cur.scope c ((s.sr (b + 1) >>> 10).setWidth 2) ((s.sr (b + 1)).getLsbD 12),
   .send (s.sr d) (s.tile.view.coreMem.bytes (s.sr b).toNat ((s.sr (b + 1)).toNat % 1024)))

/-- A rectangle of names on this wafer holds the residency's own position (R312). -/
def holdsSelf (s : State) (a : Reg) : Bool :=
  let x := s.sr a
  let e := (s.sr (a + 1)).toNat
  nameWafer x == 0 && decide (nameX x ≤ nameX s.tile.id.name) && decide (nameX s.tile.id.name ≤ nameX x + e % 1024)
    && decide (nameY x ≤ nameY s.tile.id.name) && decide (nameY s.tile.id.name ≤ nameY x + e / 1024 % 1024)

/-- A register carries a token mark of the running level, made by the step from `s` (R93). -/
def Marked (s t : State) (d : Reg) : Prop :=
  d = 0 ∨ ∃ m ∈ t.tile.net.marks, m.reg = d ∧ m.level = s.tile.core.level ∧ m.id = s.tile.net.nextId

end Sys2Proof.Claims

/-- R291 to R295, R298, R300: with room in the queue each tensor command, each fabric binding and each stop of TA or TB enters the queue;
TFEED of 0 enters nothing, and STRM.SYNC completes when nothing is outstanding, where a live fabric binding has, by the model's choice, nothing left to deliver (log entry 23). -/
def Obligations.TensorCommands : Prop :=
  ∀ (s : State) (i : Instr) (rs : List Reg) (op : TensorOp) (dr : Bool), s.urgent = false →
    (command s i = some (rs, op, dr) → s.clear i rs = true → s.tile.tens.cmds.length < 8 →
      exec i s = .next ((queued (if dr then s.drained else s) op).after 2)) ∧
    (∀ d a, s.clear (.tfeed d a) [a] = true → s.sr a = 0 → exec (.tfeed d a) s = .next (s.after 2)) ∧
    (s.clear .strmSync [] = true → s.tile.synced = true → exec .strmSync s = .next (s.after 2))

/-- R296 to R298, R300: TDRAIN queues the descriptor's drain with its token marked; STRM.CFG starts the pattern of its record in a stream
register; STRM.BIND queues two local patterns; STRM.STOP of a stream register leaves it holding 0. -/
def Obligations.DrainsAndStreams : Prop :=
  ∀ (s : State) (d a b : Reg) (n : BitVec 2), s.urgent = false → (s.sr a).toNat % 16 = 0 →
    (let u := s.settled
     s.clear (.tdrain d a n) [a] = true → s.grants [((s.sr a).toNat, 32, false, true)] = true →
     u.firstBad (s.sr a).toNat (u.drainChecks (s.sr a).toNat) = none → s.tile.tens.cmds.length < 8 →
     ∃ t c, exec (.tdrain d a n) s = .next t ∧ Marked s t d ∧ t.tile.tens.cmds = s.tile.tens.cmds ++ [c] ∧
       ∃ adv m, c.op = .tdrain n (u.drainDesc (s.sr a).toNat) adv m) ∧
    (let u := s.settled
     s.clear (.strmCfg d a) [a] = true → s.grants [((s.sr a).toNat, 64, false, true)] = true →
     u.firstBad (s.sr a).toNat (u.patternChecks (s.sr a).toNat) = none →
     ∃ t, exec (.strmCfg d a) s = .next t ∧
       { n := BitVec.ofNat 2 d.toNat, pat := u.patternAt (s.sr a).toNat, buf := [] } ∈ t.tile.strm.regs) ∧
    (let l := [((s.sr a).toNat, 64, false, true), ((s.sr b).toNat, 64, false, true)]
     let u := s.settled
     s.clear (.strmBind d a b 0) [a, b] = true → (s.sr b).toNat % 16 = 0 → s.grants l = true →
     u.firstBad (s.sr a).toNat (u.patternChecks (s.sr a).toNat) = none →
     u.firstBad (s.sr b).toNat (u.patternChecks (s.sr b).toNat) = none → s.tile.tens.cmds.length < 8 →
     exec (.strmBind d a b 0) s = .next ((queued (s.noted l).drained
       (.bind (d == 1) (.loc (u.patternAt (s.sr a).toNat) (u.patternAt (s.sr b).toNat)))).after 2)) ∧
    (s.clear (.strmStop d) [] = true → d.toNat < 16 → s.streaming d.toNat = true →
     ∃ t, exec (.strmStop d) s = .next t ∧ t.vr d = 0 ∧ t.streaming d.toNat = false)

/-- R301, R302, R93: a copy whose operands pass its limits, whose pages are mapped and whose name is known enters a free slot with its
token marked; a GET sends its request at once. -/
def Obligations.CopiesStart : Prop :=
  ∀ (s : State) (i : Instr) (k : CopyKind) (d a b : Reg) (r : BitVec 1) (x : BitVec 2) (major n : Nat),
    copies i = some (k, d, a, b, r, x) → s.clear i [a, b, a + 1, b + 1] = true →
    major = (if k = .put ∨ k = .putFar then 0x5A else 0x59) → s.copyLimit k a b major = none →
    s.copyMapped k (s.sr a).toNat (s.sr b).toNat ((s.sr (a + 1)).toNat % 2 ^ 17) = .ok →
    (k = .get ∨ k = .put → known s (s.sr (b + 1)) = true) → mayRelease s r x = true → s.tile.copySlot = some n →
    ∃ t c, exec i s = .next t ∧ t.tile.strm.copies = s.tile.strm.copies ++ [c] ∧ c.slot = n ∧ c.kind = k ∧ c.src = copySrc s k a b ∧
      c.dst = copyDst s k a b ∧ c.length = (s.sr (a + 1)).toNat % 2 ^ 17 ∧ c.scope = s.tile.core.cur.scope ∧ c.landed = 0 ∧
      Marked s t d ∧ t.bank = s.bank ∧
      (k = .get → Speaks s → Sent s t (s.hdr (s.sr (b + 1)) s.tile.core.cur.scope) (.getReq c.src c.length c.id c.dst 0)) ∧
      (k ≠ .get → t.net = s.net)

/-- R303, R120, R126, R300: WMCFG of an idle channel sets its range, or with equal bounds turns it off; SFENCE and FENCE.FAR complete when
no copy that they wait for is outstanding, and FENCE.FAR when none of the far chunks of an ended copy is either. -/
def Obligations.CopyFences : Prop :=
  ∀ (s : State) (d a b : Reg), s.urgent = false →
    (s.clear (.wmcfg d a b) [a, b] = true → (∀ c ∈ s.tile.strm.copies, c.wm ≠ some (d.setWidth 2)) →
      (s.sr a ≠ s.sr b → (s.sr a).toNat % 16 = 0 → (s.sr b).toNat % 16 = 0 → (s.sr a).toNat < (s.sr b).toNat → (s.sr b).toNat ≤ viewEnd →
        ∃ t w, exec (.wmcfg d a b) s = .next t ∧ t.tile.strm.wm[(d.setWidth 2 : BitVec 2).toNat] = w ∧
          w = { on := true, lo := (s.sr a).toNat, hi := (s.sr b).toNat, written := [] }) ∧
      (s.sr a = s.sr b → ∃ t, exec (.wmcfg d a b) s = .next t ∧ (t.tile.strm.wm[(d.setWidth 2 : BitVec 2).toNat]).on = false)) ∧
    (s.clear .sfence [] = true → s.tile.strm.copies = [] → s.tile.strm.replay = none → exec .sfence s = .next (s.drained.after 2)) ∧
    (s.clear .fenceFar [] = true → (∀ c ∈ s.tile.strm.copies, c.kind ≠ .getFar ∧ c.kind ≠ .putFar) → s.tile.net.acks[3] = 0 → exec .fenceFar s = .next (s.after 2))

/-- R305: SEND puts one message in flight with the bytes of its payload, and SENDM one for each name of its rectangle in row-major order;
each counts one outstanding acknowledgement (R123), those of a steward none (the model's choice, log entry 108). -/
def Obligations.Sends : Prop :=
  ∀ (s : State) (d a b : Reg) (c : BitVec 4) (x : BitVec 2) (r : BitVec 1), mayRelease s r x = true → Speaks s →
    s.grants (payloadRows (s.sr b).toNat ((s.sr (b + 1)).toNat % 1024)) = true →
    (s.clear (.send d a b c x r) [d, a, b, b + 1] = true → s.sendLimit b 0x60 = none → known s (s.sr a) = true →
      ∃ t, exec (.send d a b c x r) s = .next t ∧ SentAll s t [message s d b c (s.sr a)] ∧
        t.tile.net.acks.toList.sum = s.tile.net.acks.toList.sum + (if s.onSteward then 0 else 1) ∧ t.bank = s.bank) ∧
    (s.clear (.sendm d a b c x r) [d, a, b, a + 1, b + 1] = true → s.sendLimit b 0x61 = none → s.rectLimit a 0x61 = none →
      (s.rectOf a).all (known s) = true →
      ∃ t, exec (.sendm d a b c x r) s = .next t ∧ SentAll s t ((s.rectOf a).map (message s d b c)) ∧
        t.tile.net.acks.toList.sum = s.tile.net.acks.toList.sum + (if s.onSteward then 0 else (s.rectOf a).length) ∧ t.bank = s.bank)

namespace Sys2Proof.Claims

/-- The cursor stands at a message of the queue of which `o` bytes have been read and more are left (R304). -/
def Reads (s : State) (m : Msg) (o : Nat) : Prop :=
  s.tile.core.cur.cursor.cur = some m.id ∧ (s.tile.task.queue.find? fun q => q.id = m.id) = some m ∧ s.tile.core.cur.cursor.off = o ∧
    o < m.payload.length

/-- The cursor holds no message, or one that has been read to its end, and `m` is the oldest later one of its class whose activation is in a ready ring
(R304). -/
def Goes (s : State) (m : Msg) : Prop :=
  s.tile.noCursor = false ∧ m ∈ s.tile.task.queue ∧ (∀ q, Reads s q s.tile.core.cur.cursor.off → False) ∧
    s.tile.oldestOf s.tile.core.cur.cursor.cls (fun q => match s.tile.core.cur.cursor.cur with
      | none => true
      | some i => decide (i < q.id)) = some m ∧
    (∀ q ∈ s.tile.task.queue, q.id = m.id → q = m) ∧ s.tile.core.cur.cursor.cur ≠ some m.id

/-- The state in which a pop has read 16 bytes of `m` at offset `o` (R304): the cursor is past them and one granule more is free. -/
def popped (s : State) (m : Msg) (o : Nat) : State :=
  { s with tile.core.cur.cursor := { s.tile.core.cur.cursor with off := o + 16 },
           tile.task.queue := s.tile.task.queue.map fun q => if q.id = m.id then { q with freed := q.freed + 1 } else q }

/-- The element that a pop reads: bytes beyond the payload's end are 0 (R304). -/
def elementAt (m : Msg) (o : Nat) : VWord := BitVec.ofNat 128 (leNat ((m.payload.drop o).take 16))

/-- A pop in which `u` is the state after it and `e` the element: from the cursor's message, or from the next of its class, at which the cursor then stands. -/
def Pops (s u : State) (e : VWord) : Prop :=
  (∃ m o, Reads s m o ∧ u = popped s m o ∧ e = elementAt m o) ∨
    ∃ m, Goes s m ∧ m.payload ≠ [] ∧ u = popped { s with tile := s.tile.moveCursor m } m 0 ∧ e = elementAt m 0

end Sys2Proof.Claims

/-- R304, R306, R280: RECV pops the next element; RECV.M stores it and goes on until its count is 0; RECV.SEL moves the cursor to the oldest message of
a class and gives its tag; RQACC adds an element and goes on until its count is 0; a count of 0 does nothing. No word of the queue fails its check. -/
def Obligations.Receives : Prop :=
  ∀ (s u : State) (d a b : Reg) (k r : BitVec 2) (e : VWord) (m : Msg), s.tile.view.bad = [] →
    (s.clear (.recv d) [] = true → s.streaming d.toNat = false → Pops s u e → exec (.recv d) s = .next ((u.setV d e).after 2)) ∧
    (s.clear (.recvM a b) [a, b] = true → (s.sr a).toNat % 16 = 0 →
      (s.sr b = 0 → exec (.recvM a b) s = .next (s.after 2)) ∧
      ((s.sr b).toNat % 16 = 0 → 16 ≤ (s.sr b).toNat → (s.sr b).toNat ≤ 98304 →
        let l := [((s.sr a).toNat, 16, true, false)]
        s.grants l = true → Pops s u e →
        let t := (((u.noteAll l).storeN (s.sr a).toNat 16 e.toNat).setS a (s.sr a + 16)).setS b (s.sr b - 16)
        exec (.recvM a b) s = .next (if s.sr b = 16 then t.after 2 else t.goOn))) ∧
    (s.clear (.recvSel d a) [a] = true → s.urgent = false → s.tile.oldestOf ((s.sr a).setWidth 4) (fun _ => true) = some m →
      exec (.recvSel d a) s = .next ((State.setS { s with tile := s.tile.moveCursor m } d m.tag).after 2)) ∧
    (s.clear (.rqacc d a k r) [a] = true → s.urgent = false →
      (s.sr a = 0 → exec (.rqacc d a k r) s = .next (s.after 2)) ∧
      (s.sr a ≠ 0 → s.streaming d.toNat = false → Pops s u e →
        let t := ((u.setV d (rqaccAdd k r (s.vr d) e).1).setS a (s.sr a - 1)).orFlags (rqaccAdd k r (s.vr d) e).2
        exec (.rqacc d a k r) s = .next (if s.sr a = 1 then t.after 2 else t.goOn)))

/-- R307, R308, R310, R311: RST, RST.DW, RST.V, TDEC and SPAWN put their one operation in flight and count its acknowledgement; RATOM marks its
destination and puts the atomic in flight with its operation number. An operation to a known name is on its way from its tile, counted in the class
of its destination (R123). -/
def Obligations.RemoteOperations : Prop :=
  (∀ (s : State) (n sc : Word) (o : Body), known s n = true → Speaks s →
    Sent s ((looked s n).issueOp (s.hdr n sc) o) (s.hdr n sc) o ∧
    (s.onSteward = false → ((looked s n).issueOp (s.hdr n sc) o).tile.net.acks =
      s.tile.net.acks.set (s.ackClass n).toNat (s.tile.net.acks[(s.ackClass n).toNat] + 1))) ∧
  (∀ (s : State), (∀ (i : Instr) (rs : List Reg) (a : Reg) (r : BitVec 1) (x : BitVec 2) (o : Body),
      remote s i = some (rs, a, true, r, x, o) → s.clear i rs = true → known s (s.sr a) = true → mayRelease s r x = true →
      exec i s = .next (((looked s (s.sr a)).issueOp (s.hdr (s.sr a) s.tile.core.cur.scope) o).after 2)) ∧
    ∀ (d a b : Reg) (x : BitVec 2) (r : BitVec 1) (e : VWord) (u : State), s.clear (.rstV d a b x r) [a, b] = true →
      known s (s.sr a) = true → mayRelease s r x = true → (s.sr b).toNat / 2 ^ 17 % 1024 = 0 → (s.sr b).toNat % 2 ^ 17 % 16 = 0 →
      (looked s (s.sr a)).popV d = some (e, u) →
      exec (.rstV d a b x r) s = .next ((u.issueOp (s.hdr (s.sr a) s.tile.core.cur.scope)
        (.rst ((s.sr b).toNat % 2 ^ 17) (natBytes 16 e.toNat) (if (s.sr b).getLsbD 31 then some ((s.sr b >>> 27).setWidth 4) else none))).after 2)) ∧
  (∀ (s : State) (i : Instr) (rs : List Reg) (d a : Reg) (w : Bool) (r : BitVec 1) (x : BitVec 2) (o : Body),
    remoteAtomic s i = some (rs, d, a, w, true, r, x, o) → s.clear i rs = true → known s (s.sr a) = true → mayRelease s r x = true →
    exec i s = .next ((((looked s (s.sr a)).mark d w).1.issueOp (s.hdr (s.sr a) s.tile.core.cur.scope) o).after 2) ∧
    Marked s (((looked s (s.sr a)).mark d w).1.issueOp (s.hdr (s.sr a) s.tile.core.cur.scope) o) d)

/-- R309, R312, R251: TNEW of a nonzero count stores its record; ISTORE and ISTORE.M put the parcels of the source in flight to each name, or on a steward
tile to each physical tile. -/
def Obligations.TasksAndCode : Prop :=
  ∀ (s : State) (d a b : Reg),
    (s.clear (.tnew d a b) [a, b, d, b + 1] = true → (s.sr a).toNat % 16 = 0 → (s.sr (b + 1)).toNat < 2 ^ 15 →
      0x20 ≤ (s.sr (b + 1)).toNat % 8192 → s.sr b ≠ 0 → s.grants [((s.sr a).toNat, 16, true, false)] = true → s.tile.view.mem.wf = true →
      ∃ t, exec (.tnew d a b) s = .next t ∧ t.bank = s.bank ∧ t.loadN (s.sr a).toNat 4 = (s.sr b).toNat ∧
        t.loadN ((s.sr a).toNat + 4) 4 = (s.sr (b + 1)).toNat ∧ t.loadN ((s.sr a).toNat + 8) 4 = (s.sr d).toNat ∧
        t.loadN ((s.sr a).toNat + 12) 4 = s.tile.core.cur.scope.toNat) ∧
    (let l := [((s.sr d).toNat, 2 * (s.sr (d + 1)).toNat, false, true)]
     let o : Body := .istore (s.sr b).toNat (s.parcelsAt (s.sr d).toNat (s.sr (d + 1)).toNat)
     s.istoreLimit d b = none → s.grants l = true →
      (s.clear (.istore d a b) [a, b, d, d + 1] = true →
        (s.onSteward = false → Speaks s → s.sr a ≠ s.tile.id.name → known s (s.sr a) = true →
          ∃ t, exec (.istore d a b) s = .next t ∧ SentAll s t [(s.hdr (s.sr a) s.tile.core.cur.scope, o)]) ∧
        (∀ q, s.onSteward = true → s.physOf (s.sr a) = some q → ∃ t p, exec (.istore d a b) s = .next t ∧ t.net = s.net ++ [p] ∧
          p.dest = some q ∧ p.way.map (·.dst) = some q ∧ p.body = o)) ∧
      (s.clear (.istoreM d a b) [a, b, d, d + 1, a + 1] = true →
        (s.onSteward = false → Speaks s → s.rectLimit a 0x68 = none → holdsSelf s a = false → (s.rectOf a).all (known s) = true →
          ∃ t, exec (.istoreM d a b) s = .next t ∧ SentAll s t ((s.rectOf a).map fun n => (s.hdr n s.tile.core.cur.scope, o))) ∧
        (∀ qs, s.onSteward = true → (s.sr (a + 1)).toNat < 2 ^ 20 →
          s.physRect (s.sr a) ((s.sr (a + 1)).toNat % 1024 + 1) ((s.sr (a + 1)).toNat / 1024 % 1024 + 1) = some qs →
          ∃ t ps, exec (.istoreM d a b) s = .next t ∧ t.net = s.net ++ ps ∧ ps.map (·.dest) = qs.map some ∧ ∀ p ∈ ps, p.body = o)))

namespace Sys2Proof.Claims

/-- No slot armed on a counter is due at a count (R163). -/
def idleSlots (s : State) (n : BitVec 4) (c : Word) : Bool := s.tile.task.armed.all fun x => x.cnt != n || !slotDue c x.threshold

/-- A barrier that a join takes part in (R315), with the registers it reads. -/
def joins (s : State) : Instr → Option (Reg × List Reg × BarId)
  | .barJoin d a b => if (s.sr b).toNat % 8 = 0 then some (d, [a, b], .count (s.sr a) (s.sr b).toNat) else none
  | .barLine d a => some (d, [], .line (a.setWidth 2))
  | _ => none

/-- A steward's table write (R254, R255): token register, reads, publish bit, and the state it leaves before a publish: an entry of a router's detour
or ownership table at once, a group slot or a distance bound held in the field until the publish. -/
def tableWrite (s : State) : Instr → Option (Reg × List Reg × BitVec 1 × State)
  | .mapwrSlot d a b p =>
    let c : CatSlot := s.pair b &&& 0x3FFFFFFFFFFFFFFF
    if (s.sr a).toNat < 2048 ∧ (slotNonet c).1 < 48 ∧ (slotNonet c).2 < 44 ∧ badMember c = none then
      some (d, [a, b, b + 1], p, s.updFld fun f => f.stage (s.sr a).toNat c)
    else none
  | .mapwrDetour d a b p =>
    if (s.sr a).toNat < 2 ^ 25 ∧ (s.sr b).toNat < 128 then
      (s.physOf (s.sr a)).map fun q => (d, [a, b, b + 1], p,
        let e : Detour :=
          { valid := (s.sr b).getLsbD 0, link := (s.sr b >>> 1).setWidth 2,
            hops := (List.range ((s.sr b).toNat / 8 % 16 + 1)).map fun k => (s.sr (b + 1) >>> (2 * k)).setWidth 2 }
        (s.updTile q fun t => { t with
          router.detours := t.router.detours.set ((s.sr a).toNat / 2 ^ 22 % 8) e (Nat.mod_lt _ (by decide)) }).updFld
            fun f => { f with detoured := f.detoured ++ [q] })
    else none
  | .mapwrOwnership d a b p =>
    if (s.sr a).toNat / 2 ^ 22 < 5 ∧ (s.sr b).toNat < 4096 then
      (s.physOf (s.sr a)).map fun q => (d, [a, b], p,
        let e : Owner := { carrel := (s.sr b).setWidth 11, valid := (s.sr b).getLsbD 11 }
        s.updTile q fun t => { t with router.own := t.router.own.set ((s.sr a).toNat / 2 ^ 22 % 5) e (Nat.mod_lt _ (by decide)) })
    else none
  | .mapwrDistbound d a b p =>
    if (s.sr a).toNat < 2048 ∧ (s.sr b).toNat < 2048 then
      some (d, [a, b], p, s.updFld fun f =>
        { f with bounds := f.bounds ++ [((s.sr a).setWidth 11, (s.sr b).setWidth 10, (s.sr b).getLsbD 10)] })
    else none
  | _ => none

/-- The tile that MIGR's first operand names holds a member of a group, and its second an unused position of the nonet to which no other move goes (R253; log
entry 102), in a field with steward service (R368). -/
def migrates (s : State) (p q : Phys) : Bool :=
  s.fld.served && p != q && p.field == s.tile.phys.field && p.onWafer && q.field == p.field && q.nonet == p.nonet && !s.fld.names q && !s.targeted q
    && !(s.tileAt q).stop.off && !s.fld.defects.contains q && !s.immovable (s.tileAt p)
    && match s.fld.groupOn p.nonet with
      | none => false
      | some g => (memberAt (s.fld.readEntry g) p.pos).isSome

/-- MIGR.G's operands (R253, R382): a group on the first nonet, a free spare as the second, and no member that may not be moved, in a field with steward
service (R368). -/
def replaces (s : State) (p q : Phys) : Option Nat :=
  if s.fld.served ∧ p.field = s.tile.phys.field ∧ q.field = s.tile.phys.field ∧ p.onWafer ∧ q.onWafer ∧ q.pos = 0 ∧
      s.freeSpare s.tile.phys.field q.nonet ∧ !s.heldBack s.tile.phys.field p.nonet then
    s.fld.groupOn p.nonet
  else none

end Sys2Proof.Claims

/-- R161 to R163, R313, R314: TRIG.ARM of a slot whose threshold is not reached holds it armed with its token marked; TRIG.CLR frees a
slot; CNTSET and CNTSET.V write a counter; CNTRD reads its selector. -/
def Obligations.ArmedOperations : Prop :=
  ∀ (s : State) (d a b : Reg) (n : BitVec 4) (y : Armed),
    (let u := s.settled
     s.clear (.trigArm d a b n) [a, b] = true → (s.tile.task.armed.all fun x => x.slot != d.setWidth 4) = true →
     (s.sr a).toNat % 16 = 0 → s.grants [((s.sr a).toNat, 32, false, true)] = true →
     (u.actionChecks (s.sr a).toNat).all (·.2) = true →
     slotDue (s.tile.task.cnt[n.toNat]).count (s.sr b) = false → idleSlots s n (s.tile.task.cnt[n.toNat]).count = true →
     ∃ t x, exec (.trigArm d a b n) s = .next t ∧ x ∈ t.tile.task.armed ∧ x.slot = d.setWidth 4 ∧ x.cnt = n ∧ x.threshold = s.sr b ∧
       x.act = u.actionAt (s.sr a).toNat ∧ x.scope = s.tile.core.cur.scope ∧ Marked s t x.act.tok) ∧
    (s.clear (.trigClr d) [] = true → (s.tile.task.armed.find? fun x => x.slot == d.setWidth 4) = some y →
      ∃ t, exec (.trigClr d) s = .next t ∧ t.tile.task.armed = s.tile.task.armed.erase y) ∧
    (s.clear (.trigClr d) [] = true → (∀ x ∈ s.tile.task.armed, x.slot ≠ d.setWidth 4) → exec (.trigClr d) s = .next (s.after 2)) ∧
    (s.clear (.cntset d a b) [a, b] = true → (s.sr b).toNat % 8 ≤ 4 → (s.sr b).toNat / 128 % 512 = 0 →
      idleSlots s (d.setWidth 4) (s.sr a) = true →
      ∃ t, exec (.cntset d a b) s = .next t ∧
        t.tile.task.cnt[(d.setWidth 4 : BitVec 4).toNat] = Counter.mk (s.sr a) ((s.sr b).setWidth 3) ((s.sr b >>> 3).setWidth 4)) ∧
    (s.clear (.cntsetV d a) [a] = true → idleSlots s (d.setWidth 4) (s.sr a) = true →
      ∃ t, exec (.cntsetV d a) s = .next t ∧ (t.tile.task.cnt[(d.setWidth 4 : BitVec 4).toNat]).count = s.sr a ∧
        (t.tile.task.cnt[(d.setWidth 4 : BitVec 4).toNat]).mode = (s.tile.task.cnt[(d.setWidth 4 : BitVec 4).toNat]).mode) ∧
    (s.clear (.cntrd d a) [] = true → exec (.cntrd d a) s = .next ((s.setS d (BitVec.ofNat 32
      ((s.tile.task.cnt[(a.setWidth 4 : BitVec 4).toNat]).mode.toNat + 8 * (s.tile.task.cnt[(a.setWidth 4 : BitVec 4).toNat]).cls.toNat))).after 2))

/-- R165, R166, R315, R38: a join takes the lowest free entry and gives its index; BAR.JOIN.X frees an entry, and a count barrier that the residency
has not arrived at is sent a decrement; BAR.ARRIVE arrives, at a line that it has not been released from once more after that release; BAR.WAIT completes when
its entry has not arrived. -/
def Obligations.Barriers : Prop :=
  ∀ (s : State) (i : Instr) (d a : Reg) (rs : List Reg) (b : BarId) (m : Member) (j : Fin 4),
    let put (u : State) (x : Option Member) : State := { u with tile.task.members := s.tile.task.members.set j.val x j.isLt }
    (joins s i = some (d, rs, b) → s.clear i rs = true → s.tile.task.members[j] = none →
      (∀ k : Fin 4, k < j → s.tile.task.members[k] ≠ none) → (∀ k : Fin 4, (s.tile.task.members[k]).map (·.bar) ≠ some b) →
      exec i s = .next (((put s (some { bar := b, scope := s.tile.core.cur.scope })).setS d (BitVec.ofNat 32 j.val)).after 2)) ∧
    (s.clear (.barJoinX a) [a] = true → (s.sr a).toNat % 4 = j.val → s.tile.task.members[j] = some m →
      (∀ h n, m.bar = .count h n → m.arrived = false →
        exec (.barJoinX a) s = .next ((put (s.emit { hdr := s.hdr h m.scope, body := .barDec n false }) none).after 2)) ∧
      ((∃ n, m.bar = .line n) ∨ m.arrived = true → exec (.barJoinX a) s = .next ((put s none).after 2))) ∧
    (s.clear (.barArrive a) [a] = true → s.urgent = false → (s.sr a).toNat = j.val → s.tile.task.members[j] = some m → s.released 2 = true →
      (∀ n, m.bar = .line n → exec (.barArrive a) s =
        .next ((put s (some (if m.arrived then { m with pending := true } else { m with arrived := true, boost := none }))).after 2)) ∧
      (∀ h n, m.bar = .count h n → m.arrived = false → known s h = true → exec (.barArrive a) s =
        .next ((put ((looked s h).issueOp (s.hdr h s.tile.core.cur.scope) (.barArrive n))
          (some { m with arrived := true, g := none, release := none, boost := none, cause := none, freed := none })).after 2))) ∧
    (s.clear (.barWait a) [a] = true → s.urgent = false → (s.sr a).toNat = j.val → s.tile.task.members[j] = some m → m.arrived = false →
      m.pending = false → exec (.barWait a) s = .next (s.after 2))

/-- R32, R316, R34: SCOPE.OPEN of an owned scope makes its lowest free child the scope of the work; SCOPE.CLOSE of one that no cancel
covers goes back to the parent and frees it; CANCEL starts the sweep of its scope with its token marked. -/
def Obligations.Scopes : Prop :=
  ∀ (s : State) (d a : Reg) (e : ScopeEntry) (i : Nat), let x := s.tile.core.cur.scope
    (s.clear (.scopeOpen d) [] = true → s.urgent = false → s.tile.task.scopes.find? (·.scope = x) = some e → scopeDepth x < 7 →
      lowestClear e.kids = some i → s.tile.task.scopes.length < 8 →
      ∃ t, exec (.scopeOpen d) s = .next t ∧ t.tile.core.cur.scope = childScope x i ∧ (d ≠ 0 → t.sr d = childScope x i) ∧
        ∃ k ∈ t.tile.task.scopes, k.scope = childScope x i ∧ k.kids = 0) ∧
    (s.clear .scopeClose [] = true → s.urgent = false → scopeDepth x ≠ 0 → s.tile.task.scopes.any (·.scope = x) = true →
      s.tile.task.retiring = none → s.tile.task.cancels.any (isDescendant · x) = false →
      ∃ t, exec .scopeClose s = .next t ∧ t.tile.core.cur.scope = parentScope x ∧ ∀ k ∈ t.tile.task.scopes, k.scope ≠ x) ∧
    (∀ c : Carrel, s.clear (.cancel d a) [a] = true → scopeDepth (s.sr a) ≠ 0 → scopeWellFormed (s.sr a) = true → s.myCarrel = some c →
      c.unrelated (s.sr a) < 8 → s.bound c.num ≠ [] →
      ∃ t k w, exec (.cancel d a) s = .next t ∧ Marked s t d ∧ k ∈ t.carrels ∧ w ∈ k.sweeps ∧ w.scope = s.sr a ∧ w.missing = s.bound c.num)

/-- R150, R156, R317, R319: COMB.CFG writes an entry that holds no token; COMB.CFG.ROOT gives it its count, record and token; FOLIO.LOAD
keeps a folio whose records are in order; FOLIO.RUN starts its replay. -/
def Obligations.CombiningAndFolios : Prop :=
  ∀ (s : State) (d a b : Reg) (j : Fin 16),
    (s.clear (.combCfg a b) [a, b, b + 1] = true → (s.sr a).toNat = j.val →
      ((combOf (s.sr b) s.tile.id.carrel).valid = false ∨ (combOf (s.sr b) s.tile.id.carrel).out.toNat < 5 ∧
        (combOf (s.sr b) s.tile.id.carrel).type ≠ 7 ∧ s.combPlaced (combOf (s.sr b) s.tile.id.carrel) = true) →
      (s.tile.comb[j]).bufs = [] →
      exec (.combCfg a b) s = .next (State.after { s with tile.comb := s.tile.comb.set j.val (combOf (s.sr b) s.tile.id.carrel) j.isLt } 2)) ∧
    (s.clear (.combCfgRoot d a b) [a, b, b + 1] = true → (s.sr a).toNat = j.val → (s.tile.comb[j]).valid = true → (s.tile.comb[j]).out = 0 →
      s.sr b ≠ 0 → (s.sr b).toNat < 2 ^ 24 → (s.sr (b + 1)).toNat % 16 = 0 →
      ∃ t, exec (.combCfgRoot d a b) s = .next t ∧ (t.tile.comb[j]).rootCount = some (s.sr b).toNat ∧
        (t.tile.comb[j]).record = (s.sr (b + 1)).toNat ∧ Marked s t d) ∧
    (∀ p n : Nat, let u := s.settled
      p = (s.sr a).toNat → s.clear (.folioLoad a) [a] = true → s.urgent = false → p % 16 = 0 → s.tile.strm.replay = none →
      s.grants [(p, 16, false, true)] = true → n = (u.wordAt p 0).toNat % 512 → 1 ≤ n → n ≤ 256 →
      s.grants [(p + 16, 32 * n, false, true)] = true →
      (∀ k, k < n → folioReason n (u.folioRec (p + 16 + 32 * k)) (u.wordAt (p + 16 + 32 * k) 16).toNat = none) →
      ∃ t, exec (.folioLoad a) s = .next t ∧ t.tile.strm.folio =
        some (p, (List.range n).map fun k => u.folioRec (p + 16 + 32 * k))) ∧
    (∀ p rs, s.clear (.folioRun d a) [a, a + 1, a + 2, a + 3] = true → s.tile.strm.folio = some (p, rs) → s.tile.strm.replay = none →
      s.tile.copySlot.isSome = true →
      ∃ t r, exec (.folioRun d a) s = .next t ∧ t.tile.strm.replay = some r ∧ r.counts = rs.map (·.deps) ∧
        r.bases = #v[s.sr a, s.sr (a + 1), s.sr (a + 2), s.sr (a + 3)] ∧ Marked s t d)

/-- R253 to R261, on a steward tile: MIGR asks a bound member to halt for its move, and MIGR.G, with no member bound, queues the publish that puts the group on the spare; a
MAPWR writes its table entry, and with P = 1 queues the publish for its token; MAPRD reads the current slot; SHOOT sends its range, from the page of its address for that many pages or
the whole address space, to the 48 edge agents; ALMSET holds its entry for the next frame, but not for a maintenance or control slot, and its token is 1; TILEOFF stops a tile that no
position names; ECCRD reads and clears the counters. The model's choices in it: these act on other tiles and write their tokens in the step of their issue (log entry 11); an edge port's
table stands at field (0, 0) (log entry 12); a slot that names a steward's nonet is staged as any other (log entry 84); no move goes to a tile that an earlier one goes to (log entry 102). -/
def Obligations.StewardInstructions : Prop :=
  ∀ (s : State) (d a b : Reg), s.onSteward = true → (∀ m ∈ s.tile.net.marks, m.id < s.tile.net.nextId) →
    (s.clear (.migr d a b) [a, b] = true → migrates s (Phys.ofOperand (s.sr a)) (Phys.ofOperand (s.sr b)) = true →
      (s.tileAt (Phys.ofOperand (s.sr a))).core.phase ≠ .unbound → Phys.ofOperand (s.sr a) ≠ s.tile.phys →
      ∃ t m, exec (.migr d a b) s = .next t ∧ (t.tileAt (Phys.ofOperand (s.sr a))).net.mig = some m ∧
        m.dst = Phys.ofOperand (s.sr b) ∧ m.step = .requested ∧ Marked s t d) ∧
    (∀ g, s.clear (.migrG d a b) [a, b] = true → replaces s (Phys.ofOperand (s.sr a)) (Phys.ofOperand (s.sr b)) = some g →
      s.boundMembers s.tile.phys.field (slotNonet (s.fld.readEntry g)) = [] → s.groupCarrel s.tile.phys.field g = none →
      ∃ t r, exec (.migrG d a b) s = .next t ∧ t.fld.queued = s.fld.queued ++ [r] ∧
        r.slots = [.spare g (Phys.ofOperand (s.sr b)).nonet] ∧ Marked s t d) ∧
    (∀ i rs u, tableWrite s i = some (d, rs, 0, u) → s.clear i rs = true → exec i s = .next (u.after 2)) ∧
    (∀ i rs u, tableWrite s i = some (d, rs, 1, u) → s.clear i rs = true →
      ∃ t r, exec i s = .next t ∧ t.fld.queued = u.fld.queued ++ [r] ∧ r.slots = [] ∧ Marked s t d ∧
        r.mark = if d = 0 then none else some (s.tile.phys, s.tile.net.nextId)) ∧
    (s.clear (.maprd d a) [a] = true →
      exec (.maprd d a) s = .next ((s.setPair d (s.fld.readEntry ((s.sr a).toNat % 2048))).after 2)) ∧
    (s.clear (.shoot d a b) [a, b, a + 1] = true → (s.sr (a + 1)).toNat < 2 ^ 27 →
      ∃ t h, exec (.shoot d a b) s = .next t ∧ t.wafer.shoots = s.wafer.shoots ++ [h] ∧ h.carrel = (s.sr (a + 1) >>> 16).setWidth 11 ∧
        h.missing = List.range 48 ∧ (s.sr b = 0 → h.lo = 0 ∧ h.hi = 2 ^ 48) ∧
        (∀ va, s.sr b ≠ 0 → va = ((s.sr a).toNat + 2 ^ 32 * ((s.sr (a + 1)).toNat % 65536)) / 4096 * 4096 →
          h.lo = va ∧ h.hi = min (va + 4096 * (s.sr b).toNat) (2 ^ 48)) ∧ Marked s t d) ∧
    (s.clear (.almset d a b) [a, b] = true → (s.sr a).toNat / 65536 % 64 < 57 → (s.sr b).toNat < 65536 →
      serviceSlot ((s.sr a).toNat % 4096) = true →
      ∃ t, exec (.almset d a b) s = .next t ∧ (d ≠ 0 → t.sr d = 1) ∧
        (t.fieldAt (s.almanacField ((s.sr a).toNat / 65536 % 64))).almNext =
          (s.fieldAt (s.almanacField ((s.sr a).toNat / 65536 % 64))).almNext ++
            [((s.sr a).toNat / 65536 % 64, (s.sr a).toNat % 4096, (s.sr b).setWidth 16 &&& 0x87FF)]) ∧
    (s.clear (.almset d a b) [a, b] = true → (s.sr a).toNat / 65536 % 64 < 57 → (s.sr b).toNat < 65536 →
      serviceSlot ((s.sr a).toNat % 4096) = false →
      ∃ t, exec (.almset d a b) s = .next t ∧ (d ≠ 0 → t.sr d = 1) ∧ t.flds = s.flds) ∧
    (∀ q, s.clear (.tileoff d a) [a] = true → s.physOf (s.sr a) = some q → q.steward = false → s.fld.names q = false →
      ∃ t, exec (.tileoff d a) s = .next t ∧ (t.tileAt q).stop.off = true ∧ (d ≠ 0 → t.sr d = 0) ∧ q ∈ t.fld.defects) ∧
    (∀ q, s.clear (.eccrd d a) [a] = true → s.urgent = false → s.physOf (s.sr a) = some q → (s.sr a).getLsbD 31 = false →
      exec (.eccrd d a) s = .next (((s.setS d (s.tileAt q).view.eccWords.1).setS (d + 1) (s.tileAt q).view.eccWords.2).after 2))

namespace Sys2Proof.Claims

/-- A register that R207 lists with access RO. -/
def readOnly (n : Nat) : Bool := ctlListed n && !(([0x10, 0x11, 0x12, 0x13, 0x14, 0x15, 0x60] : List Nat).contains n)

end Sys2Proof.Claims

/-- R351, R356: an instruction of majors 0x78 to 0x7E outside steward mode raises code 0x02 with the pc and its bits, and so does MFC or MTC of a
steward's register there; a number that R207 does not list raises code 0x03 on every tile; an MTC to a read-only register is ignored. An
instruction that the urgent level forbids raises code 0x0C there, whether or not it would wait. -/
def Obligations.ModeChecks : Prop :=
  (∀ (s : State) (i : Instr), (i = .eret ∨ ∃ d a b p, i = .migr d a b ∨ i = .migrG d a b ∨ i = .mapwrSlot d a b p ∨
      i = .mapwrDetour d a b p ∨ i = .mapwrOwnership d a b p ∨ i = .mapwrDistbound d a b p ∨ i = .maprd d a ∨ i = .shoot d a b ∨
      i = .almset d a b ∨ i = .tileoff d a ∨ i = .archive d a b ∨ i = .eccrd d a) →
    i.wf = true → s.onSteward = false →
    exec i s = .next (s.precise { code := 0x02, addr := BitVec.ofNat 32 s.pcNat, info := BitVec.ofNat 32 i.bits })) ∧
  (∀ (s : State) (i : Instr) (n : BitVec 7) (w : Bool), ((∃ d, i = .mfc d n ∧ w = false) ∨ ∃ a, i = .mtc a n ∧ w = true) → i.wf = true →
    (ctlListed n.toNat = false →
      exec i s = .next (s.precise { code := 0x03, addr := s.pcWord, info := BitVec.ofNat 32 (n.toNat + if w then 128 else 0) })) ∧
    (ctlListed n.toNat = true → ctlSteward n.toNat = true → s.onSteward = false →
      exec i s = .next (s.precise { code := 0x02, addr := s.pcWord, info := BitVec.ofNat 32 i.bits }))) ∧
  (∀ (s : State) (a : Reg) (n : BitVec 7), s.clear (.mtc a n) [a] = true → readOnly n.toNat = true →
    (ctlSteward n.toNat = true → s.onSteward = true) → exec (.mtc a n) s = .next (s.after 2)) ∧
  (∀ (s : State) (i : Instr), (i = .doneG ∨ i = .doneGCompact ∨ i = .strmSync ∨ i = .sfence ∨ i = .fenceFar ∨ i = .scopeClose ∨
      (∃ m, i = .sleep m) ∨ (∃ x, i = .fence x) ∨ (∃ d, i = .scopeOpen d ∨ i = .free d ∨ i = .pin d ∨ i = .barArrive d ∨ i = .barWait d ∨
        i = .folioLoad d ∨ i = .strmStop d ∨ i = .tzero d) ∨ (∃ d a b n, i = .wmcfg d a b ∨ i = .strmCfg d a ∨ i = .tarm d a ∨
        i = .tfeed d a ∨ i = .tdrain d a n ∨ i = .tcfg n ∨ i = .recvSel d a) ∨ (∃ d a b f, i = .strmBind d a b f) ∨ (∃ d a m r, i = .rqacc d a m r) ∨
        ∃ d a b w, i = .ldp d a b w ∧ s.tile.view.pw[w.toNat].kind = 1) →
    i.wf = true → s.urgent = true → exec i s = .next (s.precise { code := 0x0C, info := BitVec.ofNat 32 i.bits }))

/-- R353: an instruction with an unallocated field value raises code 0x01 with the pc and its bits, whatever the mode and the state. -/
def Obligations.UnallocatedFields : Prop :=
  ∀ (s : State) (i : Instr), i.parcels ≠ 0 → i.wf = false →
    exec i s = .next (s.precise { code := 0x01, addr := BitVec.ofNat 32 s.pcNat, info := BitVec.ofNat 32 i.bits })

namespace Sys2Proof.Claims

/-- The gang of a faulting residency goes on: it has none, or its receiver can act on the notice (R340, R344). -/
def Notified (s : State) : Prop :=
  s.myGang = none ∨ ∃ n p, s.receiver = some (n, p) ∧ p ≠ s.tile.phys ∧ s.receives p = true

/-- A residency that runs or waits. -/
def Busy (s : State) : Prop := s.urgent = true ∨ s.tile.core.phase = .running ∨ s.tile.core.phase = .waiting

/-- A fault of the residency is recorded as in R336, with the pc at which the level halts. -/
def Recorded (s t : State) (code : Nat) (pc : Pc) (addr info : Word) : Prop :=
  t.tile.stop.faulted = some s.tile.core.level ∧ t.tile.stop.fcause.toNat % 256 = code ∧ t.tile.stop.fpc = pc ∧ t.tile.stop.faddr = addr ∧
    t.tile.stop.finfo = info ∧ t.tile.core.cur = s.tile.core.cur ∧ t.tile.core.normal = s.tile.core.normal ∧
    t.tile.core.shadow = s.tile.core.shadow ∧ t.tile.view.mem = s.tile.view.mem

/-- A fault would be recorded at this state: no fault is, and no cancel covers the running work (R338). -/
def Recordable (s : State) : Prop := s.onSteward = false ∧ s.tile.stop.faulted = none ∧ s.workCovered = false ∧ Notified s

/-- A packet asks for something at the tile in focus and nothing turns it away (R37, R375). -/
def Comes (s : State) (p : Packet) (b : Body) : Prop := s.arriving = some p ∧ p.body = b ∧ s.turnedAway p true = none

end Sys2Proof.Claims

/-- R46 to R48, R27, R26, R35, R54: selection takes the oldest entry of the lowest class; dispatch begins a task from its record and a
handler from its message's header, and drops covered work; an entry whose word of the ring is
uncorrectable starts nothing, and is the hard fault 0x80 of the task unit (R337); aging moves an entry to the next class, while the work keeps the class it was pushed
with (log entry 67), at the next place of its ring (log entry 92); a boost notice sets the boost class. -/
def Obligations.TaskUnit : Prop :=
  ∀ (s : State),
    (∀ x l r, (∀ m ∈ s.tile.task.members.toList, m = none) → s.tile.task.rings = l ++ x :: r → (∀ y ∈ l, x.prio < y.prio) →
      (∀ y ∈ r, x.prio ≤ y.prio) → s.tile.select = some x) ∧
    (∀ e a, s.selectable = true → s.still = false → s.tile.select = some e → e.word ∉ s.tile.view.bad → e.work = .task a → s.tile.task.overflow = [] →
      s.tile.view.mapCheck a.toNat 16 false = .ok → s.tile.seek a.toNat 16 true 5 = .ok →
      let w := fun n => s.drained.tile.recWord a.toNat n
      (s.coveredBy (s.drained.tile.recScope a.toNat) = false → ∃ t, exec .taskDispatch s = .next t ∧ t.tile.core.phase = .running ∧ t.tile.core.cur.work = .task a ∧
        t.tile.core.cur.pc = (w 4).setWidth 13 ∧ t.sr 1 = w 8 ∧ t.tile.core.cur.scope = s.drained.tile.recScope a.toNat ∧
        t.tile.core.cur.prio = e.runs ∧
        t.tile.task.rings = s.tile.task.rings.erase e) ∧
      (s.coveredBy (s.drained.tile.recScope a.toNat) = true → ∃ t, exec .taskDispatch s = .next t ∧ t.tile.core = s.tile.core ∧
        t.tile.task.rings = s.tile.task.rings.erase e)) ∧
    (∀ e n m, s.selectable = true → s.still = false → s.tile.select = some e → e.word ∉ s.tile.view.bad → e.work = .msg n → s.tile.task.overflow = [] →
      s.tile.task.queue.find? (·.id = n) = some m → s.coveredBy m.scope = false →
      ∃ t, exec .taskDispatch s = .next t ∧ t.tile.core.phase = .running ∧ t.tile.core.cur.pc = (s.tile.handler m.cls).1 ∧
        t.tile.core.cur.tag = m.tag ∧ t.tile.core.cur.src = m.src ∧ t.tile.core.cur.scope = m.scope ∧ t.tile.core.cur.cls = m.cls ∧
        t.tile.core.cur.cursor.cur = some m.id ∧ t.tile.task.rings = s.tile.task.rings.erase e) ∧
    (∀ e, s.selectable = true → s.still = false → s.tile.select = some e → e.word ∈ s.tile.view.bad → s.tile.task.overflow = [] →
      ∃ t f, exec .taskDispatch s = .next t ∧ t.tile.stop.pend = s.tile.stop.pend ++ [f] ∧ f.code = 0x80 ∧ f.hard = true ∧ f.agent = 5 ∧ f.addr = 0 ∧
        t.tile.task.rings = s.tile.task.rings.erase e ∧ t.tile.core.cur = s.tile.core.cur) ∧
    (∀ e l r, s.tile.task.rings = l ++ e :: r → s.tile.task.overflow = [] → Config.agingClk ≤ e.age → e.prio ≠ 0 →
      s.tile.ringCount (e.prio - 1) < 256 → (∀ y ∈ l, y.age < Config.agingClk) →
      ∃ t, exec .agingPromotion s = .next t ∧ t.tile.task.rings = l ++ r ++ [{ e with prio := e.prio - 1, age := 0, native := some e.runs, slot := ringPlace (l ++ r) (e.prio - 1) }] ∧
        t.tile.core = s.tile.core) ∧
    (∀ (p : Packet) (b : BarId) (c : BitVec 2) (k : Nat) (m : Member), s.arriving = some p → ((∃ h a, p.body = .boostCount c h a ∧ b = .count h a) ∨ ∃ n, p.body = .boostLine c n ∧ b = .line n) →
      s.tile.task.members.toList[k]? = some (some m) → m.bar = b → m.arrived = false → m.boost = none →
      ∃ t, exec .boostNotice s = .next t ∧ t.tile.task.members.toList[k]? = some (some { m with boost := some c }) ∧ t.net = s.net.erase p)

/-- R49 to R53, R359, R35, R24, R361: an urgent SEND is held, its class checked then, and accepted at a boundary, the normal level halting as it stands, or removed with
code 0x0E; an overrun
of the urgent level and a wait beyond its limit are faults; the masked window and covered work end at their limits; a wait whose condition
holds is over. -/
def Obligations.UrgentLevelAndLimits : Prop :=
  ∀ (s : State),
    (∀ p tag bs, Comes s p (.send tag bs) → s.sendWay p tag = .urgent → s.tile.task.urgents.length < 4 →
      s.tile.granulesUsed + granules bs.length ≤ 192 → s.tile.task.armed = [] →
      ∃ t m, exec .urgentRequest s = .next t ∧ t.tile.task.urgents = s.tile.task.urgents ++ [m] ∧ m.cls = p.hdr.cls ∧ m.tag = tag ∧
        m.src = p.hdr.src ∧ m.scope = p.hdr.scope ∧ m.payload = bs ∧ m.dead = !(s.tile.handler p.hdr.cls).2 ∧ t.tile.core.cur = s.tile.core.cur) ∧
    (∀ m ms, s.tile.task.urgents = m :: ms → s.acceptable = true → s.still = false → s.coveredBy m.scope = false → m.dead = false →
      ∃ t, exec .urgentAccept s = .next t ∧ t.urgent = true ∧ t.tile.core.halt = some s.tile.core.cur ∧
        t.tile.core.cur.pc = (s.tile.handler m.cls).1 ∧ t.tile.core.cur.tag = m.tag ∧ t.tile.core.cur.src = m.src ∧
        t.tile.core.cur.scope = m.scope ∧ t.tile.core.cur.loops = [] ∧ t.tile.task.urgents = ms ∧ t.tile.core.normal = s.tile.core.normal ∧
        t.tile.core.phase = s.tile.core.phase) ∧
    (∀ m ms, s.tile.task.urgents = m :: ms → s.still = false → s.coveredBy m.scope = false → m.dead = true →
      ∃ t f, exec .urgentAccept s = .next t ∧ t.tile.task.urgents = ms ∧ t.tile.core = s.tile.core ∧ t.tile.stop.pend = s.tile.stop.pend ++ [f] ∧ f.code = 0x0E) ∧
    (s.urgent = true → Config.urgentLimit ≤ s.tile.core.urgentClk → Recordable s →
      ∃ t, exec .urgentOverrun s = .next t ∧ Recorded s t 0x0D s.tile.core.cur.pc 0 0) ∧
    (∀ n, s.tile.core.mask = some n → Config.maskLimit ≤ n →
      ∃ t, exec .maskWindowTimeout s = .next t ∧ t.tile.core.mask = none ∧ t.tile.core.mko = true ∧ t.tile.core.cur = s.tile.core.cur) ∧
    (∀ n, s.tile.core.cur.kill = some n → Config.haltLimit ≤ n → s.workCovered = true →
      ∃ t, exec .killCounterExpiry s = .next t ∧ t.tile.core.phase = .idle ∧ t.tile.core.cur.work = .none ∧ t.tile.core.cur.loops = []) ∧
    (s.tile.core.phase = .waiting → s.urgent = false → s.fld.paused = false → (∀ w, s.tile.core.wait = some w → s.waitOver w = true) →
      exec .waitConditionMet s = .next { s with tile.core.phase := .running }) ∧
    (∀ w, s.tile.core.wait = some w → s.waitLimit ≠ 0 → s.waitLimit * Config.watchdogUnit ≤ w.clk → s.urgent = false → Busy s → Recordable s →
      ∃ t, exec .waitWatchdogExpiry s = .next t ∧
        Recorded s t 0x16 s.tile.core.cur.pc w.addr (BitVec.ofNat 32 (w.reason + 65536 * s.waitLimit)))

/-- R335, R338, R342, R344, R252, R350: a pending fault is taken at the boundary, or counted as extra where the gang has been ended faulted; the reply to a fault retries, skips or kills; a held steward
event is entered; an encoding that is no instruction raises code 0x01. -/
def Obligations.FaultSteps : Prop :=
  ∀ (s : State),
    (∀ f, s.nextPend = some f → s.tile.moving = false → s.tile.stop.archived = false → f.hard = false → Recordable s →
      ∃ t, exec .faultTaken s = .next t ∧ t.tile.stop.pend = s.tile.stop.pend.erase f ∧
        (Busy s → Recorded s t f.code.toNat s.tile.core.cur.pc f.addr f.info) ∧
        (¬ Busy s → s.ending = false → Recorded s t f.code.toNat 0 f.addr f.info)) ∧
    (∀ f, s.nextPend = some f → s.tile.moving = false → s.tile.stop.archived = false → f.hard = false → s.onSteward = false →
      s.tile.stop.faulted = none → s.ending = true → ∃ t, exec .faultTaken s = .next t ∧ t.tile.stop.faulted = none ∧ t.tile.core = s.tile.core ∧
        causeExtra t.tile.stop.fcause = min (causeExtra s.tile.stop.fcause + 1) 255) ∧
    (∀ p tag bs, s.arriving = some p → p.body = .send tag bs → s.isReply p = true → s.tile.core.phase ≠ .unbound →
      s.coveredBy p.hdr.scope = false → s.replyGood tag = true → s.tile.stop.faulted = some s.tile.core.level →
      (tag.toNat % 4 = 0 → s.tile.stop.fcause.toNat % 256 ≠ 4 → ∃ t, exec .faultReply s = .next t ∧ t.tile.stop.faulted = none ∧
        t.tile.core = { s.tile.core with latch := s.tile.core.latch ||| 1 }) ∧
      (tag.toNat % 4 = 1 → s.tile.stop.fcause.toNat % 256 ≠ 4 → s.tile.stop.fcause.getLsbD 8 = true → s.tile.stop.fcause.getLsbD 11 = false →
        s.tile.core.cur.loops = [] → s.tile.stop.fpc.toNat + parcelsOf (s.tile.view.ist.parcel s.tile.stop.fpc.toNat) < 0x2000 →
        ∃ t, exec .faultReply s = .next t ∧ t.tile.stop.faulted = none ∧
          t.tile.core.cur.pc.toNat = s.tile.stop.fpc.toNat + parcelsOf (s.tile.view.ist.parcel s.tile.stop.fpc.toNat)) ∧
      (tag.toNat % 4 = 2 → s.urgent = false → (s.tile.core.phase = .running ∨ s.tile.core.phase = .waiting) →
        ∃ t, exec .faultReply s = .next t ∧ t.tile.stop.faulted = none ∧ t.tile.core.phase = .idle)) ∧
    (∀ e es, s.tile.stw.exns = e :: es → s.onSteward = true → s.tile.stw.active = false → s.tile.stop.off = false →
      ∃ t, exec .stewardException s = .next t ∧ t.tile.stw.exns = es ∧ t.tile.stw.sepc = e.next.getD s.tile.core.cur.pc ∧
        t.tile.stw.scause = e.cause ∧ t.tile.stop.faddr = e.addr ∧ t.tile.stop.finfo = e.info ∧ t.tile.stw.active = true ∧
        t.tile.core.cur.pc = (s.tile.handler 14).1) ∧
    (∀ w, s.fetch = .bad w → s.issuing = true → s.still = false →
      exec .unallocatedEncoding s = .next (s.precise { code := 0x01, addr := s.pcWord, info := BitVec.ofNat 32 w }))

/-- R34 to R39, R32, R184, R332: a cancel notice that reaches a tile lists its scope there and drops what it covers; each tile that is rid of the scope sends the number
that it has killed or dropped to the root; the last one to come has the token written with the total, and the scope reported; the home steward ends the gangs under it; a
retirement unlists the scope at each tile, whose cancels of the scopes under it wait for that tile no more (log entry 64), and, acknowledged by all, frees
its index. -/
def Obligations.Cancels : Prop :=
  ∀ (s : State) (c : Carrel) (w : Sweep) (l r : List Sweep) (p : Packet), s.myCarrel = some c → s.carrels = [c] →
    (c.sweeps = l ++ w :: r → (∀ z ∈ l, z.scope ≠ w.scope) → s.tile.phys ∈ w.missing → s.tile.moving = false → s.tile.stop.archived = false →
      (s.arriving = some p → p.body = .cancelNotice w.scope → p.hdr.carrel = s.tile.id.carrel → (∀ d ∈ s.tile.task.drops, d.1 ≠ w.scope) →
        w.scope ∉ s.tile.net.heldCancels → s.tile.core.phase ≠ .unbound → s.tile.core.busy = false → s.urgent = false →
        ∃ t, exec .cancelNotice s = .next t ∧ t.tile.task.cancels = listScope s.tile.task.cancels w.scope ∧
          (s.tile.task.overflow = [] → t.tile.task.rings = s.tile.task.rings.filter fun e => !covered t.tile.task.cancels e.scope) ∧
          (∀ a ∈ t.tile.task.armed ++ t.tile.task.fires, covered t.tile.task.cancels a.scope = false) ∧
          (∀ x ∈ t.tile.strm.copies, covered t.tile.task.cancels x.scope = false) ∧
          (∀ x ∈ t.tile.strm.regs, covered t.tile.task.cancels x.pat.scope = false)) ∧
      (∀ n, s.inp.pkt = none → s.inp.word = w.scope → s.tile.task.drops = [(w.scope, n)] → s.tile.rid w.scope = true → r = [] → l = [] →
        ∃ t v, exec .cancelAck s = .next t ∧ t.tile.task.drops = [] ∧ t.carrels.head?.map (·.sweeps) = some [v] ∧
          v.missing = w.missing.erase s.tile.phys ∧ v.coming = w.coming + 1 ∧ v.total = w.total ∧
          t.net = (s.tell c.num s.tile.id.name w.root w.scope (.cancelAck w.scope (BitVec.ofNat 32 n))).net)) ∧
    (∀ n, c.sweeps = [w] → s.arriving = some p → p.body = .cancelAck w.scope n → p.hdr.carrel = s.tile.id.carrel → p.hdr.dst = w.root → 0 < w.coming →
      (w.host = true → (s.fieldAt c.home).slot % 16 = 8) →
      ∃ t v, exec .cancelAck s = .next t ∧ t.carrels.head?.map (·.sweeps) = some [v] ∧ v.missing = w.missing ∧ v.coming = w.coming - 1 ∧
        v.total = w.total + n ∧ v.reported = (w.missing.isEmpty && w.abroad.isEmpty && v.coming == 0) ∧
        ∀ id k, w.token = some (s.tile.phys, id) → v.reported = true → s.tile.net.marks.find? (·.id = id) = some k → k.level = s.tile.core.level →
          k.pair = false → k.reg ≠ 0 → t.sr k.reg = w.total + n) ∧
    (c.sweeps = l ++ w :: r → (∀ z ∈ l, z.reported = false) → w.reported = true → s.inp.n = c.num → s.inService c = true →
      ∃ t k, exec .cancelDoneReport s = .next t ∧ t.carrels = [k] ∧ k.gangs.length = c.gangs.length ∧
        ∀ g ∈ k.gangs, isDescendant g.scope w.scope = true → g.state ≠ .running ∧ g.state ≠ .loading) ∧
    (c.retires = [w] → s.arriving = some p → p.body = .retireNotice w.scope → p.hdr.carrel = s.tile.id.carrel → s.tile.phys ∈ w.missing →
      s.tile.moving = false → s.tile.stop.archived = false →
      ∃ t k, exec .retireNotice s = .next t ∧ t.carrels = [k] ∧
        k.retires = [{ w with missing := w.missing.erase s.tile.phys, coming := w.coming + 1 }] ∧
        (∀ z, c.sweeps = [z] → isDescendant z.scope w.scope = true → s.tile.phys ∈ z.missing →
          k.sweeps = [{ z with missing := z.missing.erase s.tile.phys, coming := z.coming + 1 }]) ∧
        (t.tile.task.cancels = s.tile.task.cancels.filter fun y => !isDescendant y w.scope) ∧
        t.tile.task.drops = s.tile.task.drops.filter fun d => !isDescendant d.1 w.scope) ∧
    (c.retires = [w] → s.arriving = some p → p.body = .retireAck w.scope → p.hdr.carrel = s.tile.id.carrel → p.hdr.dst = w.root → 0 < w.coming →
      ∃ t k, exec .retireAckComplete s = .next t ∧ t.carrels = [k] ∧ k.retires = [{ w with coming := w.coming - 1 }]) ∧
    (c.retires = [w] → s.inp.pkt = none → w.scope = s.inp.word → s.inp.n = c.num → w.missing = [] → w.abroad = [] → w.coming = 0 → w.token = none →
      w.origin = none → s.inService c = true →
      ∃ t k, exec .retireAckComplete s = .next t ∧ t.carrels = [k] ∧ k.retires = [] ∧
        k.listed = c.listed.filter (fun y => !isDescendant y w.scope) ∧ k.kids = c.kids &&& ~~~(BitVec.ofNat 16 (2 ^ scopeIndex w.scope)) ∧
        ∀ b, w.note = some b → k.ring.waiting = c.ring.waiting ++ [b ++ natBytes 8 (s.fieldAt c.home).ns])

namespace Sys2Proof.Claims

/-- Bytes are written at an address of a memory, and no other byte changes. -/
def Stores (m : Memory) (a : Nat) (bs : List Byte) (m' : Memory) : Prop :=
  ∀ b, m'.read b = if a ≤ b ∧ b < a + bs.length then bs.getD (b - a) 0 else m.read b

/-- A message record has the header and payload of a SEND (R304). -/
def HasHeader (m : Msg) (p : Packet) (tag : Word) (bs : List Byte) : Prop :=
  m.cls = p.hdr.cls ∧ m.prio = p.hdr.prio ∧ m.tag = tag ∧ m.src = p.hdr.src ∧ m.scope = p.hdr.scope ∧ m.payload = bs

/-- What is in flight once a packet has been answered with one acknowledgement (R123). -/
def netAfter (s : State) (p : Packet) (how : AckKind) (a : Nat) (copy : Option Nat) : List Packet := ((s.unsend p).ackTo p how a copy).net

/-- What a destination sends back for a packet, and the state in which it has (R142, R290). -/
def answer (p : Packet) (b : Body) : Packet := { hdr := backHdr p, body := b, urg := p.urg }
def answered (s : State) (p : Packet) (b : Body) : State := (s.unsend p).emit (answer p b)

/-- The step from `s` has put one far request in flight to its entry port (R86). -/
def Asks (s t : State) (c : Carrel) (use : FarFor) (va len : Nat) (write : Bool) (bs : List Byte) : Prop :=
  ∃ q, t.net = s.net ++ [q] ∧ q.body = .farReq use va len write bs ∧ q.origin = s.tile.phys ∧
    q.way.map (·.dst) = some (edgeAgent (c.entryPort va)) ∧ q.hdr.carrel = s.tile.id.carrel

/-- The tensor operand FIFO that a slab enters (R299). -/
def fifoOf (s : State) (tb : Bool) : Fifo := if tb then s.tile.tens.tb else s.tile.tens.ta

end Sys2Proof.Claims

/-- R26, R299, R304, R307 to R312, R37, R375: the operation that reaches its residency has its effect there and is acknowledged; one that is
turned away is acknowledged as such with no other effect. A slab moves no receive counter (the model's choice, log entry 35). What is sent back to a name that
leads somewhere is on its way there. -/
def Obligations.OperationsArrive : Prop :=
  ∀ (s : State) (p : Packet),
    (∀ b d o, p.hdr.dst ≠ 0xFFFFFFFF → s.leads s.tile.phys (answer p b) = some (d, o) →
      ∃ q, (answered s p b).net = s.net.erase p ++ [q] ∧ q.hdr = backHdr p ∧ q.body = b ∧ q.way.map (·.dst) = some d) ∧
    (∀ tag bs, Comes s p (.send tag bs) → s.sendWay p tag = .queue → s.tile.granulesUsed + granules bs.length ≤ 176 →
      (s.tile.handler p.hdr.cls).2 = true → s.tile.ringCount p.hdr.prio < 256 → s.tile.view.bad = [] → s.tile.task.armed = [] →
      ∃ t m, exec .messageArrival s = .next t ∧ t.tile.task.queue = s.tile.task.queue ++ [m] ∧ HasHeader m p tag bs ∧
        t.tile.task.rings = s.tile.task.rings ++
          [{ work := .msg m.id, prio := p.hdr.prio, scope := p.hdr.scope,
             slot := ringPlace s.tile.task.rings p.hdr.prio }] ∧
        t.net = netAfter s p .performed 0 none) ∧
    (∀ tag bs tb c hi next sc, Comes s p (.send tag bs) → s.sendWay p tag = .slab tb → bs.length = 8 * s.tile.tens.fmt.bytes + 32 →
      (fifoOf s tb).bind = .fabric c hi next sc → (tag.setWidth 16 = next ∨ tag.setWidth 16 = next + 1) →
      (∀ x ∈ (fifoOf s tb).slabs, x.1 ≠ tag.setWidth 16) →
      ∃ t, exec .slabMessage s = .next t ∧
        (fifoOf t tb).slabs = (fifoOf s tb).slabs ++ [((tag.setWidth 16 : BitVec 16), slabOf s.tile.tens.fmt bs)] ∧
        fifoOf t (!tb) = fifoOf s (!tb) ∧ t.tile.task = s.tile.task ∧ t.net = netAfter s p .performed 0 none) ∧
    (s.tile.view.mem.wf = true →
      (∀ a bs c, Comes s p (.rst a bs c) → s.landing p a bs.length true (decide (bs.length < 8)) 3 = .go → (c = none ∨ s.tile.task.armed = []) →
        ∃ t, exec .rstArrival s = .next t ∧ Stores s.tile.view.mem a bs t.tile.view.mem ∧ t.net = netAfter s p .performed a none ∧
          t.tile.core.normal = s.tile.core.normal ∧
          ∀ k, c = some k → (s.tile.task.cnt[k.toNat]).mode = 3 →
            (t.tile.task.cnt[k.toNat]).count = (s.tile.task.cnt[k.toNat]).count + BitVec.ofNat 32 bs.length) ∧
      (∀ a op wide reg m x cmp, Comes s p (.ratom a op wide reg m x cmp) →
        let n := if wide then 8 else 4
        let old := s.tile.view.mem.getN a n
        s.landing p a n true true 3 = .go →
        ∃ t, exec .ratomArrival s = .next t ∧ Stores s.tile.view.mem a (natBytes n (atomNew (8 * n) op old x.toNat cmp.toNat)) t.tile.view.mem ∧
          t.net = ((answered s p (.ratomReply reg wide m (BitVec.ofNat 64 old) .performed)).ackTo p .performed a).net) ∧
      (∀ a n, Comes s p (.tdec a n) → s.landing p a (if s.tile.completes a n then 16 else 8) true true 3 = .go → n.toNat ≤ (s.tile.recWord a 0).toNat → s.tile.recWord a 0 ≠ 0 →
        ∃ t, exec .tdecArrival s = .next t ∧ Stores s.tile.view.mem a (natBytes 4 (s.tile.recWord a 0 - n).toNat) t.tile.view.mem ∧
          t.net = netAfter s p .performed a none ∧
          (n.toNat < (s.tile.recWord a 0).toNat → t.tile.task = s.tile.task) ∧
          (n = s.tile.recWord a 0 → s.tile.view.bad = [] → s.coveredBy (s.tile.recScope a) = false →
            s.tile.ringCount (recPrio (s.tile.recWord a 4)) < 256 → t.tile.task.rings = s.tile.task.rings ++
              [{ work := .task (BitVec.ofNat 32 a), prio := recPrio (s.tile.recWord a 4), scope := s.tile.recScope a,
                 slot := ringPlace s.tile.task.rings (recPrio (s.tile.recWord a 4)) }])) ∧
      (∀ a w arg, Comes s p (.spawn a w arg) → s.landing p a 16 true false 3 = .go → s.tile.view.bad = [] →
        s.tile.ringCount (recPrio w) < 256 →
        ∃ t, exec .spawnArrival s = .next t ∧ t.net = netAfter s p .performed a none ∧
          Stores s.tile.view.mem a (natBytes 4 0 ++ natBytes 4 (w.toNat % 2 ^ 15) ++ natBytes 4 arg.toNat ++ natBytes 4 p.hdr.scope.toNat)
            t.tile.view.mem ∧
          t.tile.task.rings = s.tile.task.rings ++
            [{ work := .task (BitVec.ofNat 32 a), prio := recPrio w, scope := p.hdr.scope &&& 0x7FFFFFFF,
               slot := ringPlace s.tile.task.rings (recPrio w) }])) ∧
    (∀ a xs, s.arriving = some p → p.body = .istore a xs → (s.turnedAway p false = none ∨ p.dest ≠ none ∧ s.cut = false) →
      s.tile.view.ist.wf = true →
      ∃ t, exec .istoreArrival s = .next t ∧ t.net = netAfter s p .performed a none ∧
        ∀ q, t.tile.view.ist.parcel q = if a ≤ q ∧ q < a + xs.length then xs.getD (q - a) 0 else s.tile.view.ist.parcel q) ∧
    (∀ reg w id x how mk, s.arriving = some p → p.body = .ratomReply reg w id x how → how ≠ .dropped → s.tile.net.marks = [mk] → mk.id = id →
      mk.level = .normal → mk.reg ≠ 0 →
      ∃ t, exec .ratomReply s = .next t ∧ t.net = s.net.erase p ∧ t.tile.net.marks = [] ∧ t.tile.core.normal.sreg mk.reg = x.setWidth 32 ∧
        (mk.pair = true → mk.reg ≠ 31 → t.tile.core.normal.sreg (mk.reg + 1) = (x >>> 32).setWidth 32)) ∧
    (∀ how i a, s.arriving = some p → s.turnedAway p true = some how → how ≠ .dropped →
      ((∃ tag bs, i = .messageArrival ∧ p.body = .send tag bs ∧ a = 0) ∨ (∃ bs c, i = .rstArrival ∧ p.body = .rst a bs c) ∨
        (∃ n, i = .tdecArrival ∧ p.body = .tdec a n) ∨ ∃ w g, i = .spawnArrival ∧ p.body = .spawn a w g) →
      exec i s = .next ((s.unsend p).ackTo p how a))

/-- R93, R94, R302, R123, R290, R341, R370, R375: a GET request is accepted and served chunk by chunk; a reply and a PUT's chunk are written;
an acknowledgement lowers its count or confirms a chunk, or brings a fault; a copy ends with its token. That a PUT's chunks are acknowledged one by one, and that what a
source has accepted it serves a chunk at a time, is the model's choice (log entry 16). -/
def Obligations.CopyTraffic : Prop :=
  ∀ (s : State) (p : Packet) (c : Copy),
    (∀ a len id dst off, Comes s p (.getReq a len id dst off) → s.tile.view.mapCheck a len false = .ok →
      exec .getRequestArrival s = .next { s with net := s.net.erase p, tile.strm.serves := s.tile.strm.serves ++ [p] }) ∧
    (∀ a len id dst off, s.inp.pkt = none → s.tile.strm.serves[s.inp.n]? = some p → p.body = .getReq a len id dst off → s.tile.moving = false →
      s.tile.stop.off = false → s.tile.stop.archived = false → s.fld.paused = false → s.tile.view.mapCheck (a + off) (chunkLen a off len) false = .ok →
      s.tile.seek (a + off) (chunkLen a off len) true 1 = .ok →
      ∃ t, exec .getRequestArrival s = .next t ∧
        t.net = (s.emit (answer p (.getReply id off (s.tile.view.mem.bytes (a + off) (chunkLen a off len))))).net ∧
        (off + chunkLen a off len < len → t.tile.strm.serves = s.tile.strm.serves.set s.inp.n
          { p with body := .getReq a len id dst (off + chunkLen a off len) }) ∧
        (len ≤ off + chunkLen a off len → t.tile.strm.serves = s.tile.strm.serves.eraseIdx s.inp.n)) ∧
    (s.tile.strm.copies = [c] →
      (∀ off bs, s.arriving = some p → p.body = .getReply c.id off bs → c.wm = none → c.got = [] → s.tile.view.mem.wf = true →
        s.tile.seek (c.dst + off) bs.length false 1 = .ok →
        ∃ t, exec .getReplyArrival s = .next t ∧ Stores s.tile.view.mem (c.dst + off) bs t.tile.view.mem ∧ t.net = s.net.erase p ∧
          t.tile.strm.copies = [{ c with landed := c.landed + bs.length, pend := c.pend.filter (·.1 ≠ off) }]) ∧
      (∀ cls op a len st, s.arriving = some p → p.body = .ack cls op .performed a (some c.id) → s.tile.core.phase ≠ .unbound →
        c.pend = [(a - c.dst, len, st)] →
        ∃ t, exec .performanceAck s = .next t ∧ t.tile.strm.copies = [{ c with landed := c.landed + len, pend := [] }]) ∧
      (c.slot = s.inp.n → c.pend = [] → s.tile.moving = false → s.tile.task.armed = [] → s.tile.task.fires = [] →
        (c.ended = none → c.landed = c.length →
          ∃ t, exec .copyComplete s = .next t ∧ t.tile.strm.copies = [] ∧ (c.cen = none → t.net = s.net) ∧
            ∀ m, c.mark = some m.id → s.tile.net.marks = [m] → m.level = .normal → m.pair = false → m.reg ≠ 0 →
              t.tile.core.normal.sreg m.reg = BitVec.ofNat 32 c.length ∧ t.tile.net.marks = []) ∧
        (∀ f, c.ended = some f → s.replyInFlight c.id = false → s.tile.strm.replay = none →
          ∃ t, exec .copyFaultEnd s = .next t ∧ t.tile.strm.copies = [] ∧ t.tile.stop.pend = s.tile.stop.pend ++ [f] ∧
            ∀ m, c.mark = some m.id → s.tile.net.marks = [m] → m.level = .normal → m.pair = false → m.reg ≠ 0 →
              t.tile.core.normal.sreg m.reg = BitVec.ofNat 32 (2 ^ 31 + c.landed) ∧ t.tile.net.marks = []))) ∧
    (∀ id a bs wm cnt last tag, Comes s p (.putChunk id a bs wm cnt last tag) → s.landing p a bs.length true false 1 = .go →
      (cnt = none ∨ s.tile.task.armed = []) → s.tile.view.mem.wf = true →
      ∃ t, exec .putChunkArrival s = .next t ∧ Stores s.tile.view.mem a bs t.tile.view.mem ∧ t.net = netAfter s p .performed a (some id)) ∧
    (∀ cls op how a, s.arriving = some p → p.body = .ack cls op how a none → op ≠ 0x0F → s.tile.core.phase ≠ .unbound →
      s.tile.task.fires = [] →
      ∃ t, exec .performanceAck s = .next t ∧ t.tile.net.acks = s.tile.net.acks.set cls.toNat (s.tile.net.acks[cls.toNat] - 1) ∧
        t.net = s.net.erase p ∧
        (how = .performed ∨ how = .dropped → t.tile.stop = s.tile.stop) ∧
        (how = .refused → t.tile.stop.pend = s.tile.stop.pend ++
          [{ code := 0x5C, agent := 4, urgent := p.urg, addr := BitVec.ofNat 32 a,
             info := BitVec.ofNat 32 (op + if p.armed then 32 else 0) }]))

/-- R76 to R79, R86 to R89, R148, R171, R181, R268, R302, R372, R373, R377, R378: a far request leaves for its entry port, joins its carrel's queue there, is admitted
in an owned slot, at most 112 in a slot of a port at its full width and rate, is translated, past a 4 KiB boundary of a PUT.FAR's destination by a translation of its own,
is performed 16 slots later, or in a later slot that its carrel owns, and answered, and its reply lands; a write under way as its memory's link went down leaves some of
its 64-byte lines new and ends with 0x5D (log entry 89); a SHOOT is acknowledged or forced; pages are asked for, come back and go out, and one that cannot come back stays
out with its cause (log entry 39); background work goes on; an edge port's link and keys change, and a retrain gives it a width and a rate, and not keys (log entry
90). -/
def Obligations.FarMemoryAndPaging : Prop :=
  ∀ (s : State) (n m : Nat) (k : Copy) (r : FarReq) (x : Shoot) (q : Page) (c : Carrel) (p : Packet), n = s.inp.n → m = s.inp.m →
    (s.inp.pkt = none → s.myCarrel = some c → Speaks s → s.tile.moving = false → s.tile.stop.off = false → s.fld.paused = false →
      (∀ off len, n < 16 → s.tile.strm.copies = [k] → k.slot = n → k.ended = none → k.pend = [(off, len, .queued)] →
        (k.kind = .getFar → s.tile.hasCredit k off len = true →
          ∃ t, exec .farRequest s = .next t ∧ t.tile.strm.copies = [{ k with pend := [(off, len, .sent)] }] ∧
            Asks s t c (.copy k.id off) (k.src + off) len false [] ∧ t.tile.net.acks[3] = s.tile.net.acks[3] + 1) ∧
        (k.kind = .putFar → s.tile.seek (k.src + off) len true 1 = .ok →
          ∃ t, exec .farRequest s = .next t ∧ t.tile.strm.copies = [{ k with pend := [(off, len, .sent)] }] ∧
            Asks s t c (.copy k.id off) (k.dst + off) len true (s.tile.view.mem.bytes (k.src + off) len) ∧
            t.tile.net.acks[3] = s.tile.net.acks[3] + 1)) ∧
      (∀ w, n = 16 → s.tile.strm.farWord = some w → w.sent = false → w.word = none → w.fail = none → overlapsQueued s.tile.strm.copies w.va 4 = false →
        ∃ t, exec .farRequest s = .next t ∧ t.tile.strm.farWord = some { w with sent := true } ∧ Asks s t c (.word w.id) w.va 4 false []) ∧
      (∀ e, n = 17 → s.tile.strm.farReads = [e] → e.who = m → e.sent = false → e.data = none → e.fail = none →
        ∃ t, exec .farRequest s = .next t ∧ t.tile.strm.farReads = [{ e with sent := true }] ∧ Asks s t c (.elem e.id) e.va 16 false []) ∧
      (∀ io, n = 18 → s.tile.view.pages = [q] → q.vbase = m → q.io = some io → io.sent < pageSize q.k → q.bad = [] →
        ∃ t, exec .farRequest s = .next t ∧ t.tile.view.pages = [{ q with io := some { io with sent := io.sent + 256 } }] ∧
          Asks s t c (.page io.id io.sent) (s.spillAddr c (q.vbase + io.sent)) 256 io.out
            (if io.out then s.tile.view.mem.bytes (q.vbase + io.sent) 256 else []))) ∧
    (∀ use va len w bs, s.arrivingAt (edgeAgent n) = some p → p.body = .farReq use va len w bs →
      ∃ t, exec .farRequest s = .next t ∧ t.net = s.net.erase p ∧ (t.port n).reqs = (s.port n).reqs ++
        [{ tile := p.origin, name := p.hdr.src, use := use, len := len, va := va, carrel := p.hdr.carrel, write := w, data := bs }]) ∧
    (∀ o sc, s.portOwner n = some o → sc = (s.fieldAt (edgeField n)).slotCount →
      ∃ t, exec .edgePortSlot s = .next t ∧ (t.port n).slot = sc ∧ (t.port n).used ≤ max (s.port n).used (s.port n).quota ∧
        ((s.port n).width = 16 → (s.port n).rate = 64 → (s.port n).quota = 112) ∧
        ((s.port n).slot ≠ sc → (s.port n).reqs.length ≤ (s.port n).quota → (∀ e ∈ (s.port n).reqs, e.carrel = o ∧ e.admitted = none) →
          (t.port n).reqs = (s.port n).reqs.map fun e => { e with admitted := some sc })) ∧
    ((s.port n).reqs[m]? = some r → r.admitted ≠ none → r.phys = none → r.failed = none → s.portOwner n = some r.carrel →
      s.carrel r.carrel.toNat = some c →
      (∀ pa u, r.va % 4096 + r.len ≤ 4096 → s.translateAt n c r.va r.len r.write = (.inl pa, u) →
        ∃ t, exec .translationWalkDone s = .next t ∧ (t.port n).reqs[m]? = some { r with phys := some pa }) ∧
      (∀ l pa pb u v, l = 4096 - r.va % 4096 → l < r.len → s.translateAt n c r.va l r.write = (.inl pa, u) →
        u.translateAt n c (r.va + l) (r.len - l) r.write = (.inl pb, v) →
        ∃ t, exec .translationWalkDone s = .next t ∧ (t.port n).reqs[m]? = some { r with phys := some pa, more := some (l, pb) }) ∧
      (∀ code info u, r.va % 4096 + r.len ≤ 4096 → s.translateAt n c r.va r.len r.write = (.inr (code, info), u) →
        ∃ t f, exec .translationWalkDone s = .next t ∧ (t.port n).reqs[m]? = some { r with failed := some f } ∧ f.code = code)) ∧
    (∀ pa a, s.inp.pkt = none → (s.port n).reqs[m]? = some r → r.phys = some pa → r.failed = none → r.admitted = some a →
      (∀ e ∈ (s.port n).reqs.take m, e.name ≠ r.name ∨ e.carrel ≠ r.carrel) →
      ((s.fieldAt (edgeField n)).slotCount = a + 16 ∨ a + 16 ≤ (s.fieldAt (edgeField n)).slotCount ∧ s.portOwner n = some r.carrel) →
      r.more = none → s.memoryAt pa r.len = true → s.inp.k = 0 → s.wafer.far.wf = true →
      ∃ t e, exec .farReplyArrival s = .next t ∧ (t.port n).reqs = (s.port n).reqs.eraseIdx m ∧ t.net = s.net ++ [e] ∧
        e.dest = some r.tile ∧ e.hdr.dst = r.name ∧
        (r.torn = true → (∃ f, e.body = .farReply r.use r.len r.write (some f) [] ∧ f.code = 0x5D) ∧
          Stores s.wafer.far pa (s.tornBytes pa r.data) t.wafer.far) ∧
        (r.torn = false → (s.port n).live = false → t.wafer.far = s.wafer.far ∧
          ∃ f, e.body = .farReply r.use r.len r.write (some f) [] ∧ f.code = 0x5D) ∧
        (r.torn = false → (s.port n).live = true → r.write = true → e.body = .farReply r.use r.len true none [] ∧ Stores s.wafer.far pa r.data t.wafer.far) ∧
        (r.torn = false → (s.port n).live = true → r.write = false → e.body = .farReply r.use r.len false none (s.wafer.far.bytes pa r.len) ∧ t.wafer.far = s.wafer.far)) ∧
    (∀ use len w bad bs, s.arriving = some p → p.body = .farReply use len w bad bs →
      (∀ y, use = .word y.id → s.tile.strm.farWord = some y → bad = none →
        ∃ t, exec .farReplyArrival s = .next t ∧ t.tile.strm.farWord = some { y with word := some (BitVec.ofNat 32 (leNat bs)) }) ∧
      (∀ off, use = .copy k.id off → s.tile.strm.copies = [k] →
        (w = true → bad = none → ∃ t, exec .farReplyArrival s = .next t ∧
          t.tile.strm.copies = [{ k with landed := k.landed + len, pend := k.pend.filter (·.1 ≠ off) }] ∧
          t.tile.net.acks[3] = s.tile.net.acks[3] - 1) ∧
        (w = false → bad = none → k.wm = none → k.got = [] → s.tile.view.mem.wf = true → s.tile.seek (k.dst + off) len false 1 = .ok →
          ∃ t, exec .farReplyArrival s = .next t ∧ Stores s.tile.view.mem (k.dst + off) bs t.tile.view.mem) ∧
        (∀ f, bad = some f → k.ended = none → ∃ t j, exec .farReplyArrival s = .next t ∧ t.tile.strm.copies = [j] ∧
          j.ended = some { f with urgent := k.urgent }))) ∧
    (s.wafer.shoots = [x] → m = 0 → n ∈ x.missing →
      ((∀ e ∈ (s.port n).reqs, e.shot x = false) →
        ∃ t, exec .shootAgentAck s = .next t ∧ (∀ e ∈ (t.port n).tlb, ¬ (e.carrel = x.carrel ∧ x.lo < e.va + e.size ∧ e.va < x.hi)) ∧
          t.wafer.shoots = if x.missing.erase n = [] then [] else [{ x with missing := x.missing.erase n }]) ∧
      (Config.shootLimit ≤ x.clk →
        ∃ t, exec .shootTimeout s = .next t ∧ (t.port n).forced = true ∧ (∀ e ∈ (t.port n).reqs, e.phys = none) ∧
          t.wafer.shoots = if x.missing.erase n = [] then [] else [{ x with missing := x.missing.erase n }])) ∧
    (∀ io, s.tile.view.pages = [q] → q.vbase = n → q.io = some io → pageSize q.k ≤ io.done →
      (∀ b, io.out = false → io.bad = none → io.frame = some b →
        ∃ t, exec .pageInDone s = .next t ∧ t.tile.view.mem = s.tile.view.mem ∧ t.tile.view.pages =
          [{ q with resident := true, pbase := b, pagingIn := false, failed := none, dirty := false, io := none }]) ∧
      (∀ f, io.out = false → io.bad = some f →
        ∃ t, exec .pageInDone s = .next t ∧ t.tile.view.pages = [{ q with pagingIn := false, io := none, failed := some f }]) ∧
      (io.out = true → ∃ t, exec .pageOutDone s = .next t ∧
        t.tile.view.pages = [{ q with spill := if io.bad = none then .held else .lost, io := none }])) ∧
    (∀ l ls ps, s.tile.view.pages = q :: ps → q.unzeroed = l :: ls →
      exec .lineZeroed s = .next { s with tile.view.pages := { q with unzeroed := ls } :: ps }) ∧
    (Config.epochClk ≤ s.tile.view.epochClk → ∃ t, exec .epochTick s = .next t ∧ t.tile.view.epoch = s.tile.view.epoch + 1 ∧
      t.tile.view.epochClk = s.tile.view.epochClk - Config.epochClk ∧
      t.tile.view.pages = s.tile.view.pages.map fun p => if p.used then { p with stamp := s.tile.view.epoch + 1, used := false } else p) ∧
    (n < 48 →
      ((s.port n).up = true → ∃ t, exec .cxlLinkDown s = .next t ∧
        t.port n = { s.port n with up := false, reqs := (s.port n).reqs.map (FarReq.tear n) } ∧ portKey n ∈ (t.fieldAt (edgeField n)).did) ∧
      (((s.port n).up = false ∨ (s.port n).forced = true) → (s.fieldAt (edgeField n)).slot = 0 →
        (s.fieldAt (edgeField n)).did.contains (portKey n) = false → (s.fieldAt (edgeField n)).served = true →
        ∃ t, exec .cxlLinkRetrain s = .next t ∧ portKey n ∈ (t.fieldAt (edgeField n)).did ∧ (s.inp.ok = false → t.port n = s.port n) ∧
          (s.inp.ok = true → ∃ w z, t.port n = { s.port n with up := true, forced := false, width := w, rate := z } ∧
            (w = 16 ∨ w = 8 ∨ w = 4) ∧ (z = 64 ∨ z = 32))) ∧
      ((s.port n).up = false → ∃ t, exec .cxlLinkReturned s = .next t ∧ t.port n = { s.port n with up := true }) ∧
      ((s.port n).secure = true → ∃ t, exec .ideIntegrityFailure s = .next t ∧ t.port n = { s.port n with secure := false }) ∧
      ((s.port n).secure = false → ∃ t, exec .ideKmKeyExchange s = .next t ∧ t.port n = { s.port n with secure := true }))

namespace Sys2Proof.Claims

/-- The rows that a drain writes: address and bytes (R297). -/
def drainRanges (d : DrainDesc) : List (Nat × Nat) :=
  match drainFp d.fmt with
  | some f => (List.range 8).map fun i => ((d.target + i * d.stride) % 2 ^ 32, f.width)
  | none => [0, 1].flatMap fun i => [((d.target + (BkFmt.ofCode (d.fmt - 4)).bytes * i) % 2 ^ 32, (BkFmt.ofCode (d.fmt - 4)).bytes),
      ((d.side + 4 * i) % 2 ^ 32, 4)]

/-- The values that a drain of accumulator `n` without scales gives, in ascending order of output, and the writes that they make (R116, R297). -/
def drained (s : State) (n : BitVec 2) : List XVal :=
  (List.range 64).map fun i =>
    (((((s.tile.tens.acc[n.toNat]).mapOuts fun _ o => o.settle).1).outs.toList.getD i {}).drain 0x3F800000 0x3F800000).1
def drainRows (s : State) (n : BitVec 2) (d : DrainDesc) (adv : List Word) : List (Nat × List Byte) := (d.results adv (drained s n)).1

/-- The next slab of a tensor operand FIFO in a format, with what is left of it (R295, R298, R299): zeros where nothing is bound; of a local binding the
next 2 × ebits data elements and two sidecar elements; of a fabric binding the slab of the next sequence number. -/
def NextSlab (q : Fifo) (f : BkFmt) (a : Slab) (r : Fifo) : Prop :=
  (q.bind = .unbound ∧ a = zeroSlab ∧ r = q) ∨
  (∃ d e, q.bind = .loc d e ∧ 2 * f.ebits ≤ q.data.length ∧ 2 ≤ q.side.length ∧
    a = slabFrom f (q.data.take (2 * f.ebits)) (q.side.take 2) ∧ r = { q with data := q.data.drop (2 * f.ebits), side := q.side.drop 2 }) ∨
  ∃ c hi next sc l, q.bind = .fabric c hi next sc ∧ q.slabs = (next, a) :: l ∧ r = { q with bind := .fabric c hi (next + 1) sc, slabs := l }

/-- What an arrival makes of a count barrier's word (R165), as (arrived, target, generation). -/
def arrived (w : Nat) : Nat × Nat × Nat :=
  if barArrived w + 1 < barTarget w then (barArrived w + 1, barTarget w, barGen w) else (0, barTarget w, (barGen w + 1) % 256)

/-- What a decrement makes of it: a target of 0 stays 0. -/
def decremented (w : Nat) : Nat × Nat × Nat :=
  if barArrived w = 0 ∨ barArrived w < barTarget w - 1 then (barArrived w, barTarget w - 1, barGen w)
  else (0, barTarget w - 1, (barGen w + 1) % 256)

/-- The residency's memory can be reached by an agent's operation on a range. -/
def Reachable (s : State) (a n : Nat) : Prop := s.tile.view.mapCheck a n true = .ok ∧ s.tile.seek a n true 3 = .ok

/-- The name of a message leads somewhere from the tile in focus (R63, R64). -/
def Leads (s : State) (p : Packet) : Prop := (s.leads s.tile.phys p).isSome = true

/-- The answer to a store that a port turns back (R374, R398). -/
def turned (p : Packet) (how : AckKind) : Packet := { hdr := backHdr p, body := .ack 2 1 how 0 none, armed := p.armed, urg := p.urg }

/-- No flit that stands in the router in focus belongs to a message withdrawn from the fabric. -/
def Current (s : State) : Prop := ∀ x ∈ s.tile.router.bufs, s.under x.2 = true

/-- The router of a tile keeps a flit from an input (R142, R145, R390): it is on, the header is not reserved, and where the link check concerns the flit
its carrel owns the local port, the input and the output. -/
def Admits (t : Tile) (d : Dir) (x : Flit) : Prop :=
  t.router.off = false ∧ t.router.dead = false ∧ reservedHdr x.hdr = false ∧
    (exempt x.hdr = true ∨ t.owns 0 x.hdr.carrel = true ∧ (d ≠ .lcl → t.owns (Dir.code d) x.hdr.carrel = true) ∧
      ∀ n r e, t.hop (home x.hdr.dst) x.hops = some (n, r, e) → t.owns (n + 1) x.hdr.carrel = true)

/-- A carrel that the state holds, alone. -/
def Only (s : State) (c : Carrel) : Prop := s.carrels = [c] ∧ c.live = true

end Sys2Proof.Claims

/-- R90 to R92, R111 to R116, R160, R291 to R298, R319: a pattern's next element enters its buffer; the head tensor command is performed; a
k-step takes a slab of each FIFO, of a local binding cut in the format that is current for it (the model's choice, log entry 35), and adds to its accumulator; a drain writes
its rows and its token, at addresses taken modulo 2^32, as a far pattern's elements are modulo 2^48 (the model's choice, log entry 22); a folio operation's end lowers its
successors' counts. -/
def Obligations.EnginesWork : Prop :=
  ∀ (s : State) (c : TensorCmd) (cs : List TensorCmd), s.still = false →
    (∀ r : StreamReg, s.inp.n = r.n.toNat → s.tile.strm.regs = [r] → r.pat.ended = false → r.buf.length < 4 →
      (r.pat.pat.at r.pat.next = none → ∃ t, exec .streamElementFetch s = .next t ∧ t.tile.strm.regs =
        [{ r with buf := r.buf ++ [fillRow r.pat.pat.fill], pat := { r.pat with next := r.pat.next + 1 } }]) ∧
      (∀ x a, r.pat.pat.at r.pat.next = some x → r.pat.pat.space = 0 → a = (wrap32 x).toNat → s.tile.view.mapCheck a 16 false = .ok →
        s.tile.seek a 16 true 1 = .ok →
        ∃ t, exec .streamElementFetch s = .next t ∧ t.tile.view.mem = s.tile.view.mem ∧ t.tile.strm.regs =
          [{ r with buf := r.buf ++ [s.tile.view.mem.row a], pat := { r.pat with next := r.pat.next + 1 } }]) ∧
      (∀ x e bs, r.pat.pat.at r.pat.next = some x → r.pat.pat.space = 1 → s.tile.strm.farReads = [e] → e.who = s.inp.n →
        e.va = (x % 2 ^ 48).toNat → e.fail = none → e.data = some bs →
        ∃ t, exec .streamElementFetch s = .next t ∧ t.tile.strm.farReads = [] ∧ t.tile.strm.regs =
          [{ r with buf := r.buf ++ [BitVec.ofNat 128 (leNat bs)], pat := { r.pat with next := r.pat.next + 1 } }])) ∧
    (s.tile.tens.kstep = none → s.tile.tens.cmds = c :: cs →
      (∀ f, c.op = .tcfg f → exec .tensorCommandPerform s = .next { s with tile.tens.cmds := cs, tile.tens.fmt := f }) ∧
      (∀ n, c.op = .tzero n → ∃ t, exec .tensorCommandPerform s = .next t ∧ t.tile.tens.cmds = cs ∧
        (t.tile.tens.acc[n.toNat]).outs = Vector.replicate 64 {} ∧ (t.tile.tens.acc[n.toNat]).p = (s.tile.tens.acc[n.toNat]).p) ∧
      (∀ n p, c.op = .tarm n p → ∃ t, exec .tensorCommandPerform s = .next t ∧ t.tile.tens.cmds = cs ∧ (t.tile.tens.acc[n.toNat]).p = p) ∧
      (∀ tb b, c.op = .bind tb b → ∃ t, exec .tensorCommandPerform s = .next t ∧ t.tile.tens.cmds = cs ∧
        fifoOf t tb = { bind := b, own := c.own } ∧ fifoOf t (!tb) = fifoOf s (!tb)) ∧
      (∀ n k a b qa qb, c.op = .tfeed n (k + 1) → NextSlab s.tile.tens.ta s.tile.tens.fmt a qa → NextSlab s.tile.tens.tb s.tile.tens.fmt b qb →
        ∃ t, exec .kstepFire s = .next t ∧ t.tile.tens.kstep = some { n := n, a := a, b := b, fmt := s.tile.tens.fmt } ∧
          t.tile.tens.ta = qa ∧ t.tile.tens.tb = qb ∧
          t.tile.tens.cmds = if k = 0 then cs else { c with op := .tfeed n k } :: cs) ∧
      (∀ n d adv mk, c.op = .tdrain n d adv (some mk.id) → d.rsen = false → d.csen = false →
        (∀ x ∈ drainRanges d, s.tile.view.mapCheck x.1 x.2 true = .ok ∧ s.tile.seek x.1 x.2 (decide (x.2 < 8)) 2 = .ok) →
        s.tile.net.marks = [mk] → mk.level = .normal → mk.pair = false → mk.reg ≠ 0 → s.tile.view.mem.wf = true →
        ∃ t, exec .tdrainPerform s = .next t ∧ t.tile.tens.cmds = cs ∧ t.tile.net.marks = [] ∧
          t.tile.core.normal.sreg mk.reg = BitVec.ofNat 32 (drainBytes d.fmt) ∧
          (∀ x ∈ drainRows s n d adv, (∀ y ∈ drainRows s n d adv, y = x ∨ x.1 + x.2.length ≤ y.1 ∨ y.1 + y.2.length ≤ x.1) →
            t.tile.view.mem.bytes x.1 x.2.length = x.2) ∧
          ∀ b, (∀ x ∈ drainRanges d, ¬ (x.1 ≤ b ∧ b < x.1 + x.2)) → t.tile.view.mem.read b = s.tile.view.mem.read b)) ∧
    (∀ k, s.tile.tens.kstep = some k → s.fld.paused = false → ∃ t, exec .kstepComplete s = .next t ∧ t.tile.tens.kstep = none ∧
      t.tile.tens.acc[k.n.toNat] = ((s.tile.tens.acc[k.n.toNat]).kstep k.fmt k.a k.b).1 ∧
      (∀ n : Fin 4, n.val ≠ k.n.toNat → t.tile.tens.acc[n] = s.tile.tens.acc[n]) ∧ t.tile.tens.cmds = s.tile.tens.cmds) ∧
    (∀ r a rs, s.tile.strm.replay = some r → s.tile.strm.folio = some (a, rs) → r.issued.contains s.inp.n = true →
      r.completed.contains s.inp.n = false → r.completed.length + 1 < r.counts.length → r.failed = false → r.recvs = [] →
      s.tile.strm.copies = [] → (∀ e ∈ s.tile.comb.toList, e.gated = []) →
      ∃ t, exec .folioOpComplete s = .next t ∧ t.tile.strm.replay = some { r with
        completed := r.completed ++ [s.inp.n], counts := lowerCounts r.counts (((rs[s.inp.n]?).map (·.succ)).getD []) })

/-- R150 to R158, R164, R165, R184, R247, R391: a token joins its input's buffer or is discarded with a fault; a node folds its heads and
sends the result towards the root; notices and markers pass; a count barrier's arrivals and decrements change its word and are answered,
and its replies and releases reach the membership entries; a line's wave and reports. A release carries the withdrawal that brought it, or that its generation has
had, and the entry that it ends keeps it (the model's bookkeeping for R331, log entry 60). -/
def Obligations.CombiningAndBarriersWork : Prop :=
  ∀ (s : State) (p : Packet) (i : Fin 16),
    (∀ tok d, s.arriving = some p → p.body = .combine tok → s.tile.entryOf tok.route = some i → s.inputOf p.hdr.src = some d →
      (s.tile.comb[i]).inputs.getLsbD (Dir.code d) = true → (s.tile.comb[i]).suits tok = true →
      ∃ t, exec .combineToken s = .next t ∧ (t.tile.comb[i]).bufs = (s.tile.comb[i]).bufs ++ [(d, tok)] ∧ t.net = s.net.erase p) ∧
    (∀ tok, s.arriving = some p → p.body = .combine tok → s.tile.entryOf tok.route = none → s.onSteward = false → s.tile.core.phase ≠ .unbound →
      ∃ t, exec .combineToken s = .next t ∧ t.tile.router.tokens = s.tile.router.tokens + 1 ∧
        t.tile.comb = s.tile.comb ∧ ∃ f, t.tile.stop.pend = s.tile.stop.pend ++ [f] ∧ f.code = 0x71 ∧ f.addr = tok.route.setWidth 32) ∧
    (∀ tok d n, s.inp.pkt = none → s.inp.ok = false → s.inp.n % 16 = i.val → s.still = false → (s.tile.comb[i]).valid = true →
      (s.tile.comb[i]).dirs = [d] → (s.tile.comb[i]).bufs = [(d, tok)] → tok.idx = (s.tile.comb[i]).rootDone →
      (s.tile.comb[i]).out ≠ 0 → s.combNeighbour (dirOf (s.tile.comb[i]).out.toNat) = some n → (s.tile.comb[i]).type.toNat < 4 →
      (∃ v, tok.data = .lanes v) →
      ∃ t, exec .combineToken s = .next t ∧ (t.tile.comb[i]).rootDone = (s.tile.comb[i]).rootDone + 1 ∧ (t.tile.comb[i]).bufs = [] ∧
        t.net = (s.emit { hdr := s.hdr n 0, body := .combine { tok with route := (s.tile.comb[i]).route } }).net) ∧
    (∀ hs n v fl, s.inp.pkt = none → s.inp.ok = false → s.inp.n % 16 = i.val → s.still = false → (s.tile.comb[i]).valid = true →
      (s.tile.comb[i]).dirs ≠ [] → (s.tile.comb[i]).heads = some hs → (∀ h ∈ hs, h.2.idx = (s.tile.comb[i]).rootDone) →
      (s.tile.comb[i]).out ≠ 0 → s.combNeighbour (dirOf (s.tile.comb[i]).out.toNat) = some n →
      (s.tile.comb[i]).foldToks (hs.map (·.2)) = (v, fl, none) →
      ∃ t, exec .combineToken s = .next t ∧ (t.tile.comb[i]).rootDone = (s.tile.comb[i]).rootDone + 1 ∧
        t.net = (s.emit
          { hdr := s.hdr n 0,
            body := .combine { route := (s.tile.comb[i]).route, idx := (s.tile.comb[i]).rootDone, flags := fl, data := v } }).net) ∧
    (∀ (e : CombEntry) (a b : CombTok) (x y : VWord), e.blkFmt = none → a.data = .lanes x → b.data = .lanes y →
      e.foldToks [a, b] = (.lanes (foldLanes e.type.toNat x y).1, a.flags ||| b.flags ||| ((foldLanes e.type.toNat x y).2).setWidth 4, none)) ∧
    (∀ r seg x, s.arriving = some p → p.body = .renorm r seg x → s.tile.entryOf r = some i →
      ((s.tile.comb[i]).out = 0 → ∃ t, exec .renormNotice s = .next t ∧ t.net = s.net.erase p ∧
        (t.tile.comb[i]).grown = (s.tile.comb[i]).grown ++ [(seg, x)]) ∧
      (∀ n, (s.tile.comb[i]).out ≠ 0 → s.combNeighbour (dirOf (s.tile.comb[i]).out.toNat) = some n →
        exec .renormNotice s = .next ((s.unsend p).emit { hdr := s.hdr n 0, body := .renorm r seg x }))) ∧
    (∀ r seg run, s.arriving = some p → p.body = .marker r seg run → s.tile.entryOf r = some i → seg = (s.tile.comb[i]).markers →
      ∃ t, exec .segmentMarker s = .next t ∧ (t.tile.comb[i]).markers = seg + 1 ∧ (t.tile.comb[i]).run = (s.tile.comb[i]).runNext ∧
        (t.tile.comb[i]).runNext = run) ∧
    (∀ a, s.arriving = some p → s.turnedAway p false = none → Reachable s a 8 → s.tile.view.mem.wf = true →
      let w := s.tile.view.mem.getN a 8
      (p.body = .barArrive a → ∃ t, exec .barrierArrival s = .next t ∧
        (let w' := t.tile.view.mem.getN a 8
         (barArrived w', barTarget w', barGen w') = arrived w) ∧
        (barArrived w + 1 < barTarget w → t.net = (answered s p (.barReply p.hdr.dst a (BitVec.ofNat 8 (barGen w)))).net) ∧
        (barTarget w ≤ barArrived w + 1 → ∀ q ∈ s.bound p.hdr.carrel.toNat,
          let x : Packet := { hdr := { backHdr p with dst := (s.tileAt q).id.name }, body := .barRelease p.hdr.dst a (BitVec.ofNat 8 (barGen w + 1)) (s.tile.withdrew a) }
          p.hdr.dst ≠ 0xFFFFFFFF → Leads s x → ∃ e ∈ t.net, e.hdr = x.hdr ∧ e.body = x.body)) ∧
      (∀ nt, p.body = .barDec a nt → ∃ t, exec .barrierDecrement s = .next t ∧
        let w' := t.tile.view.mem.getN a 8
        (barArrived w', barTarget w', barGen w') = decremented w)) ∧
    (∀ (h : Word) (a : Nat) (g : BitVec 8) (k : Nat) (m : Member), s.arriving = some p → s.tile.task.members.toList[k]? = some (some m) → m.bar = .count h a →
      m.arrived = true →
      (p.body = .barReply h a g → m.g = none → m.release ≠ some (g + 1) → s.tile.task.fires = [] →
        ∃ t, exec .barrierArrival s = .next t ∧ t.tile.task.members.toList[k]? = some (some { m with g := some g })) ∧
      (∀ x, p.body = .barRelease h a g x → m.g = some (g - 1) →
        ∃ t, exec .barrierReleaseNotice s = .next t ∧ t.net = s.net.erase p ∧ t.tile.core.latch.getLsbD 6 = true ∧
          t.tile.task.members.toList[k]? = some (some { m with release := some g, cause := x, arrived := false, freed := x }))) ∧
    (∀ c n, Only s c → s.inp.n = c.num → n = BitVec.ofNat 2 s.inp.m →
      (c.lineWaves = [] → s.lineDone c n = true → ∃ t k, exec .lineRelease s = .next t ∧ t.carrels = [k] ∧ k.lineWaves = [(n, s.lineTiles c)]) ∧
      (∀ (ps : List Phys) (k : Nat) (m : Member), c.lineWaves = [(n, ps)] → s.tile.phys ∈ ps → s.tile.task.members.toList[k]? = some (some m) → m.bar = .line n →
        ∃ t, exec .lineRelease s = .next t ∧ t.tile.core.latch.getLsbD 6 = true ∧
          t.tile.task.linePhase.getLsbD n.toNat = !s.tile.task.linePhase.getLsbD n.toNat ∧ t.tile.task.members.toList[k]? =
            some (some { m with arrived := m.pending, pending := false, phase := !m.phase, boost := none })) ∧
      (c.k < c.nw → 1 < c.nw → c.nw < 4096 → s.lineHigh c n = true → c.lineWaves = [] → (n, c.k) ∉ c.reports →
        ∃ t k, exec .linePhaseReport s = .next t ∧ t.carrels = [k] ∧ k.reports = c.reports ++ [(n, c.k)] ∧
          (c.k ≠ 0 → ∃ e ∈ t.net, e.body = .lineReport n ∧ e.hdr.dst = mkName (c.nw - c.k) 0 0)))

/-- R139 to R145, R142, R149, R182, R183, R374, R385, R389, R390, R397, R398: a flit enters a router and is kept for its next hop, delivered or discarded, and a message has arrived with
its last flit; a link's output serves the channels in their order, sends a group, accepts the expected one, retries and dies; a cut router takes its tile with it, and its nonet is replaced; a peer
port sends a frame, accepts the expected one, resolves the message it ends or turns it back, replays, and leaves the lists when it is lost, its end markers behind what it
has accepted (log entries 96 and 97). -/
def Obligations.LinksWork : Prop :=
  ∀ (s : State) (n : Nat) (q : Phys) (l : Link) (p : Packet),
    (Current s → s.inp.k = 0 →
      (∀ v w x, s.inp.dir = .lcl → s.inp.pkt = some p → p.way = some v → s.board p v s.inp.m = w → home w.src = s.tile.phys → x = ({ msg := w.id, i := w.sent, hdr := p.header w } : Flit) →
        (s.net.find? fun q => q.hdr.carrel == p.hdr.carrel && q.way.any fun v => v.src == w.src && v.vc == w.vc && decide (v.sent < q.len + 1)) = some p →
        s.tile.buffered .lcl (p.header w) < 8 →
        (stewardNotice p = true → 0 < w.sent ∨ s.fld.slot % 16 = 8) →
        (w.vc = 3 → 0 < w.sent ∨ s.admits p w w.lane.toNat = true) → Admits s.tile .lcl x →
        ∃ t, exec .routerFlitArrival s = .next t ∧ t.tile.router.bufs = s.tile.router.bufs ++ [(.lcl, { x with since := s.clkAt s.tile })] ∧
          t.net = (s.putPacket p { p with way := some { w with sent := w.sent + 1 } }).net) ∧
      (∀ x xs, s.inp.dir ≠ .lcl → (s.tile.router.link (Dir.code s.inp.dir - 1)).accepted = x :: xs → s.under x = true →
        (Admits s.tile s.inp.dir x → ∃ t, exec .routerFlitArrival s = .next t ∧ t.net = s.net ∧
          t.tile.router.bufs = s.tile.router.bufs ++ [(s.inp.dir, { x with since := s.clkAt s.tile })] ∧
          (t.tile.router.link (Dir.code s.inp.dir - 1)).accepted = xs) ∧
        (s.tile.router.off = true → s.fld.did.contains (routerKey s.tile.phys) = true →
          ∃ t, exec .routerFlitArrival s = .next t ∧ t.tile.router.stray = s.tile.router.stray + 1 ∧ t.tile.router.bufs = s.tile.router.bufs))) ∧
    (∀ x, Current s → s.inp.k = 1 → ((heads s.tile.router.bufs).find? fun x => x.1 == s.inp.dir && x.2.hdr.vc.toNat == s.inp.n &&
        x.2.hdr.lane.toNat == s.inp.m) = some x → s.tile.hop (home x.2.hdr.dst) x.2.hops = none →
      (x.2.hdr.dst.agent = false → s.tile.owns 0 x.2.hdr.carrel = true ∧ s.holdFull x.2.hdr = false) → (x.2.hdr.dst.agent = true → exempt x.2.hdr = true) →
      exec .routerFlitArrival s = .next ({ s with tile := s.tile.popFlit x (s.clkAt s.tile) }.flitEnds x.2.msg false)) ∧
    (∀ m w, s.onWay m = some (p, w) → w.left = 1 → w.lost = false →
      { p with way := none, place := some (w.dst, s.serial), fwd := w.fwd } ∈ (s.flitEnds m false).net) ∧
    (∀ (t : Tile) (c : Nat) (xs : List (Dir × Flit × List (BitVec 2))),
      (c % 4 ≠ 3 → (∀ x ∈ xs, c < x.2.1.since + 64) → (∃ x ∈ xs, x.2.1.hdr.vc = 4) → ∀ x ∈ s.served t c xs, x.2.1.hdr.vc = 4) ∧
      (c % 4 = 3 → ∀ x ∈ s.served t c xs, (x.2.1.hdr.vc = 3 ∧ (s.fieldAt t.phys.field).owns (53 + x.2.1.hdr.lane.toNat) x.2.1.hdr.carrel = true) ∨
        (x.2.1.hdr.vc = 4 ∧ x.2.1.hdr.stw = true ∧ (s.fieldAt t.phys.field).slot % 16 = 8))) ∧
    (n = s.inp.n % 4 → physOver s.tile.phys n = some q → l = s.tile.router.link n → l.dead = false →
      (∀ u g, Current s → s.inp.k = 0 → l.taken ≤ s.clkAt s.tile → l.unacked.length < 16 → s.tile.router.dead = false →
        s.fillGroup n (s.tileAt q) s.inp.bytes 4 s.tile [] = (u, g) → (∃ x ∈ g, x ≠ none) →
        exec .linkGroup s = .next { s with tile := u.setLink n { u.router.link n with
          next := (u.router.link n).next + 1, wires := (u.router.link n).wires ++ [(u.router.link n).next],
          unacked := (u.router.link n).unacked ++ [{ seq := (u.router.link n).next, flits := g, bits := s.groupBits g }],
          taken := s.clkAt s.tile + 4 } }) ∧
      (∀ i is g, s.inp.k = 1 → s.tile.router.dead = false → ((s.tileAt q).router.link (linkBack n)).wires = i :: is →
        ((s.tileAt q).router.link (linkBack n)).unacked.find? (·.seq = i) = some g →
        (s.inp.j = 0 → i = l.expect → ∃ t, exec .linkGroup s = .next t ∧ t.tile.router.link n = { l with
            expect := i + 1, bad := false, accepted := l.accepted ++ g.flits.filterMap fun x => x.map fun y => { y.2.1 with hops := y.2.2 } } ∧
          ((t.tileAt q).router.link (linkBack n)).unacked = ackGroups i ((s.tileAt q).router.link (linkBack n)).unacked) ∧
        (∀ e, e = BitVec.ofNat 528 s.inp.j → crc16 (g.bits ^^^ e.setWidth 512) ≠ crc16 g.bits ^^^ (e >>> 512).setWidth 16 →
          ∃ t, exec .linkGroup s = .next t ∧ t.tile.router.link n = { l with bad := true })) ∧
      (s.inp.k = 2 → l.unacked ≠ [] → ((s.tileAt q).router.link (linkBack n)).bad = true → ∃ t, exec .linkGroup s = .next t ∧
        t.tile.router.link n = { l with rounds := l.rounds + 1, wires := l.wires ++ l.unacked.map (·.seq) }) ∧
      (8 ≤ l.rounds ∨ s.inp.ok = true → ∃ t, exec .linkDead s = .next t ∧ (t.tile.router.link n).dead = true ∧
        ((t.tileAt q).router.link (linkBack n)).dead = true ∧ t.wafer.deadLinks = s.wafer.deadLinks ++ [(s.tile.phys, linkDir n)])) ∧
    ((s.tile.core.phase = .unbound ∨ s.myGang = none) → s.tile.router.dead = false → (∀ k : Fin 4, (s.tile.router.links[k]).dead = true) →
      ∃ u : State, u.tile.stop.off = true ∧ u.tile.router.dead = true ∧ u.tile.router.bufs = [] ∧ s.tile.phys ∈ u.fld.defects ∧
        exec .deadRouter s = .next (if s.fld.served then u.replaceNonet s.tile.phys.field s.tile.phys.nonet else u)) ∧
    (n = s.inp.n → n < 144 → (s.peer n).up = true →
      (s.inp.k = 0 → frameGood s.inp.bytes = false → ∃ t, exec .peerFrame s = .next t ∧ t.peer n = { s.peer n with bad := true } ∧ t.net = s.net) ∧
      (s.inp.k = 0 → frameGood s.inp.bytes = true → BitVec.ofNat 16 (Machine.field s.inp.bytes 64 2) = (s.peer n).expect →
        (s.inp.pkt = none → ∃ t, exec .peerFrame s = .next t ∧ t.net = s.net ∧ t.peer n = { s.peer n with
          expect := (s.peer n).expect + 1, bad := false, used := takeCredits (s.peer n).used (creditsOf (Machine.field s.inp.bytes 66 2)) }) ∧
        (∀ c r, s.inp.pkt = some p → s.inp.ok = false → Only s c → c.key = s.inp.word → c.letIn s.inp.j p = some r →
          ∃ t, exec .peerFrame s = .next t ∧ (t.peer n).expect = (s.peer n).expect + 1 ∧ (t.peer n).waiting = (s.peer n).waiting ++ [r])) ∧
      (∀ c f fs, s.inp.k = 1 → (s.peer n).late = [] → (s.peer n).cur = none → (s.peer n).relay = [] → s.oldestAt (peerAgent n) = some p →
        s.carrel p.hdr.carrel.toNat = some c →
        (c.noWay p.hdr.dst = false → (s.peer n).buf.length < 64 → (s.peer n).used.getD (p.lch (peerWay p)) 0 ≤ Config.peerCredits → framesOf p = f :: fs →
          ∃ t x, exec .peerFrame s = .next t ∧ t.net = s.net.erase p ∧ (t.peer n).sent = (s.peer n).sent + 1 ∧ (t.peer n).buf = (s.peer n).buf ++ [x] ∧
            x.seq = (s.peer n).sent ∧ x.flits = f ∧ x.last = fs.isEmpty ∧ (t.peer n).cur = if fs = [] then none else some (p, fs)) ∧
        (∀ a bs k, c.noWay p.hdr.dst = true → p.body = .rst a bs k → p.hdr.src ≠ 0xFFFFFFFF → p.orphan = false →
          exec .peerFrame s = .next ((s.unsend p).emitFrom (peerAgent n) (turned p .noPath)))) ∧
      (s.inp.k = 2 → (s.peer n).buf ≠ [] → ∃ t, exec .peerFrame s = .next t ∧ (t.peer n).replays = (s.peer n).replays + 1) ∧
      (s.inp.k = 3 → ∃ t, exec .peerFrame s = .next t ∧ (t.peer n).replays = 0 ∧
        (t.peer n).buf = ackFrames (BitVec.ofNat 16 s.inp.m) (s.peer n).buf) ∧
      (∀ ps c a bs k, s.inp.k = 4 → (s.peer n).waiting = p :: ps → s.carrel p.hdr.carrel.toNat = some c → p.body = .rst a bs k →
        (s.fieldAt (peerFieldOf n)).walkerFree (s.inp.m % 4) p.hdr.carrel = true → s.behindDead n p = false → ∃ t, ∃ u : State, exec .peerFrame s = .next t ∧
          u.net = s.net ∧ u.carrels = s.carrels ∧ (u.peer n).waiting = ps ∧ (u.unmappedHere n c p = false → t = u.emitFrom (peerAgent n) p) ∧
          (u.unmappedHere n c p = true → p.hdr.src ≠ 0xFFFFFFFF → p.orphan = false →
            t = (u.unsend p).emitFrom (peerAgent n) (turned p .unmapped))) ∧
      (∀ c w m, 16 ≤ (s.peer n).replays ∨ s.inp.ok = true → s.carrels = [c] → c.peers = [(w, [n, m])] → m ≠ n → (s.peer m).up = true →
        (s.peer n).late = [] → (s.peer n).cur = none → (s.peer n).buf = [] →
        ∃ t k, exec .peerPortDown s = .next t ∧ (t.peer n).up = false ∧ t.carrels = [k] ∧ k.peers = [(w, [m, m])] ∧
          (t.peer n).waiting = (s.peer n).waiting ++ s.deadMarkers)) ∧
    (n = s.inp.n → n < 144 → (s.peer n).up = false →
      (∃ t, exec .peerPortUp s = .next t ∧ (t.peer n).up = true ∧ (t.peer n).replays = 0) ∧
      (∀ c, s.inp.k = 1 → s.oldestAt (peerAgent n) = some p → s.carrel p.hdr.carrel.toNat = some c → c.noWay p.hdr.dst = false →
        ∃ t, exec .peerFrame s = .next t ∧ t.net = (s.putPacket p { p with place := some (c.egress p.hdr.src p.hdr.dst, s.serial) }).net))

/-- R67, R146, R147, R169, R190, R247, R345 to R347, R362, R366 to R368, R395, R396: a field's clock follows its temperature, and it pauses and
resumes; slots and frames begin; errors are corrected and scrubbed; time exchanges, transit tables and heartbeats act once in their slot, and the fourth exchange to fail in
a row unaligns the field with event 0xE2; a steward that is silent is lost. The model's choices in it: the rate of a free-running clock, 2^32 × 1000 / PLL (log entry 6), what an
exchange does with its four timestamps (log entry 42), which control slot without a heartbeat is the third (log entry 41), and a correction that no read of an instruction has
met, as an event of its own (log entry 88). -/
def Obligations.FieldsWork : Prop :=
  ∀ (s : State) (f : Nat × Nat) (fl : Field), f = s.tile.phys.field → fl = s.fld →
    (s.pllsRun = true → exec .sensorSample s = .next { s with tile.id.temp := s.inp.word.setWidth 16 }) ∧
    (s.pllsRun = false → exec .sensorSample s = .next s) ∧
    (fl.did.contains frameKey = false → fl.served = true → fl.paused = false → ∃ t, exec .fieldThermalCheck s = .next t ∧
      frameKey ∈ (t.fieldAt f).did ∧ ((∃ x ∈ s.fieldTiles f, warmTemp ≤ x.id.temp.toInt) → (t.fieldAt f).pll = max 700 (fl.pll - 50)) ∧
      ((∀ x ∈ s.fieldTiles f, x.id.temp.toInt ≤ coolTemp) → (t.fieldAt f).pll = min 1050 (fl.pll + 50))) ∧
    (fl.paused = false → (∃ x ∈ s.fieldTiles f, tripTemp ≤ x.id.temp.toInt) →
      ∃ t, exec .thermalPause s = .next t ∧ (t.fieldAt f).paused = true ∧ (t.fieldAt f).pll = 700) ∧
    (fl.paused = true → (∀ x ∈ s.fieldTiles f, x.id.temp.toInt ≤ coolTemp) →
      ∃ t, exec .thermalResume s = .next t ∧ (t.fieldAt f).paused = false ∧ t.tile.core = s.tile.core) ∧
    (frameOf fl.ns = fl.frame → slotAt fl.ns ≠ fl.slot → ∃ t, exec .almanacSlotBoundary s = .next t ∧ (t.fieldAt f).slot = slotAt fl.ns ∧
      t.tile.core.latch = s.tile.core.latch ||| 0x80 ∧ (t.fieldAt f).almanac = fl.almanac) ∧
    (∀ x, fl.frame < frameOf fl.ns → fl.almNext = [x] → ∃ t, exec .frameStart s = .next t ∧ (t.fieldAt f).frame = frameOf fl.ns ∧
      (t.fieldAt f).almEntry x.1 x.2.1 = x.2.2.toNat ∧
      (∀ r i, ¬ (r = x.1 ∧ i = x.2.1) → (t.fieldAt f).almEntry r i = fl.almEntry r i) ∧
      (fl.cycled = false → s.runless { fl with almanac := putEntry fl.almanac x } = false → (t.fieldAt f).almNext = [])) ∧
    (∀ ist w, ist = s.inp.ok → w = s.inp.n → s.inp.k ≠ 1 → s.tile.view.fixed = [] → s.tile.stop.off = false → (ist, w) ∈ s.tile.view.soft → ∃ t, exec .correctableError s = .next t ∧
      t.tile.view.soft = s.tile.view.soft.erase (ist, w) ∧ t.tile.view.ce = s.tile.view.ce + (if ist then 0 else 1) ∧
      t.tile.view.ice = s.tile.view.ice + (if ist then 1 else 0) ∧ t.tile.view.mem = s.tile.view.mem ∧ t.tile.core = s.tile.core) ∧
    (fl.slot % 16 = 0 → fl.did.contains 1 = false → s.rest = [] → s.tile.view.bad = [] → s.tile.view.badIst = [] →
      (s.tile.view.soft = [] → ∃ t, exec .scrub s = .next t ∧ (t.fieldAt f).scrub = (fl.scrub + 64) % 14336 ∧ 1 ∈ (t.fieldAt f).did ∧
        t.tile = s.tile) ∧
      (∀ w, s.onSteward = false → s.tile.stop.off = false → s.tile.view.fixed = [] → s.tile.view.soft = [(false, w)] → w < 12288 → fl.scrub ≤ w →
        w < fl.scrub + 64 → ∃ t, exec .scrub s = .next t ∧
        t.tile.view.soft = [] ∧ t.tile.view.ce = s.tile.view.ce + 1)) ∧
    (s.wafer.power = .run → (fl.slot = 0 ∨ fl.slot = 0x800) → fl.did.contains 2 = false → fl.served = true → f ≠ (0, 0) →
      (s.inp.ok = true → ∃ t, exec .timeExchange s = .next t ∧ (t.fieldAt f).failedEx = 0 ∧ (t.fieldAt f).aligned = true ∧
        (t.fieldAt f).time = fl.time ∧ 2 ∈ (t.fieldAt f).did ∧ ∀ base, base = 2 ^ 32 * 1000 / fl.pll →
        base - base / 5000 ≤ (t.fieldAt f).rate ∧ (t.fieldAt f).rate ≤ base + base / 5000) ∧
      (s.inp.ok = false → fl.failedEx ≠ 3 → ∃ t, exec .timeExchange s = .next t ∧
        (t.fieldAt f).failedEx = fl.failedEx + 1 ∧ (t.fieldAt f).time = fl.time ∧ (t.fieldAt f).rate = fl.rate ∧
        (t.fieldAt f).skew = if fl.slot = 0x800 ∧ 1 ≤ fl.failedEx then skewOf (fl.skew.toNat + 200) else fl.skew) ∧
      (s.inp.ok = false → fl.failedEx = 3 → ∃ t e, exec .timeExchange s = .next t ∧ (t.fieldAt f).failedEx = 4 ∧ (t.fieldAt f).aligned = false ∧
        e.cause = 0xE2 ∧ e.addr = (actingSteward (parentField f)).operand ∧
        (t.tileAt (s.stewardOf f)).stw.exns = (s.tileAt (s.stewardOf f)).stw.exns ++ [e])) ∧
    (fl.slot = 0x800 → fl.did.contains 5 = false → fl.served = true → f ≠ (0, 0) → ∃ t, exec .transitTableCheck s = .next t ∧
      5 ∈ (t.fieldAt f).did ∧ (t.fieldAt f).almanac = fl.almanac ∧
      ∀ l, l < 4 → fl.laneCrc l ≠ (s.fieldAt (parentField f)).laneCrc l →
        ∀ x ∈ copyLane fl (s.fieldAt (parentField f)) l, x ∈ (t.fieldAt f).almNext) ∧
    (fl.slot % 16 = 8 → fl.did.contains 3 = false → s.liveSteward f false = true → s.liveSteward f true = true →
      ∃ t, exec .stewardHeartbeat s = .next t ∧ (t.fieldAt f).heartMissMirror = (if s.inp.n % 2 = 0 then 0 else fl.heartMissMirror + 1) ∧
        (t.fieldAt f).heartMiss = if s.inp.n / 2 % 2 = 0 then 0 else fl.heartMiss + 1) ∧
    (3 ≤ fl.heartMiss → s.liveSteward f false = true → s.liveSteward f true = true →
      ∃ t, exec .partnerLost s = .next t ∧ true ∈ (t.fieldAt f).stewardsLost ∧ (t.tileAt (mirrorSteward f)).stop.off = true)

namespace Sys2Proof.Claims

/-- The hottest member of a nonet and the coolest tile that may take its place (R67). -/
def hottestMember (s : State) (f n : Nat × Nat) (c : CatSlot) : Option Tile :=
  bestTile (fun a b => decide (b.id.temp.toInt < a.id.temp.toInt)) (((nonetTiles f n).map s.tileAt).filter fun t => (memberAt c t.phys.pos).isSome)
def coolestFree (s : State) (f n : Nat × Nat) (c : CatSlot) : Option Tile :=
  bestTile (fun a b => decide (a.id.temp.toInt < b.id.temp.toInt)) (((nonetTiles f n).map s.tileAt).filter fun t =>
    (memberAt c t.phys.pos).isNone && !t.stop.off && !(s.fieldAt f).defects.contains t.phys && t.net.fwd.isNone && t.core.phase == .unbound && !s.targeted t.phys)

end Sys2Proof.Claims

/-- R60 to R64, R67, R374, R379: a publish raises the generation and moves a member; tiles drop what it invalidates and acknowledge; its token
brings the generation, and the residencies that it lands have it; one that stalls is broadcast again; a walk fills the name cache or finds no tile; a
rotation asks the hottest member to move. The model's choices in it: the egress port in the cache for a name on another wafer, port 0 where none is listed (log entry 74); the
rotation of a spare that carries a group (log entry 78) and only to a tile that no move is under way to (log entry 102); the invalidation as one message to each tile (log entry 98). -/
def Obligations.CatalogueWorks : Prop :=
  ∀ (s : State) (f : Nat × Nat) (fl : Field), f = s.tile.phys.field → fl = s.fld →
    (∀ q qs, fl.queued = q :: qs → fl.publish = none → fl.served = true → s.mustWait f q = false →
      ∃ t p, exec .cataloguePublish s = .next t ∧ (t.fieldAt f).queued = qs ∧ (t.fieldAt f).genWord = fl.genWord + 1 ∧
        (t.fieldAt f).publish = some p ∧ p.gen = fl.genWord + 1 ∧ p.marks = q.mark.toList ∧ p.moves = q.moves ∧
        ∀ g m k, q.slots = [.place g m k] → fl.detoured = [] → ((fl.stageChange (.place g m k)).refresh).movers = [] →
          badMember (slotSetPos (fl.latest g) m k) = none → slotGen (fl.entry g).a ≠ fl.genWord + 1 → slotGen (fl.entry g).b ≠ fl.genWord + 1 →
          (t.fieldAt f).readEntry g = slotSetGen (slotSetPos (fl.latest g) m k) (fl.genWord + 1)) ∧
    (∀ x g p q, s.reached = some x → x.body = .invalidate g.1 g.2 p.gen q → (s.fieldAt g).publish = some p → q ∈ p.missing →
      ∃ t, exec .catalogueInvalidation s = .next t ∧
        (t.fieldAt g).publish = some { p with missing := p.missing.erase q } ∧
        (∀ e ∈ t.tile.net.names, e ∈ s.tile.net.names ∧ (s.tile.id.carrel, e.name) ∉ p.names) ∧ t.tile.core = s.tile.core) ∧
    (∀ p, fl.publish = some p → p.missing = [] → fl.served = true → ∃ t, exec .publishToken s = .next t ∧ (t.fieldAt f).publish = none ∧
      (∀ m, p.marks = [(s.tile.phys, m.id)] → s.tile.net.marks = [m] → m.level = .normal → m.pair = false → m.reg ≠ 0 →
        t.tile.core.normal.sreg m.reg = p.gen.setWidth 32 ∧ t.tile.net.marks = []) ∧
      (∀ m, s.tile.net.mig = some m → m.step = .copied → s.tile.phys ∈ p.moves →
        t.tile.net.mig = some { m with step := .published } ∧ t.tile.id.gen = p.gen)) ∧
    (∀ p, fl.publish = some p → p.missing ≠ [] → Config.publishLimit ≤ p.clk → p.stalled = false →
      (p.rounds < 4 → ∃ t, exec .publishStallTimeout s = .next t ∧
        (t.fieldAt f).publish = some { p with clk := 0, rounds := p.rounds + 1 }) ∧
      (4 ≤ p.rounds → ∃ t, exec .publishStallTimeout s = .next t ∧ (t.fieldAt f).publish = some { p with clk := 0, stalled := true })) ∧
    (∀ n c g, n = s.inp.word → s.myCarrel = some c → n ∈ s.tile.net.walks → s.tile.net.names.length < 64 →
      g = s.fieldAt (if nameWafer n = 0 then (c.place (nameX n) (nameY n)).1 else f) → g.served = true →
      g.walkerFree (s.inp.n % 4) s.tile.id.carrel = true →
      (∀ p, nameWafer n = 0 → s.locate c (nameX n) (nameY n) = some p → ∃ t e, exec .nameWalkDone s = .next t ∧
        t.tile.net.names = e :: s.tile.net.names ∧ e.name = n ∧ e.phys = p ∧ e.gen = slotGen (s.slotOf c (nameX n) (nameY n)) ∧
        n ∉ t.tile.net.walks) ∧
      (nameWafer n = 0 → s.locate c (nameX n) (nameY n) = none → ∃ t, exec .nameWalkDone s = .next t ∧ n ∈ t.tile.net.unmapped ∧
        n ∉ t.tile.net.walks ∧ t.tile.net.names = s.tile.net.names) ∧
      (nameWafer n ≠ 0 → ∃ t e, exec .nameWalkDone s = .next t ∧ t.tile.net.names = e :: s.tile.net.names ∧ e.name = n ∧
        e.phys = c.egress s.tile.id.name n ∧ n ∉ t.tile.net.walks)) ∧
    (∀ g n h d, n = s.tile.phys.nonet → fl.groupOn n = some g → fl.slot = rotationSlot n → fl.did.contains (16 + n.1 + 64 * n.2) = false →
      fl.served = true → hottestMember s f n (fl.readEntry g) = some h → coolestFree s f n (fl.readEntry g) = some d →
      64 ≤ h.id.temp.toInt - d.id.temp.toInt → s.immovable h = false → h.id.pin = false → h.stop.archived = false → h.net.fwd = none →
      h.core.phase ≠ .unbound → h = s.tile →
      ∃ t, exec .shadeRotation s = .next t ∧ t.tile.net.mig =
        some { src := s.tile.phys, dst := d.phys, step := .requested, mark := none, rotation := some fl.slotCount })

/-- R68 to R71, R368, R381: a migration halts, freezes, lands, resumes or ends as if it had not begun; the old tile forwards what reaches it until
its markers have come, and the new tile then takes direct arrivals. One message stands for the copy that step 4 sends (log entry 98). -/
def Obligations.MigrationWorks : Prop :=
  ∀ (s : State) (m : Migration) (w : Forward),
    (s.tile.net.mig = some m →
      (m.step = .requested → s.urgent = false → s.tile.core.mask = none → s.nextPend = none → s.tile.net.holding = false →
        (s.tile.stop.faulted = none → s.fld.served = true → ∃ t, exec .migrationHalt s = .next t ∧ t.tile.net.mig = some { m with step := .halted } ∧
          t.tile.core.cur = s.tile.core.cur ∧ t.tile.core.normal = s.tile.core.normal ∧ t.tile.view.stores = [] ∧
          t.tile.view.mem = s.tile.view.coreMem) ∧
        (s.tile.stop.faulted ≠ none ∨ s.fld.served = false → m.src.nonet = m.dst.nonet → s.tile.net.heldCancels = [] → m.mark = none →
          exec .migrationHalt s = .next { s.dropCopies [s.tile.phys] with tile.net.mig := none })) ∧
      (m.step = .halted → s.tile.tens.kstep = none → ∃ t r, exec .migrationFreezeDone s = .next t ∧
        t.tile = { s.tile with net.mig := some { m with step := .frozen } } ∧ t.net = s.net ++ [r] ∧ r.body = .migCopy s.tile.phys ∧
        r.dest = some m.dst) ∧
      (m.step = .frozen → m.src = s.tile.phys → m.dst ≠ s.tile.phys → m.src.nonet = m.dst.nonet → s.tile.sound = true → m.mark = none →
        (s.tileAt m.dst).net.fwd = none → (s.tileAt m.dst).core.phase = .unbound → s.fld.served = true → m.order = none →
        (∃ x ∈ s.net, x.body = .migCopy s.tile.phys ∧ x.place.map (·.1) = some m.dst) → ∃ t, exec .migrationCopyLanded s = .next t ∧ t.tile.phys = s.tile.phys ∧
          t.tile.core.phase = .unbound ∧ t.tile.net.fwd = some { dst := m.dst, agents := (s.dropCopies [s.tile.phys]).owing s.tile.phys } ∧ (t.tileAt m.dst).core = s.tile.core ∧
          (t.tileAt m.dst).view.mem = s.tile.view.mem ∧ (t.tileAt m.dst).view.ist = s.tile.view.ist ∧ (t.tileAt m.dst).task = s.tile.task ∧
          (t.tileAt m.dst).tens = s.tile.tens ∧ (t.tileAt m.dst).net.names = [] ∧ (t.tileAt m.dst).net.holding = true ∧
          (t.tileAt m.dst).net.mig = some { m with step := .copied }) ∧
      (m.step = .published → s.tile.net.heldCancels = [] → s.tile.task.armed = [] → s.tile.task.fires = [] → m.mark = none →
        exec .migrationResume s = .next { s with tile.net.mig := none }) ∧
      (m.step = .frozen → m.src.nonet = m.dst.nonet → s.inp.n = 0 → s.tile.net.heldCancels = [] → m.mark = none →
        ∃ t, exec .migrationAbort s = .next t ∧ t.tile.net.mig = none ∧ t.tile.core = s.tile.core ∧ t.tile.view = s.tile.view)) ∧
    (s.tile.net.fwd = some w →
      (∀ p, s.inp.pkt = some p → p ∈ s.net → p.place.map (·.1) = some s.tile.phys →
        (forOld p = false → (∀ q ∈ s.arrived s.tile.phys, forOld q = true ∨ arrivalNo p ≤ arrivalNo q) →
          ∃ t r, exec .forwardedArrival s = .next t ∧ r ∈ t.net ∧ r.hdr = p.hdr ∧ r.body = p.body ∧ r.fwd = true ∧ r.place = none ∧
            r.way.map (·.dst) = some w.dst ∧ t.tile = s.tile) ∧
        (∀ ch, p.body = .endMarker ch → p.dest ≠ none → exec .endMarker s = .next { s.unsend p with
          tile.net.fwd := some (if ch = 3 then { w with markers := if w.markers.contains 3 then w.markers else w.markers ++ [3] }
           else { w with agents := w.agents.filter fun a => edgeAgent a != p.origin }) })) ∧
      (w.published = true → 4 ≤ w.markers.length → w.agents = [] → s.arrived s.tile.phys = [] → w.dst.nonet = s.tile.phys.nonet →
        ∃ t r, exec .forwardingRetire s = .next t ∧ t.tile.net.fwd = none ∧ t.net = s.net ++ [r] ∧ r.body = .finalMarker ∧
          r.dest = some w.dst ∧ r.origin = s.tile.phys)) ∧
    (∀ q ch, q = Phys.ofOperand s.inp.word → ch = BitVec.ofNat 2 (s.inp.n % 3) → s.inp.pkt = none → (s.tileAt q).net.fwd = some w →
      (s.inp.k ≠ 1 → (ch, s.tile.phys) ∉ w.passed → s.wavePasses q w ch = true → ∃ t, exec .endMarker s = .next t ∧ t.net = s.net ∧
        (t.tileAt q).net.fwd = some (if s.tile.phys = q then { w with markers := if w.markers.contains ch then w.markers else w.markers ++ [ch] }
          else { w with passed := w.passed ++ [(ch, s.tile.phys)] })) ∧
      (s.inp.k = 1 → s.inp.n ∈ w.agents → (∀ r ∈ (s.port s.inp.n).reqs, r.tile ≠ q) →
        (∀ p ∈ s.net, ¬ (Packet.farBetween p q s.inp.n = true ∧ p.origin = q) ∧ ¬ (forOld p = true ∧ p.origin = edgeAgent s.inp.n ∧ p.dest = some q)) →
        ∃ t r, exec .endMarker s = .next t ∧ t.net = s.net ++ [r] ∧ r.body = .endMarker 1 ∧ r.dest = some q ∧ r.origin = edgeAgent s.inp.n)) ∧
    (∀ p, s.inp.pkt = some p → p ∈ s.net → p.place.map (·.1) = some s.tile.phys → p.body = .finalMarker →
      (∀ q ∈ s.net, q.fwd = true → q.place.map (·.1) ≠ some s.tile.phys ∧ q.way.map (·.dst) ≠ some s.tile.phys) →
      exec .finalMarker s = .next { s.unsend p with tile.net.holding := false })

/-- R192 to R198, R13, R173, R170, R185, R348, R361: the package passes between its power states, its straps taken with them (log entry 83); the power-on sequence
locks the PLLs, zeroes the tiles, starts the stewards on the first image that it accepts and ends in Run; loss of power or reset clears tiles and fields; the
start time, attestation, launch windows, the parent port and the signed configuration are set; BOOTSTAT reads as R195 lays it out. The model's choices in it: what PWREN clears
of BOOTSTAT and when its step is 0 (log entries 43 and 107); the start time, which field (0, 0) takes at once (log entry 42); the retirement policy as two numbers
(log entry 51); the report's layout, and an empty report for a refusal (log entry 69). -/
def Obligations.PowerWorks : Prop :=
  ∀ (s : State),
    (s.wafer.power = .off → exec .vauxValid s = .next { s with wafer.power := .aux }) ∧
    (s.wafer.power = .aux → (∃ t, exec .vauxLost s = .next t ∧ t.wafer.power = .off) ∧
      exec .pwrenAsserted s = .next { s with
        wafer.power := .boot, wafer.step := 1, wafer.failed := false,
        wafer.strapped := if strapsOf s.inp.n = [] then s.wafer.strapped else strapsOf s.inp.n }) ∧
    (s.wafer.power = .boot →
      (s.wafer.step < 3 → exec .powerOnStepEnd s = .next { s with wafer.step := s.wafer.step + 1 }) ∧
      (s.wafer.step = 3 → ∃ t, exec .powerOnStepEnd s = .next t ∧ t.wafer.step = 4 ∧ t.tile = s.tile ∧ ∀ f, (t.fieldAt f).pll = 1050) ∧
      (s.wafer.step = 4 → ∃ t, exec .powerOnStepEnd s = .next t ∧ t.wafer.step = 5 ∧ ∀ u ∈ t.tiles, u.view.mem = [] ∧ u.view.ist = [] ∧
        u.view.bad = [] ∧ u.view.badIst = []) ∧
      (∀ b, s.wafer.step = 5 → (b = 0 ∧ accepted 0 = true ∨ b = 1 ∧ accepted 0 = false ∧ accepted 1 = true) →
        ∃ t, exec .powerOnStepEnd s = .next t ∧ t.wafer.step = 6 ∧ t.wafer.bank = (b == 1) ∧ t.wafer.image = (Config.flash b).1 ∧
          ∀ f ∈ allFields, (t.tileAt (actingSteward f)).core.phase = .running ∧ (t.tileAt (mirrorSteward f)).core.phase = .running ∧
            (t.tileAt (actingSteward f)).core.normal = {} ∧
            (t.tileAt (actingSteward f)).core.cur.pc = ((t.tileAt (actingSteward f)).handler 15).1) ∧
      (s.wafer.step = 5 → accepted 0 = false → accepted 1 = false → exec .powerOnStepEnd s = .next s.bootFails) ∧
      (s.wafer.step = 6 → ∃ t, exec .powerOnStepEnd s = .next t ∧ t.wafer.step = 7 ∧ (t.fieldAt (0, 0)).time = 0 ∧ (t.fieldAt (0, 0)).skew = 0) ∧
      (s.wafer.step = 7 → (∀ f ∈ allFields, (s.fieldAt f).skew ≠ 0xFFFF) → exec .powerOnStepEnd s = .next { s with wafer.step := 8 }) ∧
      (s.wafer.step = 8 → ∃ t, exec .powerOnStepEnd s = .next t ∧ t.wafer.power = .run ∧ t.wafer.ready = true ∧ t.wafer.ports.length = 48) ∧
      (∃ t, exec .powerOnStepLimit s = .next t ∧ t.wafer.power = .aux ∧ t.wafer.failed = true ∧ t.rest = [] ∧ t.flds = []) ∧
      (s.wafer.step = 7 → ∃ t, exec .startTimeWrite s = .next t ∧ t.wafer.startTime = BitVec.ofNat 64 s.inp.j ∧
        (t.fieldAt (0, 0)).time = s.inp.j % 2 ^ 64 * 2 ^ 32 ∧ (t.fieldAt (0, 0)).skew = 0)) ∧
    (s.wafer.power = .run →
      (s.inp.ok = false → ∃ t, exec .pwrenDeasserted s = .next t ∧ t.wafer.power = .aux ∧ t.wafer.step = 0 ∧ t.tile = Tile.fresh s.tile.phys ∧
        t.rest = [] ∧ t.flds = [] ∧ t.net = [] ∧ t.wafer.far = s.wafer.far) ∧
      (∃ t, exec .resetNAsserted s = .next t ∧ t.wafer.power = .aux ∧ t.tile = Tile.fresh s.tile.phys ∧ t.rest = [] ∧ t.net = []) ∧
      (s.inp.ok = true → s.inp.k = 0 → exec .signedConfiguration s = .next { s with wafer.policy := (s.inp.n, s.inp.j) }) ∧
      (∀ c, s.inp.ok = true → s.inp.k = 1 → s.carrels = [c] → c.num = s.inp.n →
        exec .signedConfiguration s = .next { s with carrels := [{ c with lw := s.inp.word.toNat % 65536 }] })) ∧
    (s.inp.bytes.length = 48 →
      (∀ r, s.wafer.power = .run ∨ s.wafer.power = .boot ∧ 5 < s.wafer.step → r = s.inp.bytes ++ natBytes 2 Config.waferId.toNat ++
          Config.sha384 s.wafer.image ++ Config.sha384 (fuseBytes s.wafer.fuses) ++ [Config.svn, if s.wafer.bank then 1 else 0] →
        exec .attestationRequest s = .next { s with wafer.reports := s.wafer.reports ++ [r ++ Config.attestSignature r] }) ∧
      (s.wafer.power = .boot → s.wafer.step ≤ 5 → exec .attestationRequest s = .next { s with wafer.reports := s.wafer.reports ++ [[]] })) ∧
    (∀ a, a = s.inp.j % 2 ^ 47 / 2 ^ 30 * 2 ^ 30 → s.hostPort s.inp.n = true →
      (s.inp.m < 16 → s.inp.k = 0 → s.downstream.contains (farOwner a) = true → ∃ t, exec .managementRegisterWrite s = .next t ∧
        t.window s.inp.n s.inp.m = { s.window s.inp.n s.inp.m with base := a }) ∧
      (s.inp.m < 16 → s.inp.k = 1 → ∃ t, exec .managementRegisterWrite s = .next t ∧
        t.window s.inp.n s.inp.m = { s.window s.inp.n s.inp.m with en := s.inp.ok }) ∧
      (s.inp.k = 2 → exec .managementRegisterWrite s = .next { s with wafer.parent := if s.inp.ok then none else some s.inp.m })) ∧
    (∀ b, b = s.bootstat →
      (s.wafer.power = .boot → b.toNat % 16 = 1) ∧ (s.wafer.power = .run → b.toNat % 16 = 2) ∧ b.toNat / 16 % 16 = s.wafer.step % 16 ∧
        b.getLsbD 8 = s.wafer.failed ∧ b.getLsbD 9 = s.wafer.bank ∧ b.getLsbD 10 = s.wafer.ready ∧ b.toNat / 2048 % 32 = 0 ∧
        b.toNat / 65536 % 256 = Config.svn.toNat ∧ b.toNat / 2 ^ 24 = 0)

/-- R172 to R178, R34, R42, R43, R57, R146, R148: the host's writes reach its queue, its windows and its staging area, and its reads them again; the agent takes a
slot that is wholly written; notices enter the completion ring in two writes, with their MSI-X message; a queue's payloads launch, send, withdraw and cancel. The model's
choices in it: a payload of an unknown kind is answered when its slot is examined, by notice 0x8F (log entry 31); a launch that fails several checks is rejected for the lowest reason
(log entry 82). -/
def Obligations.HostWorks : Prop :=
  ∀ (s : State) (c : Carrel) (p m : Nat) (q : HostQueue), p = s.inp.n → m = s.inp.m →
    (s.hostPort p = true →
      (∀ a e, s.carrels = [c] → c.num = m → m < 2048 → c.queue = q → q.port = p → s.inp.j ≠ 1 → s.inp.bytes ≠ [] → a = s.inp.k / 64 * 64 →
        s.queueAt p a = some m → q.head ≤ a → a < q.head + 256 → q.status = 0 → s.forwarded p q < 16 →
        e = (s.edgeMem p).writeBytes a (s.inp.bytes.take 64) → (∀ j, j < 4 → lineStamp e q.head j = q.lap) →
        ∃ t k, exec .hostQueueExamine s = .next t ∧ t.carrels = [k] ∧ t.edgeMem p = e ∧ k.queue.rdidx = (q.rdidx + 1) % q.slots ∧
          k.queue.lap = (if (q.rdidx + 1) % q.slots = 0 then nextLap q.lap else q.lap) ∧ k.queue.used = s.forwarded p q + 1 ∧
          k.queue.slot = (s.fieldAt (edgeField p)).slotCount ∧
          (kindKnown false (Machine.field (slotPayload e q.head) 0 1) = true →
            k.queue.fwd = q.fwd ++ [slotPayload e q.head] ∧ k.ring = c.ring) ∧
          (kindKnown false (Machine.field (slotPayload e q.head) 0 1) = false → k.queue.fwd = q.fwd ∧
            k.ring.waiting = c.ring.waiting ++ [plainNotice 0x8F 1 m 0 (s.fieldAt c.home).ns])) ∧
      (s.carrels = [c] → c.num = m → m < 2048 → c.queue = q → q.port = p →
        (q.status ≠ 2 → (s.inp.word.setWidth 16 : BitVec 16) ≠ 0 → exec .hostQueueRestart s = .next
          { s with carrels := [{ c with queue := { q with rdidx := 0, lap := s.inp.word.setWidth 16, status := 0 } }] }) ∧
        exec .cmpidxWrite s = .next { s with carrels := [{ c with queue := { q with cmpidx := s.inp.word } }] }) ∧
      (∀ x bs pa, bs = s.inp.bytes.take (64 - s.inp.k % 64) → s.inp.k < 2 ^ 34 → x = s.window p (s.inp.k / 2 ^ 30) → x.en = true →
        pa = x.base + s.inp.k % 2 ^ 30 → s.memoryAt pa bs.length = true → s.wafer.far.wf = true →
        ∃ t, exec .hostWindowWrite s = .next t ∧ Stores s.wafer.far pa bs t.wafer.far ∧ t.tile = s.tile) ∧
      (s.inp.k < 2 ^ 34 → (s.window p (s.inp.k / 2 ^ 30)).en = false → exec .hostWindowWrite s = .next s) ∧
      (∀ o bs, s.inp.k = 2 ^ 34 + o → bs = s.inp.bytes.take (64 - s.inp.k % 64) → s.queueAt p o = none → o < 0x1000000 → (s.edgeMem p).wf = true →
        ∃ t, exec .hostWindowWrite s = .next t ∧ Stores (s.edgeMem p) o bs (t.edgeMem p) ∧ t.tile = s.tile ∧ t.carrels = s.carrels)) ∧
    (∀ a, (a < 2 ^ 34 ∧ (s.window p (a / 2 ^ 30)).en = false ∨ 2 ^ 34 + 0x1000000 ≤ a) → s.hdmRead p a = natBytes 64 0) ∧
    (∀ a x pa, a % 64 = 0 → a < 2 ^ 34 → x = s.window p (a / 2 ^ 30) → x.en = true → pa = x.base + a % 2 ^ 30 → s.memoryAt pa 64 = true →
      s.hdmRead p a = (List.range 64).map fun i => s.wafer.far.read (pa + i)) ∧
    (∀ o, o % 64 = 0 → o < 0x1000000 →
      (s.queueAt p o = none → s.hdmRead p (2 ^ 34 + o) = (List.range 64).map fun i => (s.edgeMem p).read (o + i)) ∧
      (s.queueAt p o = some m → s.hqueue p m = some q → o = q.off → s.hdmRead p (2 ^ 34 + o) =
        natBytes 2 q.rdidx ++ natBytes 2 q.lap.toNat ++ natBytes 4 q.status.toNat ++ natBytes 4 0 ++ natBytes 4 q.cmpidx.toNat ++ natBytes 48 0)) ∧
    (∀ i, s.carrels = [c] → c.num = m → m < 2048 → s.hostPort c.queue.port = true → c.ring.room c.queue.cmpidx = true → i = c.ring.idx % c.ring.slots →
      (∀ b bs, c.ring.due = false → c.ring.waiting = b :: bs → s.inService c = true →
        ∃ t k, exec .completionNoticeWrite s = .next t ∧ t.carrels = [k] ∧ k.ring.waiting = bs ∧ k.ring.due = true ∧ k.ring.idx = c.ring.idx ∧
          (i, b) ∈ k.ring.written ∧ k.ring.stamps = c.ring.stamps ∧ t.wafer.msi = s.wafer.msi) ∧
      (c.ring.due = true → ∃ t k, exec .completionNoticeWrite s = .next t ∧ t.carrels = [k] ∧ k.ring.waiting = c.ring.waiting ∧ k.ring.due = false ∧
        k.ring.idx = c.ring.idx + 1 ∧ (i, c.ring.lap) ∈ k.ring.stamps ∧ k.ring.written = c.ring.written ∧
        t.wafer.msi = if c.msix = 0xFF then s.wafer.msi else s.wafer.msi ++ [(c.queue.port, c.msix)])) ∧
    (∀ b bs, s.carrels = [c] → c.num = p → p < 2048 → c.queue.fwd = b :: bs →
      (Machine.field b 0 1 = 1 → s.inService c = true →
        ((launchOf b).reason c = none → ∃ t k, exec .launch s = .next t ∧ t.carrels = [k] ∧ k.held = c.held ++ [launchOf b] ∧ k.queue.fwd = bs) ∧
        (∀ r, (launchOf b).reason c = some r → ∃ t k, exec .launch s = .next t ∧ t.carrels = [k] ∧ k.held = c.held ∧ k.queue.fwd = bs ∧
          k.ring.waiting = c.ring.waiting ++
            [completion (launchOf b).stage 3 r 0xFFFF 0 (launchOf b).tag 0 0 0 ++ natBytes 8 0])) ∧
      (Machine.field b 0 1 = 2 → hostMessageForm b = true → s.boundAt c (BitVec.ofNat 32 (Machine.field b 4 4)) = true →
        ∃ t r, exec .hostMessage s = .next t ∧ t.net = s.net ++ [r] ∧ r.hdr.src = 0xFFFFFFFF ∧ r.hdr.scope = 0 ∧
          r.hdr.dst = BitVec.ofNat 32 (Machine.field b 4 4) ∧
          r.body = .send (BitVec.ofNat 32 (Machine.field b 12 4)) ((b.drop 32).take (Machine.field b 16 4))) ∧
      (∀ l, Machine.field b 0 1 = 3 → c.held = [l] → l.tag = BitVec.ofNat 32 (Machine.field b 4 4) → zeros b 1 4 = true → zeros b 8 240 = true →
        ∃ t k, exec .withdrawLaunch s = .next t ∧ t.carrels = [k] ∧ k.held = [] ∧ k.queue.fwd = bs ∧ k.ring.waiting = c.ring.waiting ++
          [completion l.stage 1 0 0xFFFF 0 l.tag 0 0 0 ++ natBytes 8 0]) ∧
      (∀ x, Machine.field b 0 1 = 4 → x = BitVec.ofNat 32 (Machine.field b 4 4) → scopeDepth x ≠ 0 → scopeWellFormed x = true →
        zeros b 1 4 = true → zeros b 8 240 = true → c.unrelated x < 8 → (s.fieldAt c.home).slot % 16 = 8 → s.bound c.num ≠ [] → c.state = .active →
        ∃ t k, exec .hostCancel s = .next t ∧ t.carrels = [k] ∧ k.listed = listScope c.listed x ∧ k.sweeps = c.sweeps ++
          [{ scope := x, missing := s.bound c.num, host := true, abroad := c.othersFor none }]))

/-- R380: an uncorrectable word in the head slot or the control block of a carrel's host queue sets its status to 3 and raises steward event 0xD6;
notice 0x68 is posted and nothing is forwarded. A restart is honoured in every status except held, in which it is ignored. -/
def Obligations.HostQueueFaults : Prop :=
  ∀ (s : State) (p m : Nat) (q : HostQueue), p = s.inp.n → m = s.inp.m → s.hostPort p = true →
    (∀ c f w, s.carrels = [c] → c.num = m → m < 2048 → c.queue = q → q.port = p → s.inp.j = 1 → f = edgeField p →
      w = (if (s.fieldAt f).stewardsLost.contains false then mirrorSteward f else actingSteward f) →
      ∃ t k b e, exec .hostQueueExamine s = .next t ∧ t.carrels = [k] ∧ k.queue = { q with status := 3 } ∧
        k.ring.waiting = c.ring.waiting ++ [b] ∧ Machine.field b 0 1 = 0x82 ∧ Machine.field b 1 1 = 0x68 ∧ e.cause = 0xD6 ∧
        (t.tileAt w).stw.exns = (s.tileAt w).stw.exns ++ [e]) ∧
    (s.hqueue p m = some q → (s.inp.word.setWidth 16 : BitVec 16) ≠ 0 → q.status ≠ 2 → exec .hostQueueRestart s =
      .next (s.updHqueue p m fun q => { q with rdidx := 0, lap := s.inp.word.setWidth 16, status := 0 })) ∧
    (s.hqueue p m = some q → q.status = 2 → exec .hostQueueRestart s = .next s)

namespace Sys2Proof.Claims

/-- A rectangle at (x, y) of the part of a carrel on carrel wafer k is free (R44): of this wafer's positions the free map, of another's the gangs there say so. -/
def rectFree (s : State) (c : Carrel) (k w h x y : Nat) : Prop :=
  x + w ≤ (c.part k).1 ∧ y + h ≤ (c.part k).2 ∧
    ∀ o ∈ rectTiles x y w h, if k = c.k then s.freeTile c o.1 o.2 = true else ∀ g ∈ c.gangs, g.covers k o.1 o.2 = false

end Sys2Proof.Claims

/-- R19 to R22, R44, R45, R56, R57, R180, R186 to R188, R259: a carrel is created, archived, destroyed or refused with its code; a launch is
placed in the first free rectangle and its members bound; its image, control and START go out and set the members' registers; a gang that is
done is retired with its completion message. The model's choices in it: the lowest failing code refuses a creation or restore (log entry 106); the entries that creation builds, and that
its answer follows once the carrel is Active (log entry 29); an archive writes the areas without a layout as free values and a restore takes them from the archived residency (log entries
28 and 81), with the host queue as log entry 30 has it; a queue runs after an archive whatever its status was (log entry 101); the end time is that of the retirement (log entry 100). -/
def Obligations.CarrelsAndGangsWork : Prop :=
  ∀ (s : State) (c : Carrel) (p : Nat), p = s.inp.n →
    (∀ b a, s.inp.ok = false → s.request p 0x20 = some b → a = 0x20000 + Machine.field b 4 4 →
      (requestForm b = false → exec .createCarrel s = .next ((s.took p).answerMgmt p 0x8F 1 0 0)) ∧
      (requestForm b = true →
        (∀ code, (s.took p).checkRecord (s.edgeMem p) a = .inl code → exec .createCarrel s = .next ((s.took p).answerMgmt p 0x8F code 0 0)) ∧
        (∀ n o r, (s.took p).checkRecord (s.edgeMem p) a = .inr (n, o) → r = newCarrel (s.edgeMem p) a n o →
          ∃ t k, exec .createCarrel s = .next t ∧ s.carrel n = none ∧ t.carrel n = some k ∧ k.state = (if r.nw = 1 then .active else .creating p) ∧
            k.key = r.key ∧ k.ox = r.ox ∧ k.oy = r.oy ∧ k.w = r.w ∧ k.h = r.h ∧ k.queue = r.queue ∧ k.ring = r.ring ∧ k.gangs = []))) ∧
    (∀ q, s.inp.ok = true → s.inp.m = c.num → s.carrels = [c] → c.state = .creating q →
      ∃ t k, exec .createCarrel s = .next t ∧ t.carrels = [k] ∧ k.state = .active ∧ (t.mring q).waiting = (s.mring q).waiting ++
        [plainNotice 0x84 0 c.num (BitVec.ofNat 32 c.queue.off) (s.fieldAt (0, 0)).ns]) ∧
    (s.carrels = [c] → c.ring.waiting = [] → c.ring.due = false → c.retires = [] → c.state = .destroying p →
      ∃ t, exec .destroyCarrel s = .next t ∧ t.carrels = []) ∧
    (∀ b, s.carrels = [c] → c.state = .active → requestForm b = true → c.num < 2048 →
      (s.request p 0x21 = some b → c.num = Machine.field b 4 4 → c.gangs = [] →
        ∃ t k, exec .destroyCarrel s = .next t ∧ t.carrels = [k] ∧ k.state = .destroying p) ∧
      (∀ w, s.request p 0x22 = some b → w = Machine.field b 4 4 → w < 2 ^ 17 → w % 65536 = c.num →
        ∃ t k, exec .archiveRequest s = .next t ∧ t.carrels = [k] ∧ k.state = .archiving (decide (65536 ≤ w)) none p ∧ k.queue.status = 2)) ∧
    (∀ q, s.carrels = [c] → s.inp.m = c.num → c.nw = 1 ∨ s.inp.ok = true → c.state = .archiving true none q → s.archiveQuiet c = true →
      ∃ t k, exec .archiveRequest s = .next t ∧ t.carrels = [k] ∧ k.state = .active ∧ k.queue.status = 0) ∧
    (∀ b, s.request p 0x23 = some b → requestForm b = true →
      (∀ code, (s.took p).restore p (0x20000 + Machine.field b 4 4) = .inl code →
        exec .restoreRequest s = .next ((s.took p).answerMgmt p 0x8F (if code = 0 then 1 else code) 0 0)) ∧
      (∀ k u, (s.took p).restore p (0x20000 + Machine.field b 4 4) = .inr (k, u) →
        exec .restoreRequest s = .next (u.answerMgmt p 0x87 0 k.num (BitVec.ofNat 32 k.queue.off)))) ∧
    (s.carrels = [c] → c.num = p → p < 2048 → c.state = .active → (s.fieldAt c.home).served = true →
      (∀ l ls w x y n sc g, s.inp.ok = false → c.held = l :: ls → s.place c l.w l.h = some (w, x, y) → c.freeGang = some n → c.launchScope l = some sc →
        g = Gang.mk n x y sc (l.scope == 0) l .loading 0 0 w true →
        rectFree s c w l.w l.h x y ∧
        (∀ k x' y', k < c.nw → k < w ∨ k = w ∧ (y' < y ∨ y' = y ∧ x' < x) → ¬ rectFree s c k l.w l.h x' y') ∧
        ∃ t k, exec .gangPlace s = .next t ∧ t.carrels = [k] ∧ k.held = ls ∧ k.gangs = c.gangs ++ [g] ∧
          ∀ r ∈ s.members c g, (t.tileAt r.2).core.phase = .loading ∧ (t.tileAt r.2).id.gang = BitVec.ofNat 16 n) ∧
      (∀ g b u, c.gang s.inp.m = some g → g.state = .loading →
        s.readParts c (pageParts g.launch.image (2 * g.launch.parcels)) = (some b, u) → u.carrels = [c] → g.x + g.launch.w ≤ 1024 → g.y + g.launch.h ≤ 1024 →
        ∃ t k, exec .gangLoad s = .next t ∧ t.carrels = [k] ∧ (k.gang s.inp.m).map (·.state) = some .running ∧
          ∀ r n xs, r ∈ u.members c g → n = mkName 0 (g.x + r.1 % g.launch.w) (g.y + r.1 / g.launch.w) → xs = parcelsOfBytes b g.launch.parcels →
            (∃ x ∈ t.net, x.body = .start (BitVec.ofNat 32 g.num) g.launch.arg ∧ x.hdr.scope = g.scope ∧ x.hdr.dst = n) ∧
            (∃ x ∈ t.net, x.hdr.scope = g.scope ∧ x.hdr.dst = n ∧ x.body = .control n (BitVec.ofNat 32 g.num) (BitVec.ofNat 32 r.1) (g.launch.stage.setWidth 32)
              (g.launch.pw.map fun y => (BitVec.ofNat 2 y.1, y.2.1 / 16 * 16, y.2.2)) g.launch.pin) ∧
            ∀ i, 480 * i < xs.length → ∃ x ∈ t.net, x.hdr.scope = g.scope ∧ x.hdr.dst = n ∧ x.body = .istore (480 * i) ((xs.drop (480 * i)).take 480)) ∧
      (∀ g, c.gangs = [g] → g.num = s.inp.m → g.state = .running → g.launch.w * g.launch.h ≤ g.count → g.fresh = false → g.wafer = c.k → g.led = true → s.inService c = true →
        ∃ t k, exec .gangRetire s = .next t ∧ t.carrels = [k] ∧ k.gangs = [] ∧
          (∀ x ∈ s.tiles, x.core.phase ≠ .unbound → x.phys.steward = false → x.id.carrel.toNat = c.num → x.id.gang.toNat = g.num →
            (t.tileAt x.phys).core.phase = .unbound) ∧ k.ring.waiting = c.ring.waiting ++
            [completion g.launch.stage 0 0 g.num c.k g.launch.tag g.x g.y g.start ++ natBytes 8 (s.fieldAt c.home).ns])) ∧
    (∀ q name gang rank stage pw pin, s.arriving = some q → q.body = .control name gang rank stage pw pin →
      ∃ t, exec .stewardControlWrite s = .next t ∧ t.tile.id.name = name ∧ t.tile.id.gang = gang.setWidth 16 ∧
        t.tile.id.rank = rank.setWidth 20 ∧ t.tile.id.stage = stage.setWidth 8 ∧ t.tile.id.pin = pin ∧ t.tile.core.cur.scope = q.hdr.scope ∧
        ∀ i : Fin 8, pw.length = 8 → t.tile.view.pw[i] =
          { kind := (pw.getD i.val default).1, base := (pw.getD i.val default).2.1, length := (pw.getD i.val default).2.2 }) ∧
    (∀ q gang arg, s.arriving = some q → q.body = .start gang arg → s.tile.core.phase = .loading → s.loadDone q = true →
      s.coveredBy q.hdr.scope = false → (s.tile.handler 15).2 = true →
      ∃ t, exec .startMessage s = .next t ∧ t.tile.core.phase = .running ∧ t.tile.core.cur.pc = (s.tile.handler 15).1 ∧
        t.tile.core.normal = ({} : Bank).setS 1 arg ∧ t.tile.core.cur.cls = 15 ∧ t.tile.core.cur.tag = gang ∧
        t.tile.core.cur.src = q.hdr.src ∧ t.tile.core.cur.scope = q.hdr.scope ∧ t.tile.core.cur.prio = 3) ∧
    (∀ d a b, s.clear (.archive d a b) [a, b] = true → s.onSteward = true → s.tile.phys = actingSteward s.tile.phys.field →
      s.carrels = [c] → (s.sr a).toNat < 2 ^ 17 → (s.sr a).toNat % 65536 = c.num → c.num < 2048 → c.state = .active →
      c.home = s.tile.phys.field →
      ∃ t k m, exec (.archive d a b) s = .next t ∧ t.carrels = [k] ∧ k.state = .archiving (decide (65536 ≤ (s.sr a).toNat)) m c.queue.port ∧
        k.queue.status = 2 ∧ (d ≠ 0 → ∃ x ∈ t.tile.net.marks, x.reg = d ∧ m = some (s.tile.phys, x.id)))

namespace Sys2Proof.Claims

/-- The registers that a scalar load writes. -/
def loaded : Instr → List Reg
  | .ldb d _ _ => [d]
  | .ldbu d _ _ => [d]
  | .ldh d _ _ => [d]
  | .ldhu d _ _ => [d]
  | .ldw d _ _ => [d]
  | .ldd d _ _ => [d, d + 1]
  | .ldwCompact a _ => [a]
  | _ => []

/-- Nothing but the running level's registers, its pc, its wait and phase, c.tstat, and the residency's view of memory differs; of the level that
does not run, no register differs. -/
def Keeps (s t : State) : Prop :=
  t = { s with
    tile.view := t.tile.view, tile.core.normal := t.tile.core.normal, tile.core.shadow := t.tile.core.shadow, tile.core.wait := none,
    tile.core.phase := t.tile.core.phase, tile.core.cur.pc := t.tile.core.cur.pc, tile.core.tstat := t.tile.core.tstat,
    tile.core.maskPages := t.tile.core.maskPages } ∧
  (s.urgent = true → t.tile.core.normal = s.tile.core.normal) ∧ (s.urgent = false → t.tile.core.shadow = s.tile.core.shadow)

/-- No byte that a core load sees differs outside a range. -/
def SameBytes (s t : State) (a n : Nat) : Prop := ∀ b, ¬ (a ≤ b ∧ b < a + n) → t.localByte b = s.localByte b

/-- Words of the spec's encodings with the instruction of each: 32-bit words, and the compact ones. -/
def words : List (Nat × Instr) :=
  [(0x041CC507, .fshl 5 6 7 8), (0x4B14863D, .lut3 6 4 5 0x96), (0x00008079, .vldt 0 4 0), (0x002CC57B, .ldbit 5 6 11),
   (0x0114837F, .ldp 3 4 5 2), (0x2014837F, .atom 3 4 5 0), (0x4008807F, .alloc 4 2), (0x020C4187, .vfma 1 2 3 4 0 0),
   (0x411CC593, .vsel 5 6 7 2 1), (0x019022E1, .cvtRne 2 1 4 0 0 3), (0x001889EB, .bkpack 9 4 6 0 0 0 0), (0x299844C1, .send 4 2 6 3 2 1),
   (0x00A0C5B3, .getFar 5 6 8), (0x0A00A053, .loopi 5 5 0), (0x00108243, .bne 4 4 2), (0x00400059, .mtc 0 0x10)]
def compactWords : List (Nat × Instr) := [(0x0096, .li5 2 0), (0x1916, .li5 4 3), (0x088E, .addi5 2 1)]

/-- Nothing comes before a fetch of the tile in focus (R335, R35, R48, R49, R361). -/
def Fetches (s : State) : Prop :=
  s.still = false ∧ s.dueAlways = none ∧ s.due = none ∧ s.nextPend = none ∧ (s.onSteward && !s.tile.stw.active && !s.tile.stw.exns.isEmpty) = false ∧
    s.headGone = false ∧ s.acceptable = false ∧ s.selectable = false ∧ s.issuing = true

/-- The parcels at the pc decode to `i`, in words whose check bits hold (R199, R337). -/
def Holds (s : State) (i : Instr) : Prop :=
  ∃ r, decode [s.tile.view.ist.parcel s.pcNat, s.tile.view.ist.parcel (s.pcNat + 1)] = some (i, r) ∧ s.tile.view.badIst = [] ∧
    ((s.tile.view.ist.parcel s.pcNat).toNat % 2 = 0 ∨ s.pcNat < 0x1FFF)

end Sys2Proof.Claims

/-- R201, R209 and the tables of R210 to R220: words written out from the spec's encodings decode to the instructions they stand for. -/
def Obligations.DecodeWords : Prop :=
  (∀ x ∈ words, decodeTableWord 32 x.1 = some x.2) ∧ ∀ x ∈ compactWords, decodeTableWord 16 x.1 = some x.2

/-- R199 to R203, R211, R350: decoding an encoded well-formed instruction gives it back with every operand, and leaves the parcels that follow
it; and what decodes is well formed, its parcels the encoding of the instruction that they decode to. -/
def Obligations.DecodeEncode : Prop :=
  (∀ (i : Instr) (ps : List Parcel), i.parcels ≠ 0 → i.wf = true → decode (encode i ++ ps) = some (i, ps)) ∧
  (∀ (i : Instr) (ps qs : List Parcel), decode ps = some (i, qs) → i.parcels ≠ 0 ∧ i.wf = true ∧ encode i ++ qs = ps)

/-- R199: where the parcels at the pc, as the newest write left them (log entry 34), decode, a step is the instruction's meaning in the state in which the words of the
fetch have been checked and its clk have passed; so is it for the issue that the schedule names (log entry 4), and a step of another agent is its event's meaning. How many clk an
instruction takes is the model's choice (log entry 6). The fetch and the clk of an instruction change neither the registers nor the pc, the open loops, the scope, the flags, the bytes
that a core load sees, and what is in flight. -/
def Obligations.StepRunsDecoded : Prop :=
  ∀ (s : State) (i : Instr),
    (s.sched = [] → Fetches s → Holds s i → step s = exec i (s.fetched.tick (issueClk i) (issueClk i))) ∧
    (∀ p k xs u, s.sched = .issue p k :: xs → u = ({ s with sched := xs }).focus p → Fetches u → Holds u i →
      step s = exec i (u.fetched.tick (issueClk i) k)) ∧
    (∀ p x xs, s.sched = .event p i x :: xs → i.parcels = 0 → step s = exec i { ({ s with sched := xs }).focus p with inp := x }) ∧
    (∀ n k, let t := s.fetched.tick n k
      t.bank = s.bank ∧ t.tile.core.cur.pc = s.tile.core.cur.pc ∧ t.tile.core.cur.loops = s.tile.core.cur.loops ∧
        t.tile.core.cur.scope = s.tile.core.cur.scope ∧ t.net = s.net ∧ t.tile.core.tstat = s.tile.core.tstat ∧
        ∀ b, t.localByte b = s.localByte b)

/-- R192, R193, R204, R205, R207: right after reset the package is in Aux, no residency is bound, every register that R204 and R207 give a reset
value has it, and nothing is in memory or in flight; the value 0 of the general registers is the model's (log entry 2). -/
def Obligations.ResetState : Prop :=
  let s := State.reset
  s.wafer.power = .aux ∧ s.tile.core.phase = .unbound ∧ s.rest = [] ∧ s.net = [] ∧ s.carrels = [] ∧
  (∀ r : Reg, s.sr r = 0 ∧ s.vr r = 0 ∧ s.kr r = 0) ∧
  (∀ n ∈ [0x08, 0x09, 0x0A, 0x10, 0x11, 0x13, 0x14, 0x15, 0x20, 0x2F, 0x30, 0x33, 0x40, 0x41, 0x42, 0x43], s.ctl n = 0) ∧
  s.ctl 0x0C = 3 ∧ s.ctl 0x1A = 0xFFFF ∧ s.tile.view.mem = [] ∧ s.tile.view.ist = [] ∧ s.memoriesCanonical = true

/-- R224 to R235, R265, R266, R272, R204, R205: what these instructions leave as it was. A scalar operation changes no register but d and no byte of
memory; a load no register but its destinations and no byte; a store no register and no byte outside the bytes at its address; a vector
operation on registers none but v_d, no byte, and of c.tstat it only sets flags, whose trap (R343) waits as a fault where
c.trapen enables one. Each leaves the rest of the machine but the pc. -/
def Obligations.Frames : Prop :=
  ∀ (s t : State) (i : Instr), exec i s = .next t → s.tile.view.mem.wf = true →
    (∀ d rs x, scalar s i = some (d, rs, x) → s.clear i rs = true →
      Keeps s t ∧ t.tile.view = s.tile.view ∧ t.tile.core.tstat = s.tile.core.tstat ∧ SameBytes s t 0 0 ∧
        ∀ r, (r ≠ d → t.sr r = s.sr r) ∧ t.vr r = s.vr r ∧ t.kr r = s.kr r) ∧
    (∀ a off n w, load i = some (a, off, n, w) → s.clear i [a] = true → (s.sr a + off).toNat % n = 0 →
      s.grants [((s.sr a + off).toNat, n, false, true)] = true →
      Keeps s t ∧ t.tile.core.tstat = s.tile.core.tstat ∧ SameBytes s t 0 0 ∧
        ∀ r, (r ∉ loaded i → t.sr r = s.sr r) ∧ t.vr r = s.vr r ∧ t.kr r = s.kr r) ∧
    (∀ a off n rs x, store s i = some (a, off, n, rs, x) → s.clear i (a :: rs) = true → (s.sr a + off).toNat % n = 0 →
      s.grants [((s.sr a + off).toNat, n, true, false)] = true →
      Keeps s t ∧ t.bank = s.bank ∧ t.tile.core.tstat = s.tile.core.tstat ∧ SameBytes s t (s.sr a + off).toNat n) ∧
    (∀ d rs vs f, vector s i = some (d, rs, vs, f) → s.clear i rs = true → s.streaming d.toNat = false →
      (∀ r ∈ vs, s.streaming r.toNat = false) →
      Keeps { s with tile.stop.pend := t.tile.stop.pend } t ∧ (s.tile.core.trapen = 0 → t.tile.stop.pend = s.tile.stop.pend) ∧
        t.tile.view = s.tile.view ∧ SameBytes s t 0 0 ∧ t.tile.core.tstat ||| s.tile.core.tstat = t.tile.core.tstat ∧
        ∀ r, (r.toNat % 16 ≠ d.toNat % 16 → t.vr r = s.vr r) ∧ t.sr r = s.sr r ∧ t.kr r = s.kr r)

/-- R73, R76, R77, R88, R96: every memory of the machine holds a byte for an address once, in rising order, and lists none that reads 0 (the
model's form, log entry 9); each step keeps that. -/
def Obligations.MemoriesStayCanonical : Prop :=
  ∀ (s t : State), s.memoriesCanonical = true → step s = .next t → t.memoriesCanonical = true
end

