-- ==== Sys2Proof/Laws/Memory.lean ====
section
/-!
SUPPORT. Memory in canonical form: what a read gives after each operation, and that each operation keeps the form.
-/

namespace Sys2Proof.Machine

theorem Memory.wfFrom_cons (lo a : Nat) (b : Byte) (m : Memory) :
    Memory.wfFrom lo ((a, b) :: m) = true ↔ lo ≤ a ∧ b ≠ 0 ∧ Memory.wfFrom (a + 1) m = true := by
  simp [Memory.wfFrom, and_assoc]

theorem Memory.wfFrom_mono {lo hi : Nat} {m : Memory} (h : Memory.wfFrom hi m = true) (l : lo ≤ hi) : Memory.wfFrom lo m = true := by
  cases m with
  | nil => rfl
  | cons x m => obtain ⟨a, b⟩ := x; rw [Memory.wfFrom_cons] at *; exact ⟨by omega, h.2⟩

/-- Nothing is listed below the bound. -/
theorem Memory.read_below {lo a : Nat} {m : Memory} (h : Memory.wfFrom lo m = true) (l : a < lo) : m.read a = 0 := by
  cases m with
  | nil => rfl
  | cons x m => obtain ⟨c, b⟩ := x; rw [Memory.wfFrom_cons] at h; simp [Memory.read, show a < c by omega]

theorem Memory.wfFrom_write {lo a : Nat} {m : Memory} (v : Byte) (h : Memory.wfFrom lo m = true) (l : lo ≤ a) :
    Memory.wfFrom lo (m.write a v) = true := by
  induction m generalizing lo with
  | nil =>
    by_cases hv : v = 0
    · simp [Memory.write, Memory.wfFrom, hv]
    · simp only [Memory.write, hv, if_false, Memory.wfFrom_cons]
      exact ⟨l, hv, rfl⟩
  | cons x m ih =>
    obtain ⟨c, b⟩ := x
    have h' := h
    rw [Memory.wfFrom_cons] at h
    obtain ⟨h1, h2, h3⟩ := h
    simp only [Memory.write]
    split
    · rename_i hac
      by_cases hv : v = 0
      · simpa [hv] using h'
      · simp only [hv, if_false]
        rw [Memory.wfFrom_cons, Memory.wfFrom_cons]
        exact ⟨l, hv, hac, h2, h3⟩
    · split
      · rename_i hac hc
        by_cases hv : v = 0
        · simp only [hv, if_true]; exact Memory.wfFrom_mono h3 (by omega)
        · simp only [hv, if_false]; rw [Memory.wfFrom_cons]; exact ⟨l, hv, hc ▸ h3⟩
      · rw [Memory.wfFrom_cons]; exact ⟨h1, h2, ih h3 (by omega)⟩

/-- A read after a write: the byte written at its address, what was there anywhere else. -/
theorem Memory.read_write {lo : Nat} {m : Memory} (a : Nat) (v : Byte) (b : Nat) (h : Memory.wfFrom lo m = true) :
    (m.write a v).read b = if b = a then v else m.read b := by
  induction m generalizing lo with
  | nil =>
    by_cases hv : v = 0
    · simp [Memory.write, Memory.read, hv]
    · simp only [Memory.write, hv, if_false, Memory.read]
      rcases Nat.lt_trichotomy b a with hb | hb | hb
      · simp [hb, show b ≠ a by omega]
      · simp [hb]
      · simp [show ¬ b < a by omega, show b ≠ a by omega]
  | cons x m ih =>
    obtain ⟨c, w⟩ := x
    rw [Memory.wfFrom_cons] at h
    obtain ⟨-, -, h3⟩ := h
    simp only [Memory.write]
    split
    · by_cases hv : v = 0
      · simp only [hv, if_true]
        split
        · rename_i hac e; simp [Memory.read, e, hac]
        · rfl
      · simp only [hv, if_false, Memory.read]
        rcases Nat.lt_trichotomy b a with hb | hb | hb
        · simp [hb, show b ≠ a by omega, show b < c by omega]
        · simp [hb]
        · simp [show ¬ b < a by omega, show b ≠ a by omega]
    · split
      · rename_i hac hc
        subst hc
        by_cases hv : v = 0
        · simp only [hv, if_true]
          rcases Nat.lt_trichotomy b a with hb | hb | hb
          · simp [Memory.read, hb, show b ≠ a by omega, Memory.read_below h3 (show b < a + 1 by omega)]
          · subst hb; simp [Memory.read_below h3 (Nat.lt_succ_self b)]
          · simp [Memory.read, show ¬ b < a by omega, show b ≠ a by omega]
        · simp only [hv, if_false, Memory.read]
          rcases Nat.lt_trichotomy b a with hb | hb | hb
          · simp [hb, show b ≠ a by omega]
          · simp [hb]
          · simp [show ¬ b < a by omega, show b ≠ a by omega]
      · rename_i hac hc
        simp only [Memory.read, ih h3]
        rcases Nat.lt_trichotomy b c with hb | hb | hb
        · simp [hb, show b ≠ a by omega]
        · subst hb; simp [show b ≠ a by omega]
        · simp [show ¬ b < c by omega, show b ≠ c by omega]

theorem Memory.wf_nil : Memory.wf [] = true := rfl

theorem Memory.wf_write {m : Memory} (a : Nat) (v : Byte) (h : m.wf = true) : (m.write a v).wf = true :=
  Memory.wfFrom_write v h (Nat.zero_le a)

theorem Memory.wf_writeBytes {m : Memory} (a : Nat) (bs : List Byte) (h : m.wf = true) : (m.writeBytes a bs).wf = true := by
  induction bs generalizing m a with
  | nil => exact h
  | cons b bs ih => exact ih (a + 1) (Memory.wf_write a b h)

/-- A read after bytes are written: those bytes in their range, what was there anywhere else. -/
theorem Memory.read_writeBytes {m : Memory} (a : Nat) (bs : List Byte) (b : Nat) (h : m.wf = true) :
    (m.writeBytes a bs).read b = if a ≤ b ∧ b < a + bs.length then bs.getD (b - a) 0 else m.read b := by
  induction bs generalizing m a with
  | nil => simp [Memory.writeBytes, show ¬ (a ≤ b ∧ b < a) by omega]
  | cons x bs ih =>
    rw [Memory.writeBytes, ih (a + 1) (Memory.wf_write a x h), Memory.read_write a x b h]
    rcases Nat.lt_trichotomy b a with hb | hb | hb
    · simp [show ¬ a + 1 ≤ b by omega, show ¬ a ≤ b by omega, show b ≠ a by omega]
    · subst hb; simp [show ¬ b + 1 ≤ b by omega]
    · obtain ⟨k, rfl⟩ : ∃ k, b = a + 1 + k := ⟨b - (a + 1), by omega⟩
      simp only [List.length_cons, show a + 1 + k - (a + 1) = k by omega, show a + 1 + k - a = k + 1 by omega]
      by_cases hk : k < bs.length
      · simp [show a + 1 + k < a + 1 + bs.length by omega, show a ≤ a + 1 + k by omega, show a + 1 + k < a + (bs.length + 1) by omega]
      · simp [show ¬ a + 1 + k < a + 1 + bs.length by omega, show ¬ a + 1 + k < a + (bs.length + 1) by omega, show a + 1 + k ≠ a by omega]

theorem Memory.wf_setN {m : Memory} (a n x : Nat) (h : m.wf = true) : (m.setN a n x).wf = true := Memory.wf_writeBytes a _ h

theorem Memory.wf_setBits {m : Memory} (ba w x : Nat) (h : m.wf = true) : (m.setBits ba w x).wf = true := Memory.wf_setN _ _ _ h

theorem Memory.wf_setParcels {m : Memory} (p : Nat) (xs : List Parcel) (h : m.wf = true) : (m.setParcels p xs).wf = true := by
  induction xs generalizing m p with
  | nil => exact h
  | cons x xs ih => exact ih (p + 1) (Memory.wf_setN _ _ _ h)

theorem Memory.wfFrom_filter {lo : Nat} {m : Memory} (f : Host.Cell → Bool) (h : Memory.wfFrom lo m = true) :
    Memory.wfFrom lo (m.filter f) = true := by
  induction m generalizing lo with
  | nil => exact h
  | cons x m ih =>
    obtain ⟨c, b⟩ := x
    rw [Memory.wfFrom_cons] at h
    rw [List.filter_cons]
    split
    · rw [Memory.wfFrom_cons]; exact ⟨h.1, h.2.1, ih h.2.2⟩
    · exact Memory.wfFrom_mono (ih h.2.2) (by omega)

theorem Memory.wf_clear {m : Memory} (a n : Nat) (h : m.wf = true) : (m.clear a n).wf = true := Memory.wfFrom_filter _ h

/-- A cleared range reads 0, and every other byte as before. -/
theorem Memory.read_clear {lo : Nat} {m : Memory} (a n b : Nat) (h : Memory.wfFrom lo m = true) :
    (m.clear a n).read b = if a ≤ b ∧ b < a + n then 0 else m.read b := by
  induction m generalizing lo with
  | nil => simp [Memory.clear, Memory.read]
  | cons x m ih =>
    obtain ⟨c, w⟩ := x
    rw [Memory.wfFrom_cons] at h
    have ih := ih h.2.2
    simp only [Memory.clear] at ih ⊢
    rw [List.filter_cons]
    split
    · rename_i hc
      simp at hc
      simp only [Memory.read, ih]
      split
      · simp
      · split
        · rename_i h1 h2; subst h2; simp [show ¬ (a ≤ b ∧ b < a + n) by omega]
        · rfl
    · rename_i hc
      simp at hc
      rw [ih]
      simp only [Memory.read]
      split
      · rfl
      · rename_i h1
        rcases Nat.lt_trichotomy b c with hb | hb | hb
        · simp [hb, Memory.read_below h.2.2 (show b < c + 1 by omega)]
        · subst hb; exact absurd hc (by omega)
        · simp [show ¬ b < c by omega, show b ≠ c by omega]

/-- Memories in canonical form that read alike are the same data. -/
theorem Memory.ext {lo : Nat} {m m' : Memory} (h : Memory.wfFrom lo m = true) (h' : Memory.wfFrom lo m' = true)
    (e : ∀ a, m.read a = m'.read a) : m = m' := by
  induction m generalizing lo m' with
  | nil =>
    cases m' with
    | nil => rfl
    | cons x m' =>
      obtain ⟨c, b⟩ := x
      rw [Memory.wfFrom_cons] at h'
      exact absurd (e c).symm (by simpa [Memory.read] using h'.2.1)
  | cons x m ih =>
    obtain ⟨c, b⟩ := x
    rw [Memory.wfFrom_cons] at h
    cases m' with
    | nil => exact absurd (e c) (by simpa [Memory.read] using h.2.1)
    | cons y m' =>
      obtain ⟨c', b'⟩ := y
      rw [Memory.wfFrom_cons] at h'
      have hc : c = c' := by
        rcases Nat.lt_trichotomy c c' with l | l | l
        · exact absurd (e c) (by simpa [Memory.read, l] using h.2.1)
        · exact l
        · exact absurd (e c').symm (by simpa [Memory.read, l] using h'.2.1)
      subst hc
      have hb : b = b' := by simpa [Memory.read] using e c
      subst hb
      congr 1
      refine ih h.2.2 h'.2.2 fun a => ?_
      rcases Nat.lt_or_ge c a with l | l
      · simpa [Memory.read, show ¬ a < c by omega, show a ≠ c by omega] using e a
      · rw [Memory.read_below h.2.2 (show a < c + 1 by omega), Memory.read_below h'.2.2 (show a < c + 1 by omega)]

/- Little-endian numbers. -/

theorem length_natBytes (n x : Nat) : (natBytes n x).length = n := by
  induction n generalizing x with
  | zero => rfl
  | succ n ih => simp [natBytes, ih]

theorem getD_natBytes {n k : Nat} (x : Nat) (h : k < n) : (natBytes n x).getD k 0 = BitVec.ofNat 8 (x / 256 ^ k) := by
  induction n generalizing x k with
  | zero => omega
  | succ n ih =>
    cases k with
    | zero => simp [natBytes]
    | succ k => simpa [natBytes, Nat.div_div_eq_div_mul, Nat.pow_succ', Nat.mul_comm] using ih (x / 256) (show k < n by omega)

theorem leNat_natBytes (n x : Nat) : leNat (natBytes n x) = x % 256 ^ n := by
  induction n generalizing x with
  | zero => simp [natBytes, leNat, Nat.mod_one]
  | succ n ih => rw [natBytes, leNat, ih, Nat.pow_succ', Nat.mod_mul]; simp

theorem length_bytes (m : Memory) (a n : Nat) : (m.bytes a n).length = n := by
  induction n generalizing a with
  | zero => rfl
  | succ n ih => simp [Memory.bytes, ih]

/-- Memories that read alike in a range hold the same number there. -/
theorem Memory.getN_congr {m m' : Memory} {a n : Nat} (h : ∀ b, a ≤ b → b < a + n → m.read b = m'.read b) : m.getN a n = m'.getN a n := by
  unfold Memory.getN
  congr 1
  induction n generalizing a with
  | zero => rfl
  | succ n ih => rw [Memory.bytes, Memory.bytes, h a (by omega) (by omega), ih fun b h1 h2 => h b (by omega) (by omega)]

end Sys2Proof.Machine
end

