-- ==== Sys2Proof/Laws/State.lean ====
section
/-!
SUPPORT. What each named update of the state changes and what it leaves: one lemma per field, so that no proof opens a record update.
-/

namespace Sys2Proof.Machine

/- A write of a register changes one bank of the core. -/

@[simp] theorem Core.setBank_level (c : Core) (l : Level) (b : Bank) : (c.setBank l b).level = c.level := by cases l <;> rfl
@[simp] theorem Core.setBank_cur (c : Core) (l : Level) (b : Bank) : (c.setBank l b).cur = c.cur := by cases l <;> rfl
@[simp] theorem Core.setBank_halt (c : Core) (l : Level) (b : Bank) : (c.setBank l b).halt = c.halt := by cases l <;> rfl
@[simp] theorem Core.setBank_works (c : Core) (l : Level) (b : Bank) : (c.setBank l b).works = c.works := by cases l <;> rfl
@[simp] theorem Core.setBank_phase (c : Core) (l : Level) (b : Bank) : (c.setBank l b).phase = c.phase := by cases l <;> rfl
@[simp] theorem Core.setBank_wait (c : Core) (l : Level) (b : Bank) : (c.setBank l b).wait = c.wait := by cases l <;> rfl
@[simp] theorem Core.setBank_tdz (c : Core) (l : Level) (b : Bank) : (c.setBank l b).tdz = c.tdz := by cases l <;> rfl
@[simp] theorem Core.setBank_mko (c : Core) (l : Level) (b : Bank) : (c.setBank l b).mko = c.mko := by cases l <;> rfl
@[simp] theorem Core.setBank_tstat (c : Core) (l : Level) (b : Bank) : (c.setBank l b).tstat = c.tstat := by cases l <;> rfl
@[simp] theorem Core.setBank_trapen (c : Core) (l : Level) (b : Bank) : (c.setBank l b).trapen = c.trapen := by cases l <;> rfl
@[simp] theorem Core.setBank_seed (c : Core) (l : Level) (b : Bank) : (c.setBank l b).seed = c.seed := by cases l <;> rfl
@[simp] theorem Core.setBank_timeh (c : Core) (l : Level) (b : Bank) : (c.setBank l b).timeh = c.timeh := by cases l <;> rfl
@[simp] theorem Core.setBank_latch (c : Core) (l : Level) (b : Bank) : (c.setBank l b).latch = c.latch := by cases l <;> rfl
@[simp] theorem Core.setBank_mask (c : Core) (l : Level) (b : Bank) : (c.setBank l b).mask = c.mask := by cases l <;> rfl
@[simp] theorem Core.setBank_maskPages (c : Core) (l : Level) (b : Bank) : (c.setBank l b).maskPages = c.maskPages := by cases l <;> rfl
@[simp] theorem Core.setBank_urgentClk (c : Core) (l : Level) (b : Bank) : (c.setBank l b).urgentClk = c.urgentClk := by cases l <;> rfl
@[simp] theorem Core.setBank_urgentPast (c : Core) (l : Level) (b : Bank) : (c.setBank l b).urgentPast = c.urgentPast := by cases l <;> rfl

@[simp] theorem State.setS_rest (s : State) (r : Reg) (x : Word) : (s.setS r x).rest = s.rest := rfl
@[simp] theorem State.setS_flds (s : State) (r : Reg) (x : Word) : (s.setS r x).flds = s.flds := rfl
@[simp] theorem State.setS_carrels (s : State) (r : Reg) (x : Word) : (s.setS r x).carrels = s.carrels := rfl
@[simp] theorem State.setS_wafer (s : State) (r : Reg) (x : Word) : (s.setS r x).wafer = s.wafer := rfl
@[simp] theorem State.setS_net (s : State) (r : Reg) (x : Word) : (s.setS r x).net = s.net := rfl
@[simp] theorem State.setS_sched (s : State) (r : Reg) (x : Word) : (s.setS r x).sched = s.sched := rfl
@[simp] theorem State.setS_inp (s : State) (r : Reg) (x : Word) : (s.setS r x).inp = s.inp := rfl
@[simp] theorem State.setS_free (s : State) (r : Reg) (x : Word) : (s.setS r x).free = s.free := rfl
@[simp] theorem State.setS_serial (s : State) (r : Reg) (x : Word) : (s.setS r x).serial = s.serial := rfl
@[simp] theorem State.setS_tile_phys (s : State) (r : Reg) (x : Word) : (s.setS r x).tile.phys = s.tile.phys := rfl
@[simp] theorem State.setS_tile_id (s : State) (r : Reg) (x : Word) : (s.setS r x).tile.id = s.tile.id := rfl
@[simp] theorem State.setS_tile_stop (s : State) (r : Reg) (x : Word) : (s.setS r x).tile.stop = s.tile.stop := rfl
@[simp] theorem State.setS_tile_view (s : State) (r : Reg) (x : Word) : (s.setS r x).tile.view = s.tile.view := rfl
@[simp] theorem State.setS_tile_task (s : State) (r : Reg) (x : Word) : (s.setS r x).tile.task = s.tile.task := rfl
@[simp] theorem State.setS_tile_strm (s : State) (r : Reg) (x : Word) : (s.setS r x).tile.strm = s.tile.strm := rfl
@[simp] theorem State.setS_tile_tens (s : State) (r : Reg) (x : Word) : (s.setS r x).tile.tens = s.tile.tens := rfl
@[simp] theorem State.setS_tile_net (s : State) (r : Reg) (x : Word) : (s.setS r x).tile.net = s.tile.net := rfl
@[simp] theorem State.setS_tile_router (s : State) (r : Reg) (x : Word) : (s.setS r x).tile.router = s.tile.router := rfl
@[simp] theorem State.setS_tile_comb (s : State) (r : Reg) (x : Word) : (s.setS r x).tile.comb = s.tile.comb := rfl
@[simp] theorem State.setS_tile_stw (s : State) (r : Reg) (x : Word) : (s.setS r x).tile.stw = s.tile.stw := rfl
@[simp] theorem State.setS_core_level (s : State) (r : Reg) (x : Word) : (s.setS r x).tile.core.level = s.tile.core.level := Core.setBank_level _ _ _
@[simp] theorem State.setS_core_cur (s : State) (r : Reg) (x : Word) : (s.setS r x).tile.core.cur = s.tile.core.cur := Core.setBank_cur _ _ _
@[simp] theorem State.setS_core_halt (s : State) (r : Reg) (x : Word) : (s.setS r x).tile.core.halt = s.tile.core.halt := Core.setBank_halt _ _ _
@[simp] theorem State.setS_core_works (s : State) (r : Reg) (x : Word) : (s.setS r x).tile.core.works = s.tile.core.works := Core.setBank_works _ _ _
@[simp] theorem State.setS_core_phase (s : State) (r : Reg) (x : Word) : (s.setS r x).tile.core.phase = s.tile.core.phase := Core.setBank_phase _ _ _
@[simp] theorem State.setS_core_wait (s : State) (r : Reg) (x : Word) : (s.setS r x).tile.core.wait = s.tile.core.wait := Core.setBank_wait _ _ _
@[simp] theorem State.setS_core_tdz (s : State) (r : Reg) (x : Word) : (s.setS r x).tile.core.tdz = s.tile.core.tdz := Core.setBank_tdz _ _ _
@[simp] theorem State.setS_core_mko (s : State) (r : Reg) (x : Word) : (s.setS r x).tile.core.mko = s.tile.core.mko := Core.setBank_mko _ _ _
@[simp] theorem State.setS_core_tstat (s : State) (r : Reg) (x : Word) : (s.setS r x).tile.core.tstat = s.tile.core.tstat := Core.setBank_tstat _ _ _
@[simp] theorem State.setS_core_trapen (s : State) (r : Reg) (x : Word) : (s.setS r x).tile.core.trapen = s.tile.core.trapen := Core.setBank_trapen _ _ _
@[simp] theorem State.setS_core_seed (s : State) (r : Reg) (x : Word) : (s.setS r x).tile.core.seed = s.tile.core.seed := Core.setBank_seed _ _ _
@[simp] theorem State.setS_core_timeh (s : State) (r : Reg) (x : Word) : (s.setS r x).tile.core.timeh = s.tile.core.timeh := Core.setBank_timeh _ _ _
@[simp] theorem State.setS_core_latch (s : State) (r : Reg) (x : Word) : (s.setS r x).tile.core.latch = s.tile.core.latch := Core.setBank_latch _ _ _
@[simp] theorem State.setS_core_mask (s : State) (r : Reg) (x : Word) : (s.setS r x).tile.core.mask = s.tile.core.mask := Core.setBank_mask _ _ _
@[simp] theorem State.setS_core_maskPages (s : State) (r : Reg) (x : Word) : (s.setS r x).tile.core.maskPages = s.tile.core.maskPages := Core.setBank_maskPages _ _ _
@[simp] theorem State.setS_core_urgentClk (s : State) (r : Reg) (x : Word) : (s.setS r x).tile.core.urgentClk = s.tile.core.urgentClk := Core.setBank_urgentClk _ _ _
@[simp] theorem State.setS_core_urgentPast (s : State) (r : Reg) (x : Word) : (s.setS r x).tile.core.urgentPast = s.tile.core.urgentPast := Core.setBank_urgentPast _ _ _
@[simp] theorem State.setS_urgent (s : State) (r : Reg) (x : Word) : (s.setS r x).urgent = s.urgent := by simp [State.urgent]
@[simp] theorem State.setS_onSteward (s : State) (r : Reg) (x : Word) : (s.setS r x).onSteward = s.onSteward := rfl
@[simp] theorem State.setS_streaming (s : State) (r : Reg) (x : Word) (k : Nat) : (s.setS r x).streaming k = s.streaming k := by simp [State.streaming]
@[simp] theorem State.setS_pcNat (s : State) (r : Reg) (x : Word) : (s.setS r x).pcNat = s.pcNat := by simp [State.pcNat]
@[simp] theorem State.setS_localByte (s : State) (r : Reg) (x : Word) (a : Nat) : (s.setS r x).localByte a = s.localByte a := rfl

@[simp] theorem State.setV_rest (s : State) (r : Reg) (x : VWord) : (s.setV r x).rest = s.rest := rfl
@[simp] theorem State.setV_flds (s : State) (r : Reg) (x : VWord) : (s.setV r x).flds = s.flds := rfl
@[simp] theorem State.setV_carrels (s : State) (r : Reg) (x : VWord) : (s.setV r x).carrels = s.carrels := rfl
@[simp] theorem State.setV_wafer (s : State) (r : Reg) (x : VWord) : (s.setV r x).wafer = s.wafer := rfl
@[simp] theorem State.setV_net (s : State) (r : Reg) (x : VWord) : (s.setV r x).net = s.net := rfl
@[simp] theorem State.setV_sched (s : State) (r : Reg) (x : VWord) : (s.setV r x).sched = s.sched := rfl
@[simp] theorem State.setV_inp (s : State) (r : Reg) (x : VWord) : (s.setV r x).inp = s.inp := rfl
@[simp] theorem State.setV_free (s : State) (r : Reg) (x : VWord) : (s.setV r x).free = s.free := rfl
@[simp] theorem State.setV_serial (s : State) (r : Reg) (x : VWord) : (s.setV r x).serial = s.serial := rfl
@[simp] theorem State.setV_tile_phys (s : State) (r : Reg) (x : VWord) : (s.setV r x).tile.phys = s.tile.phys := rfl
@[simp] theorem State.setV_tile_id (s : State) (r : Reg) (x : VWord) : (s.setV r x).tile.id = s.tile.id := rfl
@[simp] theorem State.setV_tile_stop (s : State) (r : Reg) (x : VWord) : (s.setV r x).tile.stop = s.tile.stop := rfl
@[simp] theorem State.setV_tile_view (s : State) (r : Reg) (x : VWord) : (s.setV r x).tile.view = s.tile.view := rfl
@[simp] theorem State.setV_tile_task (s : State) (r : Reg) (x : VWord) : (s.setV r x).tile.task = s.tile.task := rfl
@[simp] theorem State.setV_tile_strm (s : State) (r : Reg) (x : VWord) : (s.setV r x).tile.strm = s.tile.strm := rfl
@[simp] theorem State.setV_tile_tens (s : State) (r : Reg) (x : VWord) : (s.setV r x).tile.tens = s.tile.tens := rfl
@[simp] theorem State.setV_tile_net (s : State) (r : Reg) (x : VWord) : (s.setV r x).tile.net = s.tile.net := rfl
@[simp] theorem State.setV_tile_router (s : State) (r : Reg) (x : VWord) : (s.setV r x).tile.router = s.tile.router := rfl
@[simp] theorem State.setV_tile_comb (s : State) (r : Reg) (x : VWord) : (s.setV r x).tile.comb = s.tile.comb := rfl
@[simp] theorem State.setV_tile_stw (s : State) (r : Reg) (x : VWord) : (s.setV r x).tile.stw = s.tile.stw := rfl
@[simp] theorem State.setV_core_level (s : State) (r : Reg) (x : VWord) : (s.setV r x).tile.core.level = s.tile.core.level := Core.setBank_level _ _ _
@[simp] theorem State.setV_core_cur (s : State) (r : Reg) (x : VWord) : (s.setV r x).tile.core.cur = s.tile.core.cur := Core.setBank_cur _ _ _
@[simp] theorem State.setV_core_halt (s : State) (r : Reg) (x : VWord) : (s.setV r x).tile.core.halt = s.tile.core.halt := Core.setBank_halt _ _ _
@[simp] theorem State.setV_core_works (s : State) (r : Reg) (x : VWord) : (s.setV r x).tile.core.works = s.tile.core.works := Core.setBank_works _ _ _
@[simp] theorem State.setV_core_phase (s : State) (r : Reg) (x : VWord) : (s.setV r x).tile.core.phase = s.tile.core.phase := Core.setBank_phase _ _ _
@[simp] theorem State.setV_core_wait (s : State) (r : Reg) (x : VWord) : (s.setV r x).tile.core.wait = s.tile.core.wait := Core.setBank_wait _ _ _
@[simp] theorem State.setV_core_tdz (s : State) (r : Reg) (x : VWord) : (s.setV r x).tile.core.tdz = s.tile.core.tdz := Core.setBank_tdz _ _ _
@[simp] theorem State.setV_core_mko (s : State) (r : Reg) (x : VWord) : (s.setV r x).tile.core.mko = s.tile.core.mko := Core.setBank_mko _ _ _
@[simp] theorem State.setV_core_tstat (s : State) (r : Reg) (x : VWord) : (s.setV r x).tile.core.tstat = s.tile.core.tstat := Core.setBank_tstat _ _ _
@[simp] theorem State.setV_core_trapen (s : State) (r : Reg) (x : VWord) : (s.setV r x).tile.core.trapen = s.tile.core.trapen := Core.setBank_trapen _ _ _
@[simp] theorem State.setV_core_seed (s : State) (r : Reg) (x : VWord) : (s.setV r x).tile.core.seed = s.tile.core.seed := Core.setBank_seed _ _ _
@[simp] theorem State.setV_core_timeh (s : State) (r : Reg) (x : VWord) : (s.setV r x).tile.core.timeh = s.tile.core.timeh := Core.setBank_timeh _ _ _
@[simp] theorem State.setV_core_latch (s : State) (r : Reg) (x : VWord) : (s.setV r x).tile.core.latch = s.tile.core.latch := Core.setBank_latch _ _ _
@[simp] theorem State.setV_core_mask (s : State) (r : Reg) (x : VWord) : (s.setV r x).tile.core.mask = s.tile.core.mask := Core.setBank_mask _ _ _
@[simp] theorem State.setV_core_maskPages (s : State) (r : Reg) (x : VWord) : (s.setV r x).tile.core.maskPages = s.tile.core.maskPages := Core.setBank_maskPages _ _ _
@[simp] theorem State.setV_core_urgentClk (s : State) (r : Reg) (x : VWord) : (s.setV r x).tile.core.urgentClk = s.tile.core.urgentClk := Core.setBank_urgentClk _ _ _
@[simp] theorem State.setV_core_urgentPast (s : State) (r : Reg) (x : VWord) : (s.setV r x).tile.core.urgentPast = s.tile.core.urgentPast := Core.setBank_urgentPast _ _ _
@[simp] theorem State.setV_urgent (s : State) (r : Reg) (x : VWord) : (s.setV r x).urgent = s.urgent := by simp [State.urgent]
@[simp] theorem State.setV_onSteward (s : State) (r : Reg) (x : VWord) : (s.setV r x).onSteward = s.onSteward := rfl
@[simp] theorem State.setV_streaming (s : State) (r : Reg) (x : VWord) (k : Nat) : (s.setV r x).streaming k = s.streaming k := by simp [State.streaming]
@[simp] theorem State.setV_pcNat (s : State) (r : Reg) (x : VWord) : (s.setV r x).pcNat = s.pcNat := by simp [State.pcNat]
@[simp] theorem State.setV_localByte (s : State) (r : Reg) (x : VWord) (a : Nat) : (s.setV r x).localByte a = s.localByte a := rfl

@[simp] theorem State.setK_rest (s : State) (r : Reg) (x : BitVec 16) : (s.setK r x).rest = s.rest := rfl
@[simp] theorem State.setK_flds (s : State) (r : Reg) (x : BitVec 16) : (s.setK r x).flds = s.flds := rfl
@[simp] theorem State.setK_carrels (s : State) (r : Reg) (x : BitVec 16) : (s.setK r x).carrels = s.carrels := rfl
@[simp] theorem State.setK_wafer (s : State) (r : Reg) (x : BitVec 16) : (s.setK r x).wafer = s.wafer := rfl
@[simp] theorem State.setK_net (s : State) (r : Reg) (x : BitVec 16) : (s.setK r x).net = s.net := rfl
@[simp] theorem State.setK_sched (s : State) (r : Reg) (x : BitVec 16) : (s.setK r x).sched = s.sched := rfl
@[simp] theorem State.setK_inp (s : State) (r : Reg) (x : BitVec 16) : (s.setK r x).inp = s.inp := rfl
@[simp] theorem State.setK_free (s : State) (r : Reg) (x : BitVec 16) : (s.setK r x).free = s.free := rfl
@[simp] theorem State.setK_serial (s : State) (r : Reg) (x : BitVec 16) : (s.setK r x).serial = s.serial := rfl
@[simp] theorem State.setK_tile_phys (s : State) (r : Reg) (x : BitVec 16) : (s.setK r x).tile.phys = s.tile.phys := rfl
@[simp] theorem State.setK_tile_id (s : State) (r : Reg) (x : BitVec 16) : (s.setK r x).tile.id = s.tile.id := rfl
@[simp] theorem State.setK_tile_stop (s : State) (r : Reg) (x : BitVec 16) : (s.setK r x).tile.stop = s.tile.stop := rfl
@[simp] theorem State.setK_tile_view (s : State) (r : Reg) (x : BitVec 16) : (s.setK r x).tile.view = s.tile.view := rfl
@[simp] theorem State.setK_tile_task (s : State) (r : Reg) (x : BitVec 16) : (s.setK r x).tile.task = s.tile.task := rfl
@[simp] theorem State.setK_tile_strm (s : State) (r : Reg) (x : BitVec 16) : (s.setK r x).tile.strm = s.tile.strm := rfl
@[simp] theorem State.setK_tile_tens (s : State) (r : Reg) (x : BitVec 16) : (s.setK r x).tile.tens = s.tile.tens := rfl
@[simp] theorem State.setK_tile_net (s : State) (r : Reg) (x : BitVec 16) : (s.setK r x).tile.net = s.tile.net := rfl
@[simp] theorem State.setK_tile_router (s : State) (r : Reg) (x : BitVec 16) : (s.setK r x).tile.router = s.tile.router := rfl
@[simp] theorem State.setK_tile_comb (s : State) (r : Reg) (x : BitVec 16) : (s.setK r x).tile.comb = s.tile.comb := rfl
@[simp] theorem State.setK_tile_stw (s : State) (r : Reg) (x : BitVec 16) : (s.setK r x).tile.stw = s.tile.stw := rfl
@[simp] theorem State.setK_core_level (s : State) (r : Reg) (x : BitVec 16) : (s.setK r x).tile.core.level = s.tile.core.level := Core.setBank_level _ _ _
@[simp] theorem State.setK_core_cur (s : State) (r : Reg) (x : BitVec 16) : (s.setK r x).tile.core.cur = s.tile.core.cur := Core.setBank_cur _ _ _
@[simp] theorem State.setK_core_halt (s : State) (r : Reg) (x : BitVec 16) : (s.setK r x).tile.core.halt = s.tile.core.halt := Core.setBank_halt _ _ _
@[simp] theorem State.setK_core_works (s : State) (r : Reg) (x : BitVec 16) : (s.setK r x).tile.core.works = s.tile.core.works := Core.setBank_works _ _ _
@[simp] theorem State.setK_core_phase (s : State) (r : Reg) (x : BitVec 16) : (s.setK r x).tile.core.phase = s.tile.core.phase := Core.setBank_phase _ _ _
@[simp] theorem State.setK_core_wait (s : State) (r : Reg) (x : BitVec 16) : (s.setK r x).tile.core.wait = s.tile.core.wait := Core.setBank_wait _ _ _
@[simp] theorem State.setK_core_tdz (s : State) (r : Reg) (x : BitVec 16) : (s.setK r x).tile.core.tdz = s.tile.core.tdz := Core.setBank_tdz _ _ _
@[simp] theorem State.setK_core_mko (s : State) (r : Reg) (x : BitVec 16) : (s.setK r x).tile.core.mko = s.tile.core.mko := Core.setBank_mko _ _ _
@[simp] theorem State.setK_core_tstat (s : State) (r : Reg) (x : BitVec 16) : (s.setK r x).tile.core.tstat = s.tile.core.tstat := Core.setBank_tstat _ _ _
@[simp] theorem State.setK_core_trapen (s : State) (r : Reg) (x : BitVec 16) : (s.setK r x).tile.core.trapen = s.tile.core.trapen := Core.setBank_trapen _ _ _
@[simp] theorem State.setK_core_seed (s : State) (r : Reg) (x : BitVec 16) : (s.setK r x).tile.core.seed = s.tile.core.seed := Core.setBank_seed _ _ _
@[simp] theorem State.setK_core_timeh (s : State) (r : Reg) (x : BitVec 16) : (s.setK r x).tile.core.timeh = s.tile.core.timeh := Core.setBank_timeh _ _ _
@[simp] theorem State.setK_core_latch (s : State) (r : Reg) (x : BitVec 16) : (s.setK r x).tile.core.latch = s.tile.core.latch := Core.setBank_latch _ _ _
@[simp] theorem State.setK_core_mask (s : State) (r : Reg) (x : BitVec 16) : (s.setK r x).tile.core.mask = s.tile.core.mask := Core.setBank_mask _ _ _
@[simp] theorem State.setK_core_maskPages (s : State) (r : Reg) (x : BitVec 16) : (s.setK r x).tile.core.maskPages = s.tile.core.maskPages := Core.setBank_maskPages _ _ _
@[simp] theorem State.setK_core_urgentClk (s : State) (r : Reg) (x : BitVec 16) : (s.setK r x).tile.core.urgentClk = s.tile.core.urgentClk := Core.setBank_urgentClk _ _ _
@[simp] theorem State.setK_core_urgentPast (s : State) (r : Reg) (x : BitVec 16) : (s.setK r x).tile.core.urgentPast = s.tile.core.urgentPast := Core.setBank_urgentPast _ _ _
@[simp] theorem State.setK_urgent (s : State) (r : Reg) (x : BitVec 16) : (s.setK r x).urgent = s.urgent := by simp [State.urgent]
@[simp] theorem State.setK_onSteward (s : State) (r : Reg) (x : BitVec 16) : (s.setK r x).onSteward = s.onSteward := rfl
@[simp] theorem State.setK_streaming (s : State) (r : Reg) (x : BitVec 16) (k : Nat) : (s.setK r x).streaming k = s.streaming k := by simp [State.streaming]
@[simp] theorem State.setK_pcNat (s : State) (r : Reg) (x : BitVec 16) : (s.setK r x).pcNat = s.pcNat := by simp [State.pcNat]
@[simp] theorem State.setK_localByte (s : State) (r : Reg) (x : BitVec 16) (a : Nat) : (s.setK r x).localByte a = s.localByte a := rfl

/- What the registers read after a write (R204, R205). -/

theorem State.bank_setBank (s : State) (b : Bank) : (s.setBank b).bank = b := by
  unfold State.bank Core.bank State.setBank Core.setBank
  cases h : s.tile.core.level <;> simp

theorem Core.setBank_bank (c : Core) : c.setBank c.level c.bank = c := by
  cases c with
  | mk n u l => cases l <;> rfl

@[simp] theorem State.sr_zero (s : State) : s.sr 0 = 0 := rfl

@[simp] theorem State.setS_zero (s : State) (x : Word) : s.setS 0 x = s := by
  unfold State.setS Bank.setS State.setBank State.bank
  rw [if_pos rfl, Core.setBank_bank]

@[simp] theorem State.setS_sr_self (s : State) (r : Reg) (x : Word) (h : r ≠ 0) : (s.setS r x).sr r = x := by
  simp only [State.sr, State.setS, State.bank_setBank, Bank.setS, Bank.sreg, if_neg h]
  simp

@[simp] theorem State.setS_sr_ne (s : State) (r q : Reg) (x : Word) (h : q ≠ r) : (s.setS r x).sr q = s.sr q := by
  have hn : r.toNat ≠ q.toNat := fun e => h (BitVec.eq_of_toNat_eq e.symm)
  simp only [State.sr, State.setS, State.bank_setBank, Bank.setS, Bank.sreg]
  split
  · rfl
  · split
    · rfl
    · simp [hn]

@[simp] theorem State.setS_vr (s : State) (r q : Reg) (x : Word) : (s.setS r x).vr q = s.vr q := by
  simp only [State.vr, State.setS, State.bank_setBank, Bank.setS]
  split <;> rfl

@[simp] theorem State.setS_kr (s : State) (r q : Reg) (x : Word) : (s.setS r x).kr q = s.kr q := by
  simp only [State.kr, State.setS, State.bank_setBank, Bank.setS]
  split <;> rfl

@[simp] theorem State.setV_vr_self (s : State) (r : Reg) (x : VWord) : (s.setV r x).vr r = x := by
  simp [State.vr, State.setV, State.bank_setBank, Bank.setV, Bank.vreg]

@[simp] theorem State.setV_vr_ne (s : State) (r q : Reg) (x : VWord) (h : q.toNat % 16 ≠ r.toNat % 16) : (s.setV r x).vr q = s.vr q := by
  simp [State.vr, State.setV, State.bank_setBank, Bank.setV, Bank.vreg, Ne.symm h]

@[simp] theorem State.setV_sr (s : State) (r q : Reg) (x : VWord) : (s.setV r x).sr q = s.sr q := by
  simp [State.sr, State.setV, State.bank_setBank, Bank.setV, Bank.sreg]

@[simp] theorem State.setV_kr (s : State) (r q : Reg) (x : VWord) : (s.setV r x).kr q = s.kr q := by
  simp [State.kr, State.setV, State.bank_setBank, Bank.setV, Bank.kreg]

@[simp] theorem State.setK_kr_self (s : State) (r : Reg) (x : BitVec 16) : (s.setK r x).kr r = x := by
  simp [State.kr, State.setK, State.bank_setBank, Bank.setK, Bank.kreg]

@[simp] theorem State.setK_kr_ne (s : State) (r q : Reg) (x : BitVec 16) (h : q.toNat % 8 ≠ r.toNat % 8) : (s.setK r x).kr q = s.kr q := by
  simp [State.kr, State.setK, State.bank_setBank, Bank.setK, Bank.kreg, Ne.symm h]

@[simp] theorem State.setK_sr (s : State) (r q : Reg) (x : BitVec 16) : (s.setK r x).sr q = s.sr q := by
  simp [State.sr, State.setK, State.bank_setBank, Bank.setK, Bank.sreg]

@[simp] theorem State.setK_vr (s : State) (r q : Reg) (x : BitVec 16) : (s.setK r x).vr q = s.vr q := by
  simp [State.vr, State.setK, State.bank_setBank, Bank.setK, Bank.vreg]

/- Going on at another pc changes the pc, the wait and the phase. -/

@[simp] theorem State.after_rest (s : State) (n : Nat) : (s.after n).rest = s.rest := rfl
@[simp] theorem State.after_flds (s : State) (n : Nat) : (s.after n).flds = s.flds := rfl
@[simp] theorem State.after_carrels (s : State) (n : Nat) : (s.after n).carrels = s.carrels := rfl
@[simp] theorem State.after_wafer (s : State) (n : Nat) : (s.after n).wafer = s.wafer := rfl
@[simp] theorem State.after_net (s : State) (n : Nat) : (s.after n).net = s.net := rfl
@[simp] theorem State.after_sched (s : State) (n : Nat) : (s.after n).sched = s.sched := rfl
@[simp] theorem State.after_inp (s : State) (n : Nat) : (s.after n).inp = s.inp := rfl
@[simp] theorem State.after_free (s : State) (n : Nat) : (s.after n).free = s.free := rfl
@[simp] theorem State.after_serial (s : State) (n : Nat) : (s.after n).serial = s.serial := rfl
@[simp] theorem State.after_tile_phys (s : State) (n : Nat) : (s.after n).tile.phys = s.tile.phys := rfl
@[simp] theorem State.after_tile_id (s : State) (n : Nat) : (s.after n).tile.id = s.tile.id := rfl
@[simp] theorem State.after_tile_stop (s : State) (n : Nat) : (s.after n).tile.stop = s.tile.stop := rfl
@[simp] theorem State.after_tile_view (s : State) (n : Nat) : (s.after n).tile.view = s.tile.view := rfl
@[simp] theorem State.after_tile_task (s : State) (n : Nat) : (s.after n).tile.task = s.tile.task := rfl
@[simp] theorem State.after_tile_strm (s : State) (n : Nat) : (s.after n).tile.strm = s.tile.strm := rfl
@[simp] theorem State.after_tile_tens (s : State) (n : Nat) : (s.after n).tile.tens = s.tile.tens := rfl
@[simp] theorem State.after_tile_net (s : State) (n : Nat) : (s.after n).tile.net = s.tile.net := rfl
@[simp] theorem State.after_tile_router (s : State) (n : Nat) : (s.after n).tile.router = s.tile.router := rfl
@[simp] theorem State.after_tile_comb (s : State) (n : Nat) : (s.after n).tile.comb = s.tile.comb := rfl
@[simp] theorem State.after_tile_stw (s : State) (n : Nat) : (s.after n).tile.stw = s.tile.stw := rfl
@[simp] theorem State.after_core_level (s : State) (n : Nat) : (s.after n).tile.core.level = s.tile.core.level := rfl
@[simp] theorem State.after_core_halt (s : State) (n : Nat) : (s.after n).tile.core.halt = s.tile.core.halt := rfl
@[simp] theorem State.after_core_works (s : State) (n : Nat) : (s.after n).tile.core.works = s.tile.core.works := rfl
@[simp] theorem State.after_core_tdz (s : State) (n : Nat) : (s.after n).tile.core.tdz = s.tile.core.tdz := rfl
@[simp] theorem State.after_core_mko (s : State) (n : Nat) : (s.after n).tile.core.mko = s.tile.core.mko := rfl
@[simp] theorem State.after_core_tstat (s : State) (n : Nat) : (s.after n).tile.core.tstat = s.tile.core.tstat := rfl
@[simp] theorem State.after_core_trapen (s : State) (n : Nat) : (s.after n).tile.core.trapen = s.tile.core.trapen := rfl
@[simp] theorem State.after_core_seed (s : State) (n : Nat) : (s.after n).tile.core.seed = s.tile.core.seed := rfl
@[simp] theorem State.after_core_timeh (s : State) (n : Nat) : (s.after n).tile.core.timeh = s.tile.core.timeh := rfl
@[simp] theorem State.after_core_latch (s : State) (n : Nat) : (s.after n).tile.core.latch = s.tile.core.latch := rfl
@[simp] theorem State.after_core_mask (s : State) (n : Nat) : (s.after n).tile.core.mask = s.tile.core.mask := rfl
@[simp] theorem State.after_core_maskPages (s : State) (n : Nat) : (s.after n).tile.core.maskPages = s.tile.core.maskPages := rfl
@[simp] theorem State.after_core_urgentClk (s : State) (n : Nat) : (s.after n).tile.core.urgentClk = s.tile.core.urgentClk := rfl
@[simp] theorem State.after_core_urgentPast (s : State) (n : Nat) : (s.after n).tile.core.urgentPast = s.tile.core.urgentPast := rfl
@[simp] theorem State.after_normal (s : State) (n : Nat) : (s.after n).tile.core.normal = s.tile.core.normal := rfl
@[simp] theorem State.after_shadow (s : State) (n : Nat) : (s.after n).tile.core.shadow = s.tile.core.shadow := rfl
@[simp] theorem State.after_loops (s : State) (n : Nat) : (s.after n).tile.core.cur.loops = s.tile.core.cur.loops := rfl
@[simp] theorem State.after_scope (s : State) (n : Nat) : (s.after n).tile.core.cur.scope = s.tile.core.cur.scope := rfl
@[simp] theorem State.after_bank (s : State) (n : Nat) : (s.after n).bank = s.bank := rfl
@[simp] theorem State.after_sr (s : State) (n : Nat) (r : Reg) : (s.after n).sr r = s.sr r := rfl
@[simp] theorem State.after_vr (s : State) (n : Nat) (r : Reg) : (s.after n).vr r = s.vr r := rfl
@[simp] theorem State.after_kr (s : State) (n : Nat) (r : Reg) : (s.after n).kr r = s.kr r := rfl
@[simp] theorem State.after_localByte (s : State) (n : Nat) (a : Nat) : (s.after n).localByte a = s.localByte a := rfl

@[simp] theorem State.goesTo_rest (s : State) (t : Nat) : (s.goesTo t).rest = s.rest := rfl
@[simp] theorem State.goesTo_flds (s : State) (t : Nat) : (s.goesTo t).flds = s.flds := rfl
@[simp] theorem State.goesTo_carrels (s : State) (t : Nat) : (s.goesTo t).carrels = s.carrels := rfl
@[simp] theorem State.goesTo_wafer (s : State) (t : Nat) : (s.goesTo t).wafer = s.wafer := rfl
@[simp] theorem State.goesTo_net (s : State) (t : Nat) : (s.goesTo t).net = s.net := rfl
@[simp] theorem State.goesTo_sched (s : State) (t : Nat) : (s.goesTo t).sched = s.sched := rfl
@[simp] theorem State.goesTo_inp (s : State) (t : Nat) : (s.goesTo t).inp = s.inp := rfl
@[simp] theorem State.goesTo_free (s : State) (t : Nat) : (s.goesTo t).free = s.free := rfl
@[simp] theorem State.goesTo_serial (s : State) (t : Nat) : (s.goesTo t).serial = s.serial := rfl
@[simp] theorem State.goesTo_tile_phys (s : State) (t : Nat) : (s.goesTo t).tile.phys = s.tile.phys := rfl
@[simp] theorem State.goesTo_tile_id (s : State) (t : Nat) : (s.goesTo t).tile.id = s.tile.id := rfl
@[simp] theorem State.goesTo_tile_stop (s : State) (t : Nat) : (s.goesTo t).tile.stop = s.tile.stop := rfl
@[simp] theorem State.goesTo_tile_view (s : State) (t : Nat) : (s.goesTo t).tile.view = s.tile.view := rfl
@[simp] theorem State.goesTo_tile_task (s : State) (t : Nat) : (s.goesTo t).tile.task = s.tile.task := rfl
@[simp] theorem State.goesTo_tile_strm (s : State) (t : Nat) : (s.goesTo t).tile.strm = s.tile.strm := rfl
@[simp] theorem State.goesTo_tile_tens (s : State) (t : Nat) : (s.goesTo t).tile.tens = s.tile.tens := rfl
@[simp] theorem State.goesTo_tile_net (s : State) (t : Nat) : (s.goesTo t).tile.net = s.tile.net := rfl
@[simp] theorem State.goesTo_tile_router (s : State) (t : Nat) : (s.goesTo t).tile.router = s.tile.router := rfl
@[simp] theorem State.goesTo_tile_comb (s : State) (t : Nat) : (s.goesTo t).tile.comb = s.tile.comb := rfl
@[simp] theorem State.goesTo_tile_stw (s : State) (t : Nat) : (s.goesTo t).tile.stw = s.tile.stw := rfl
@[simp] theorem State.goesTo_core_level (s : State) (t : Nat) : (s.goesTo t).tile.core.level = s.tile.core.level := rfl
@[simp] theorem State.goesTo_core_halt (s : State) (t : Nat) : (s.goesTo t).tile.core.halt = s.tile.core.halt := rfl
@[simp] theorem State.goesTo_core_works (s : State) (t : Nat) : (s.goesTo t).tile.core.works = s.tile.core.works := rfl
@[simp] theorem State.goesTo_core_tdz (s : State) (t : Nat) : (s.goesTo t).tile.core.tdz = s.tile.core.tdz := rfl
@[simp] theorem State.goesTo_core_mko (s : State) (t : Nat) : (s.goesTo t).tile.core.mko = s.tile.core.mko := rfl
@[simp] theorem State.goesTo_core_tstat (s : State) (t : Nat) : (s.goesTo t).tile.core.tstat = s.tile.core.tstat := rfl
@[simp] theorem State.goesTo_core_trapen (s : State) (t : Nat) : (s.goesTo t).tile.core.trapen = s.tile.core.trapen := rfl
@[simp] theorem State.goesTo_core_seed (s : State) (t : Nat) : (s.goesTo t).tile.core.seed = s.tile.core.seed := rfl
@[simp] theorem State.goesTo_core_timeh (s : State) (t : Nat) : (s.goesTo t).tile.core.timeh = s.tile.core.timeh := rfl
@[simp] theorem State.goesTo_core_latch (s : State) (t : Nat) : (s.goesTo t).tile.core.latch = s.tile.core.latch := rfl
@[simp] theorem State.goesTo_core_mask (s : State) (t : Nat) : (s.goesTo t).tile.core.mask = s.tile.core.mask := rfl
@[simp] theorem State.goesTo_core_maskPages (s : State) (t : Nat) : (s.goesTo t).tile.core.maskPages = s.tile.core.maskPages := rfl
@[simp] theorem State.goesTo_core_urgentClk (s : State) (t : Nat) : (s.goesTo t).tile.core.urgentClk = s.tile.core.urgentClk := rfl
@[simp] theorem State.goesTo_core_urgentPast (s : State) (t : Nat) : (s.goesTo t).tile.core.urgentPast = s.tile.core.urgentPast := rfl
@[simp] theorem State.goesTo_normal (s : State) (t : Nat) : (s.goesTo t).tile.core.normal = s.tile.core.normal := rfl
@[simp] theorem State.goesTo_shadow (s : State) (t : Nat) : (s.goesTo t).tile.core.shadow = s.tile.core.shadow := rfl
@[simp] theorem State.goesTo_loops (s : State) (t : Nat) : (s.goesTo t).tile.core.cur.loops = s.tile.core.cur.loops := rfl
@[simp] theorem State.goesTo_scope (s : State) (t : Nat) : (s.goesTo t).tile.core.cur.scope = s.tile.core.cur.scope := rfl
@[simp] theorem State.goesTo_bank (s : State) (t : Nat) : (s.goesTo t).bank = s.bank := rfl
@[simp] theorem State.goesTo_sr (s : State) (t : Nat) (r : Reg) : (s.goesTo t).sr r = s.sr r := rfl
@[simp] theorem State.goesTo_vr (s : State) (t : Nat) (r : Reg) : (s.goesTo t).vr r = s.vr r := rfl
@[simp] theorem State.goesTo_kr (s : State) (t : Nat) (r : Reg) : (s.goesTo t).kr r = s.kr r := rfl
@[simp] theorem State.goesTo_localByte (s : State) (t : Nat) (a : Nat) : (s.goesTo t).localByte a = s.localByte a := rfl

/- A packet put in flight, a packet taken, a change of a carrel or of the field. -/

@[simp] theorem State.sendTo_rest (s : State) (q d : Phys) (out : Bool) (p : Packet) : (s.sendTo q d out p).rest = s.rest := rfl
@[simp] theorem State.sendTo_flds (s : State) (q d : Phys) (out : Bool) (p : Packet) : (s.sendTo q d out p).flds = s.flds := rfl
@[simp] theorem State.sendTo_carrels (s : State) (q d : Phys) (out : Bool) (p : Packet) : (s.sendTo q d out p).carrels = s.carrels := rfl
@[simp] theorem State.sendTo_wafer (s : State) (q d : Phys) (out : Bool) (p : Packet) : (s.sendTo q d out p).wafer = s.wafer := rfl
@[simp] theorem State.sendTo_sched (s : State) (q d : Phys) (out : Bool) (p : Packet) : (s.sendTo q d out p).sched = s.sched := rfl
@[simp] theorem State.sendTo_inp (s : State) (q d : Phys) (out : Bool) (p : Packet) : (s.sendTo q d out p).inp = s.inp := rfl
@[simp] theorem State.sendTo_free (s : State) (q d : Phys) (out : Bool) (p : Packet) : (s.sendTo q d out p).free = s.free := rfl
@[simp] theorem State.sendTo_tile (s : State) (q d : Phys) (out : Bool) (p : Packet) : (s.sendTo q d out p).tile = s.tile := rfl

/-- A message put in flight leads nowhere, or joins the network on its way under the next number. -/
theorem State.emit_cases (s : State) (p : Packet) : s.emit p = s ∨ ∃ d out, s.emit p = s.sendTo (s.sender p) d out p := by
  unfold State.emit State.emitFrom
  cases h : s.leads (s.sender p) p with
  | none => exact .inl rfl
  | some x => exact .inr ⟨x.1, x.2, rfl⟩

@[simp] theorem State.emit_rest (s : State) (p : Packet) : (s.emit p).rest = s.rest := by rcases s.emit_cases p with h | ⟨d, o, h⟩ <;> rw [h]; rfl
@[simp] theorem State.emit_flds (s : State) (p : Packet) : (s.emit p).flds = s.flds := by rcases s.emit_cases p with h | ⟨d, o, h⟩ <;> rw [h]; rfl
@[simp] theorem State.emit_carrels (s : State) (p : Packet) : (s.emit p).carrels = s.carrels := by rcases s.emit_cases p with h | ⟨d, o, h⟩ <;> rw [h]; rfl
@[simp] theorem State.emit_wafer (s : State) (p : Packet) : (s.emit p).wafer = s.wafer := by rcases s.emit_cases p with h | ⟨d, o, h⟩ <;> rw [h]; rfl
@[simp] theorem State.emit_sched (s : State) (p : Packet) : (s.emit p).sched = s.sched := by rcases s.emit_cases p with h | ⟨d, o, h⟩ <;> rw [h]; rfl
@[simp] theorem State.emit_inp (s : State) (p : Packet) : (s.emit p).inp = s.inp := by rcases s.emit_cases p with h | ⟨d, o, h⟩ <;> rw [h]; rfl
@[simp] theorem State.emit_free (s : State) (p : Packet) : (s.emit p).free = s.free := by rcases s.emit_cases p with h | ⟨d, o, h⟩ <;> rw [h]; rfl
@[simp] theorem State.emit_tile (s : State) (p : Packet) : (s.emit p).tile = s.tile := by rcases s.emit_cases p with h | ⟨d, o, h⟩ <;> rw [h]; rfl

@[simp] theorem State.updCarrel_rest (s : State) (c : Nat) (f : Carrel → Carrel) : (s.updCarrel c f).rest = s.rest := rfl
@[simp] theorem State.updCarrel_flds (s : State) (c : Nat) (f : Carrel → Carrel) : (s.updCarrel c f).flds = s.flds := rfl
@[simp] theorem State.updCarrel_wafer (s : State) (c : Nat) (f : Carrel → Carrel) : (s.updCarrel c f).wafer = s.wafer := rfl
@[simp] theorem State.updCarrel_net (s : State) (c : Nat) (f : Carrel → Carrel) : (s.updCarrel c f).net = s.net := rfl
@[simp] theorem State.updCarrel_sched (s : State) (c : Nat) (f : Carrel → Carrel) : (s.updCarrel c f).sched = s.sched := rfl
@[simp] theorem State.updCarrel_inp (s : State) (c : Nat) (f : Carrel → Carrel) : (s.updCarrel c f).inp = s.inp := rfl
@[simp] theorem State.updCarrel_free (s : State) (c : Nat) (f : Carrel → Carrel) : (s.updCarrel c f).free = s.free := rfl
@[simp] theorem State.updCarrel_serial (s : State) (c : Nat) (f : Carrel → Carrel) : (s.updCarrel c f).serial = s.serial := rfl
@[simp] theorem State.updCarrel_tile (s : State) (c : Nat) (f : Carrel → Carrel) : (s.updCarrel c f).tile = s.tile := rfl

@[simp] theorem State.notify_rest (s : State) (c : Nat) (bs : List Byte) : (s.notify c bs).rest = s.rest := rfl
@[simp] theorem State.notify_flds (s : State) (c : Nat) (bs : List Byte) : (s.notify c bs).flds = s.flds := rfl
@[simp] theorem State.notify_wafer (s : State) (c : Nat) (bs : List Byte) : (s.notify c bs).wafer = s.wafer := rfl
@[simp] theorem State.notify_net (s : State) (c : Nat) (bs : List Byte) : (s.notify c bs).net = s.net := rfl
@[simp] theorem State.notify_sched (s : State) (c : Nat) (bs : List Byte) : (s.notify c bs).sched = s.sched := rfl
@[simp] theorem State.notify_inp (s : State) (c : Nat) (bs : List Byte) : (s.notify c bs).inp = s.inp := rfl
@[simp] theorem State.notify_free (s : State) (c : Nat) (bs : List Byte) : (s.notify c bs).free = s.free := rfl
@[simp] theorem State.notify_serial (s : State) (c : Nat) (bs : List Byte) : (s.notify c bs).serial = s.serial := rfl
@[simp] theorem State.notify_tile (s : State) (c : Nat) (bs : List Byte) : (s.notify c bs).tile = s.tile := rfl

@[simp] theorem State.updFld_rest (s : State) (f : Field → Field) : (s.updFld f).rest = s.rest := rfl
@[simp] theorem State.updFld_carrels (s : State) (f : Field → Field) : (s.updFld f).carrels = s.carrels := rfl
@[simp] theorem State.updFld_wafer (s : State) (f : Field → Field) : (s.updFld f).wafer = s.wafer := rfl
@[simp] theorem State.updFld_net (s : State) (f : Field → Field) : (s.updFld f).net = s.net := rfl
@[simp] theorem State.updFld_sched (s : State) (f : Field → Field) : (s.updFld f).sched = s.sched := rfl
@[simp] theorem State.updFld_inp (s : State) (f : Field → Field) : (s.updFld f).inp = s.inp := rfl
@[simp] theorem State.updFld_free (s : State) (f : Field → Field) : (s.updFld f).free = s.free := rfl
@[simp] theorem State.updFld_serial (s : State) (f : Field → Field) : (s.updFld f).serial = s.serial := rfl
@[simp] theorem State.updFld_tile (s : State) (f : Field → Field) : (s.updFld f).tile = s.tile := rfl

@[simp] theorem State.drained_rest (s : State) : (s.drained).rest = s.rest := rfl
@[simp] theorem State.drained_flds (s : State) : (s.drained).flds = s.flds := rfl
@[simp] theorem State.drained_carrels (s : State) : (s.drained).carrels = s.carrels := rfl
@[simp] theorem State.drained_wafer (s : State) : (s.drained).wafer = s.wafer := rfl
@[simp] theorem State.drained_net (s : State) : (s.drained).net = s.net := rfl
@[simp] theorem State.drained_sched (s : State) : (s.drained).sched = s.sched := rfl
@[simp] theorem State.drained_inp (s : State) : (s.drained).inp = s.inp := rfl
@[simp] theorem State.drained_free (s : State) : (s.drained).free = s.free := rfl
@[simp] theorem State.drained_serial (s : State) : (s.drained).serial = s.serial := rfl

@[simp] theorem State.store_rest (s : State) (a : Nat) (bs : List Byte) : (s.store a bs).rest = s.rest := rfl
@[simp] theorem State.store_flds (s : State) (a : Nat) (bs : List Byte) : (s.store a bs).flds = s.flds := rfl
@[simp] theorem State.store_carrels (s : State) (a : Nat) (bs : List Byte) : (s.store a bs).carrels = s.carrels := rfl
@[simp] theorem State.store_wafer (s : State) (a : Nat) (bs : List Byte) : (s.store a bs).wafer = s.wafer := rfl
@[simp] theorem State.store_net (s : State) (a : Nat) (bs : List Byte) : (s.store a bs).net = s.net := rfl
@[simp] theorem State.store_sched (s : State) (a : Nat) (bs : List Byte) : (s.store a bs).sched = s.sched := rfl
@[simp] theorem State.store_inp (s : State) (a : Nat) (bs : List Byte) : (s.store a bs).inp = s.inp := rfl
@[simp] theorem State.store_free (s : State) (a : Nat) (bs : List Byte) : (s.store a bs).free = s.free := rfl
@[simp] theorem State.store_serial (s : State) (a : Nat) (bs : List Byte) : (s.store a bs).serial = s.serial := rfl

@[simp] theorem State.unsend_rest (s : State) (p : Packet) : (s.unsend p).rest = s.rest := rfl
@[simp] theorem State.unsend_flds (s : State) (p : Packet) : (s.unsend p).flds = s.flds := rfl
@[simp] theorem State.unsend_carrels (s : State) (p : Packet) : (s.unsend p).carrels = s.carrels := rfl
@[simp] theorem State.unsend_wafer (s : State) (p : Packet) : (s.unsend p).wafer = s.wafer := rfl
@[simp] theorem State.unsend_sched (s : State) (p : Packet) : (s.unsend p).sched = s.sched := rfl
@[simp] theorem State.unsend_inp (s : State) (p : Packet) : (s.unsend p).inp = s.inp := rfl
@[simp] theorem State.unsend_free (s : State) (p : Packet) : (s.unsend p).free = s.free := rfl
@[simp] theorem State.unsend_serial (s : State) (p : Packet) : (s.unsend p).serial = s.serial := rfl
@[simp] theorem State.unsend_tile (s : State) (p : Packet) : (s.unsend p).tile = s.tile := rfl

@[simp] theorem State.unsend_net (s : State) (p : Packet) : (s.unsend p).net = s.net.erase p := rfl

/- Performing the store queue changes the view alone (R118). -/

theorem Tile.storeOp_eq (t : Tile) (e : StoreOp) : t.storeOp e = { t with view := (t.storeOp e).view } := by cases e <;> rfl

theorem Tile.perform_eq (t : Tile) (l : List StoreOp) : t.perform l = { t with view := (t.perform l).view } := by
  induction l generalizing t with
  | nil => rfl
  | cons x l ih => rw [Tile.perform, ih (t.storeOp x), Tile.storeOp_eq]

@[simp] theorem Tile.storeOp_mem (t : Tile) (e : StoreOp) : (t.storeOp e).view.mem = e.apply t.view.mem := by cases e <;> rfl
@[simp] theorem Tile.storeOp_stores (t : Tile) (e : StoreOp) : (t.storeOp e).view.stores = t.view.stores := by cases e <;> rfl

/-- What the core's loads see is the same before and after stores are performed. -/
theorem Tile.perform_coreMem (t : Tile) (l : List StoreOp) :
    (t.perform l).view.coreMem = t.view.stores.foldl StoreOp.apply (l.foldl StoreOp.apply t.view.mem) := by
  induction l generalizing t with
  | nil => rfl
  | cons x l ih => rw [Tile.perform, ih, Tile.storeOp_mem, Tile.storeOp_stores]; rfl

theorem Tile.drain_coreMem (t : Tile) : t.drain.view.coreMem = t.view.coreMem := by
  rw [Tile.drain, Tile.perform_coreMem]; rfl

@[simp] theorem State.drained_localByte (s : State) (a : Nat) : s.drained.localByte a = s.localByte a :=
  congrArg (Memory.read · a) (Tile.drain_coreMem s.tile)

@[simp] theorem State.drained_tile_phys (s : State) : s.drained.tile.phys = s.tile.phys := by unfold State.drained Tile.drain; rw [Tile.perform_eq]
@[simp] theorem State.drained_tile_id (s : State) : s.drained.tile.id = s.tile.id := by unfold State.drained Tile.drain; rw [Tile.perform_eq]
@[simp] theorem State.drained_tile_stop (s : State) : s.drained.tile.stop = s.tile.stop := by unfold State.drained Tile.drain; rw [Tile.perform_eq]
@[simp] theorem State.drained_tile_task (s : State) : s.drained.tile.task = s.tile.task := by unfold State.drained Tile.drain; rw [Tile.perform_eq]
@[simp] theorem State.drained_tile_strm (s : State) : s.drained.tile.strm = s.tile.strm := by unfold State.drained Tile.drain; rw [Tile.perform_eq]
@[simp] theorem State.drained_tile_tens (s : State) : s.drained.tile.tens = s.tile.tens := by unfold State.drained Tile.drain; rw [Tile.perform_eq]
@[simp] theorem State.drained_tile_net (s : State) : s.drained.tile.net = s.tile.net := by unfold State.drained Tile.drain; rw [Tile.perform_eq]
@[simp] theorem State.drained_tile_router (s : State) : s.drained.tile.router = s.tile.router := by unfold State.drained Tile.drain; rw [Tile.perform_eq]
@[simp] theorem State.drained_tile_comb (s : State) : s.drained.tile.comb = s.tile.comb := by unfold State.drained Tile.drain; rw [Tile.perform_eq]
@[simp] theorem State.drained_tile_stw (s : State) : s.drained.tile.stw = s.tile.stw := by unfold State.drained Tile.drain; rw [Tile.perform_eq]
@[simp] theorem State.drained_tile_core (s : State) : s.drained.tile.core = s.tile.core := by unfold State.drained Tile.drain; rw [Tile.perform_eq]

end Sys2Proof.Machine
end

