-- ==== Sys2Proof/Laws/Access.lean ====
section
/-!
SUPPORT. Core accesses: what noting them changes, and that the store queue and its performance keep memory in canonical form.
-/

namespace Sys2Proof.Machine

/-- Correcting a word changes the lists of words with an error and of corrections, and the counters (R347). -/
theorem View.correct_eq (v : View) (ist : Bool) (w : Nat) :
    ∃ so ce ic ad fx, v.correct ist w = { v with soft := so, ce := ce, ice := ic, ceAddr := ad, fixed := fx } := by
  unfold View.correct
  split
  · exact ⟨_, _, _, _, _, rfl⟩
  · exact ⟨v.soft, v.ce, v.ice, v.ceAddr, v.fixed, rfl⟩

/-- So does correcting what an access reads. -/
theorem View.correctRead_eq (v : View) (a n : Nat) (write : Bool) :
    ∃ so ce ic ad fx, v.correctRead a n write = { v with soft := so, ce := ce, ice := ic, ceAddr := ad, fixed := fx } := by
  unfold View.correctRead
  split
  · exact ⟨v.soft, v.ce, v.ice, v.ceAddr, v.fixed, rfl⟩
  · rename_i hs
    clear hs
    generalize (touchedWords a n).filter _ = l
    induction l generalizing v with
    | nil => exact ⟨v.soft, v.ce, v.ice, v.ceAddr, v.fixed, rfl⟩
    | cons x l ih =>
      simp only [List.foldl_cons]
      split
      · obtain ⟨_, _, _, _, _, h⟩ := View.correct_eq v false (Page.wordAt ‹Page› x)
        obtain ⟨_, _, _, _, _, g⟩ := ih (View.correct v false (Page.wordAt ‹Page› x))
        rw [g, h]
        exact ⟨_, _, _, _, _, rfl⟩
      · exact ih v

/-- Noting an access changes the page map, the list of pages of the masked window and what correcting changes alone (R76, R53, R347). -/
theorem Tile.touch_eq (t : Tile) (a n : Nat) (write core : Bool) :
    ∃ ps ms so ce ic ad fx, t.touch a n write core =
      { t with view := { t.view with pages := ps, soft := so, ce := ce, ice := ic, ceAddr := ad, fixed := fx }, core.maskPages := ms } := by
  obtain ⟨so, ce, ic, ad, fx, h⟩ := View.correctRead_eq t.view a n write
  unfold Tile.touch
  rw [h]
  exact ⟨_, _, so, ce, ic, ad, fx, rfl⟩

/-- So does noting a list of accesses. -/
theorem Tile.touchAll_eq (t : Tile) (l : List (Nat × Nat × Bool × Bool)) :
    ∃ ps ms so ce ic ad fx, l.foldl (fun t x => t.touch x.1 x.2.1 x.2.2.1 true) t =
      { t with view := { t.view with pages := ps, soft := so, ce := ce, ice := ic, ceAddr := ad, fixed := fx }, core.maskPages := ms } := by
  induction l generalizing t with
  | nil => exact ⟨_, _, _, _, _, _, _, rfl⟩
  | cons x l ih =>
    obtain ⟨ps, ms, so, ce, ic, ad, fx, h⟩ := ih (t.touch x.1 x.2.1 x.2.2.1 true)
    obtain ⟨_, _, _, _, _, _, _, g⟩ := Tile.touch_eq t x.1 x.2.1 x.2.2.1 true
    rw [List.foldl_cons, h, g]
    exact ⟨ps, ms, so, ce, ic, ad, fx, rfl⟩

/-- Noting accesses leaves every byte that a core load sees. -/
@[simp] theorem State.noted_localByte (s : State) (l : List (Nat × Nat × Bool × Bool)) (a : Nat) : (s.noted l).localByte a = s.localByte a := by
  unfold State.noted State.settled State.noteAll
  obtain ⟨_, _, _, _, _, _, _, h⟩ := Tile.touchAll_eq (if s.tile.view.bad = [] then s else s.drained).tile l
  unfold State.localByte
  rw [h]
  split
  · rfl
  · exact State.drained_localByte s a

@[simp] theorem State.noted_bank (s : State) (l : List (Nat × Nat × Bool × Bool)) : (s.noted l).bank = s.bank := by
  unfold State.noted State.settled State.noteAll
  obtain ⟨_, _, _, _, _, _, _, h⟩ := Tile.touchAll_eq (if s.tile.view.bad = [] then s else s.drained).tile l
  unfold State.bank
  rw [h]
  split
  · rfl
  · simp only [State.drained_tile_core]; rfl

@[simp] theorem State.noted_sr (s : State) (l : List (Nat × Nat × Bool × Bool)) (r : Reg) : (s.noted l).sr r = s.sr r := by simp [State.sr]
@[simp] theorem State.noted_vr (s : State) (l : List (Nat × Nat × Bool × Bool)) (r : Reg) : (s.noted l).vr r = s.vr r := by simp [State.vr]
@[simp] theorem State.noted_kr (s : State) (l : List (Nat × Nat × Bool × Bool)) (r : Reg) : (s.noted l).kr r = s.kr r := by simp [State.kr]

/-- A store of the queue keeps the canonical form. -/
theorem StoreOp.wf_apply {m : Memory} (e : StoreOp) (h : m.wf = true) : (e.apply m).wf = true := by
  cases e with
  | bytes a bs => exact Memory.wf_writeBytes a bs h
  | bits ba w x => exact Memory.wf_setBits ba w x h

/-- Memory as the core sees it is in canonical form where memory is. -/
theorem View.wf_coreMem (v : View) (h : v.mem.wf = true) : v.coreMem.wf = true := by
  unfold View.coreMem
  generalize v.stores = l
  revert h
  generalize v.mem = m
  intro h
  induction l generalizing m with
  | nil => exact h
  | cons x l ih => exact ih _ (StoreOp.wf_apply x h)

theorem Tile.wf_store (t : Tile) (a : Nat) (bs : List Byte) (h : t.view.mem.wf = true) : (t.store a bs).view.mem.wf = true :=
  Memory.wf_writeBytes a bs h

theorem Tile.wf_storeOp (t : Tile) (e : StoreOp) (h : t.view.mem.wf = true) : (t.storeOp e).view.mem.wf = true := by
  rw [Tile.storeOp_mem]; exact StoreOp.wf_apply e h

theorem Tile.wf_perform (t : Tile) (l : List StoreOp) (h : t.view.mem.wf = true) : (t.perform l).view.mem.wf = true := by
  induction l generalizing t with
  | nil => exact h
  | cons x l ih => exact ih _ (Tile.wf_storeOp t _ h)

theorem Tile.wf_drain (t : Tile) (h : t.view.mem.wf = true) : t.drain.view.mem.wf = true := Tile.wf_perform _ _ h

theorem Tile.wf_queueStore (t : Tile) (e : StoreOp) (h : t.view.mem.wf = true) : (t.queueStore e).view.mem.wf = true := by
  unfold Tile.queueStore Tile.drainOne
  dsimp only
  split
  · split
    · exact h
    · exact Tile.wf_storeOp _ _ h
  · exact h

theorem Tile.wf_coreStore (t : Tile) (a : Nat) (bs : List Byte) (h : t.view.mem.wf = true) : (t.coreStore a bs).view.mem.wf = true :=
  Tile.wf_queueStore t _ h

theorem Tile.wf_coreStoreBits (t : Tile) (ba w x : Nat) (h : t.view.mem.wf = true) : (t.coreStoreBits ba w x).view.mem.wf = true := by
  unfold Tile.coreStoreBits
  dsimp only
  split
  · exact Tile.wf_queueStore t _ h
  · exact Tile.wf_queueStore _ _ (Tile.wf_queueStore t _ h)

theorem State.reset_memoriesCanonical : State.reset.memoriesCanonical = true := rfl

end Sys2Proof.Machine
end

