-- ==== Sys2Proof/Laws/Arith.lean ====
section
/-!
SUPPORT. The scalar operations by the numbers they stand for: least, greatest, clamped, and sums and differences modulo 2^32.
-/

namespace Sys2Proof.Machine

theorem minS_eq (x y : Word) : minS x y = BitVec.ofInt 32 (min x.toInt y.toInt) := by
  unfold minS; rw [BitVec.slt_eq_decide]
  rcases le_total x.toInt y.toInt with h | h
  · rw [min_eq_left h]; by_cases h2 : x.toInt < y.toInt
    · simp [h2]
    · have : x.toInt = y.toInt := by omega
      simp [this]
  · rw [min_eq_right h]; simp [show ¬ x.toInt < y.toInt by omega]
theorem maxS_eq (x y : Word) : maxS x y = BitVec.ofInt 32 (max x.toInt y.toInt) := by
  unfold maxS; rw [BitVec.slt_eq_decide]
  rcases le_total x.toInt y.toInt with h | h
  · rw [max_eq_right h]; by_cases h2 : x.toInt < y.toInt
    · simp [h2]
    · have : x.toInt = y.toInt := by omega
      simp [BitVec.toInt_inj.1 this]
  · rw [max_eq_left h]; simp [show ¬ x.toInt < y.toInt by omega]
theorem minU_eq (x y : Word) : minU x y = BitVec.ofNat 32 (min x.toNat y.toNat) := by
  unfold minU; rw [BitVec.ult_eq_decide]
  rcases le_total x.toNat y.toNat with h | h
  · rw [min_eq_left h]; by_cases h2 : x.toNat < y.toNat
    · simp [h2]
    · have : x.toNat = y.toNat := by omega
      simp [this]
  · rw [min_eq_right h]; simp [show ¬ x.toNat < y.toNat by omega]
theorem maxU_eq (x y : Word) : maxU x y = BitVec.ofNat 32 (max x.toNat y.toNat) := by
  unfold maxU; rw [BitVec.ult_eq_decide]
  rcases le_total x.toNat y.toNat with h | h
  · rw [max_eq_right h]; by_cases h2 : x.toNat < y.toNat
    · simp [h2]
    · have : x.toNat = y.toNat := by omega
      simp [BitVec.toNat_inj.1 this]
  · rw [max_eq_left h]; simp [show ¬ x.toNat < y.toNat by omega]
theorem clampInt_eq (x lo hi : Int) (h : lo ≤ hi) : clampInt x lo hi = max lo (min hi x) := by
  unfold clampInt; split
  · omega
  · split <;> omega

theorem ofNat_add (x y : Word) : BitVec.ofNat 32 (x.toNat + y.toNat) = x + y := by
  apply BitVec.eq_of_toNat_eq; simp [BitVec.toNat_add]
theorem ofInt_sub (x y : Word) : BitVec.ofInt 32 (x.toInt - y.toInt) = x - y := by
  apply BitVec.eq_of_toInt_eq; simp [BitVec.toInt_sub]
theorem ofInt_add (x y : Word) : BitVec.ofInt 32 (x.toInt + y.toInt) = x + y := by
  apply BitVec.eq_of_toInt_eq; simp [BitVec.toInt_add]
theorem sext14 (i : BitVec 14) : BitVec.ofInt 32 i.toInt = i.signExtend 32 := by
  simp [BitVec.signExtend]

theorem ofInt_addI (x : Word) (i : BitVec 14) : BitVec.ofInt 32 (x.toInt + i.toInt) = x + i.signExtend 32 := by
  rw [← ofInt_add]; rw [BitVec.toInt_signExtend_of_le (by decide)]

end Sys2Proof.Machine
end

