-- ==== Sys2Proof/Laws/Issue.lean ====
section
/-!
SUPPORT. What the shared operations of the meanings do: an instruction that issues and completes (`State.issue`), one that transfers
control, one that stops at a fault, and the checks that a body passes through.
-/

namespace Sys2Proof.Machine

/- The iteration boundary. -/

/-- With no open loop ending at `n`, falling through to it changes no loop. -/
theorem boundary_open (cov : Bool) (n : Nat) (ls : List Loop) (h : ∀ l ∈ ls, l.stop ≠ n) : boundary cov n ls = some (ls, n) := by
  cases ls with
  | nil => rfl
  | cons l ls => simp [boundary, h l (by simp)]

/-- What `clear` says. -/
theorem State.clear_iff (s : State) (i : Instr) (reads : List Reg) :
    s.clear i reads = true ↔ s.issues i reads = true ∧ (∀ l ∈ s.tile.core.cur.loops, l.stop ≠ s.pcNat + i.parcels)
      ∧ s.pcNat + i.parcels < 0x2000 := by
  simp [State.clear, and_assoc]

theorem State.clear_issues {s : State} {i : Instr} {reads : List Reg} (h : s.clear i reads = true) : s.issues i reads = true :=
  ((s.clear_iff i reads).1 h).1

/-- What `issues` says. -/
theorem State.issues_iff (s : State) (i : Instr) (reads : List Reg) :
    s.issues i reads = true ↔ i.wf = true ∧ s.straddled i = none ∧ s.stalledOn reads = none := by
  simp [State.issues, and_assoc]

/-- Setting the pc inside the store. -/
theorem State.setPc_some (s : State) (p : Pc) (ls : List Loop) (n : Nat) (h : n < 0x2000) :
    s.setPc p (some (ls, n)) = { s with tile.core.cur.loops := ls, tile.core.cur.pc := BitVec.ofNat 13 n } := by
  simp [State.setPc, h]

/-- The body of an instruction that issues decides what `issue` answers. -/
theorem State.issue_body {s : State} {i : Instr} {how : Issue} {body : State → Res} (hc : s.issues i how.reads = true)
    (hs : how.steward = true → s.onSteward = true) (he : how.early = none) (hf : how.forbidden = true → s.urgent = false) :
    s.issue i how body = .next (s.finish i.parcels (body s)) := by
  obtain ⟨hw, hst, hm⟩ := (s.issues_iff i how.reads).1 hc
  have h1 : (how.steward && !s.onSteward) = false := by
    cases h : how.steward <;> simp [hs, h]
  have h2 : (how.forbidden && s.urgent) = false := by
    cases h : how.forbidden <;> simp [hf, h]
  simp [State.issue, hw, h1, h2, he, hst, hm]

/-- A clear instruction whose body is done, in a state with the same open loops and pc, falls through. -/
theorem State.issue_done {s t : State} {i : Instr} {how : Issue} {body : State → Res} (hc : s.clear i how.reads = true)
    (hs : how.steward = true → s.onSteward = true) (he : how.early = none) (hf : how.forbidden = true → s.urgent = false)
    (hb : body s = .done t) (hl : t.tile.core.cur.loops.map Loop.stop = s.tile.core.cur.loops.map Loop.stop)
    (hp : t.tile.core.cur.pc = s.tile.core.cur.pc) :
    s.issue i how body = .next (t.after i.parcels) := by
  have h := (s.clear_iff i how.reads).1 hc
  have hr : ∀ l ∈ t.tile.core.cur.loops, l.stop ≠ s.pcNat + i.parcels := by
    intro l hl' he'
    have : l.stop ∈ s.tile.core.cur.loops.map Loop.stop := hl ▸ List.mem_map_of_mem hl'
    obtain ⟨k, hk, e⟩ := List.mem_map.1 this
    exact h.2.1 k hk (e.trans he')
  rw [State.issue_body h.1 hs he hf, hb]
  unfold State.finish State.run
  have hpc : BitVec.ofNat 13 (s.pcNat + i.parcels) = s.tile.core.cur.pc + BitVec.ofNat 13 i.parcels := by
    apply BitVec.eq_of_toNat_eq
    simp [State.pcNat, BitVec.toNat_add]
  cases hu : t.urgent
  · simp only [hu, Bool.false_eq_true, if_false]
    rw [boundary_open _ _ _ (by simpa [State.pcNat] using hr), State.setPc_some _ _ _ _ (by simpa [State.pcNat] using h.2.2)]
    simp [State.after, hu, hp, ← hpc, State.pcNat]
  · simp only [hu, if_true]
    rw [boundary_open _ _ _ (by simpa [State.pcNat] using hr), State.setPc_some _ _ _ _ (by simpa [State.pcNat] using h.2.2)]
    simp [State.after, hu, hp, ← hpc, State.pcNat]

/-- A clear instruction of the ALU form writes its value and falls through. -/
theorem State.alu_next (s : State) (i : Instr) (rs : List Reg) (d : Reg) (f : State → Word) (h : s.clear i rs = true) :
    s.alu i rs d f = .next ((s.setS d (f s)).after i.parcels) :=
  State.issue_done (how := { reads := rs }) h (by simp) rfl (by simp) rfl (by simp) (by simp)

/-- The pc as a word. -/
theorem State.pcWord_eq (s : State) : s.pcWord = BitVec.ofNat 32 s.pcNat := by
  apply BitVec.eq_of_toNat_eq
  have := s.tile.core.cur.pc.isLt
  simp [State.pcWord, State.pcNat]

/-- An instruction that issues and whose body faults takes that fault (R335). -/
theorem State.issue_fault {s t : State} {i : Instr} {how : Issue} {body : State → Res} {f : FaultRec} (hc : s.issues i how.reads = true)
    (hs : how.steward = true → s.onSteward = true) (he : how.early = none) (hf : how.forbidden = true → s.urgent = false)
    (hb : body s = .fault f t) : s.issue i how body = .next (t.precise f) := by
  rw [State.issue_body hc hs he hf, hb]; rfl

/-- An instruction that issues and leaves the pc where its effect put it. -/
theorem State.issue_stay {s t : State} {i : Instr} {how : Issue} {body : State → Res} (hc : s.issues i how.reads = true)
    (hs : how.steward = true → s.onSteward = true) (he : how.early = none) (hf : how.forbidden = true → s.urgent = false)
    (hb : body s = .stay t) : s.issue i how body = .next t := by
  rw [State.issue_body hc hs he hf, hb]; rfl

/-- An instruction that issues and waits. -/
theorem State.issue_wait {s t : State} {i : Instr} {how : Issue} {body : State → Res} {n : Nat} {a : Word}
    (hc : s.issues i how.reads = true) (hs : how.steward = true → s.onSteward = true) (he : how.early = none)
    (hf : how.forbidden = true → s.urgent = false) (hb : body s = .wait n a t) : s.issue i how body = .next (t.wait n a) := by
  rw [State.issue_body hc hs he hf, hb]; rfl

/-- A transfer to a parcel address at which the open loops stay as they are (R241). -/
theorem State.issue_goto {s t : State} {i : Instr} {how : Issue} {body : State → Res} {n : Nat} (hc : s.issues i how.reads = true)
    (hs : how.steward = true → s.onSteward = true) (he : how.early = none) (hf : how.forbidden = true → s.urgent = false)
    (hb : body s = .goto n t) (hl : t.staysAt n = true) (hn : n < 0x2000) : s.issue i how body = .next (t.goesTo n) := by
  rw [State.issue_body hc hs he hf, hb]
  have key : ∀ cov, leaveLoops cov n t.tile.core.cur.loops = some (t.tile.core.cur.loops, n) := by
    intro cov
    unfold State.staysAt at hl
    split at hl
    · rename_i h; rw [h]; rfl
    · rename_i l ls h; rw [h]; simp at hl; simp [leaveLoops, hl]
  unfold State.finish State.run
  cases hu : t.urgent <;> simp only [hu, Bool.false_eq_true, if_false, if_true] <;>
    rw [show ∀ c, leaveLoops c n t.tile.core.cur.loops = some (t.tile.core.cur.loops, n) from key, State.setPc_some _ _ _ _ hn] <;>
    simp [State.goesTo, hu]

/-- An instruction with an unallocated field value raises code 0x01 (R353). -/
theorem State.issue_ill (s : State) (i : Instr) (how : Issue) (body : State → Res) (h : i.wf = false) :
    s.issue i how body = .next (s.precise { code := 0x01, addr := s.pcWord, info := instrWord i }) := by
  simp [State.issue, h, State.finish]

/-- A steward-mode instruction outside steward mode raises code 0x02 (R351). -/
theorem State.issue_steward {s : State} {i : Instr} {how : Issue} (body : State → Res) (hw : i.wf = true) (h : how.steward = true)
    (ho : s.onSteward = false) :
    s.issue i how body = .next (s.precise { code := 0x02, addr := s.pcWord, info := instrWord i }) := by
  simp [State.issue, h, ho, hw, State.finish]

/-- An instruction that the urgent level forbids raises code 0x0C there (R356). -/
theorem State.issue_forbidden {s : State} {i : Instr} {how : Issue} (body : State → Res) (hw : i.wf = true)
    (hs : how.steward = true → s.onSteward = true) (he : how.early = none) (hf : how.forbidden = true) (hu : s.urgent = true) :
    s.issue i how body = .next (s.precise { code := 0x0C, info := instrWord i }) := by
  have h1 : (how.steward && !s.onSteward) = false := by
    cases h : how.steward <;> simp [hs, h]
  simp [State.issue, hw, h1, he, hf, hu, State.finish]

/-- An instruction answers a next state whatever its body does. -/
theorem State.issue_completes (s : State) (i : Instr) (how : Issue) (body : State → Res) : Completes (s.issue i how body) := ⟨_, rfl⟩

/-- A step of another agent answers the state that it makes. -/
theorem State.become_next (s : State) (f : State → State) : s.become f = .next (f s) := rfl

/- Checks that a body passes through. -/

theorem State.need_ok (s : State) (f : FaultRec) (k : Res) (b : Bool) (h : b = true) : s.need b f k = k := by simp [State.need, h]

theorem State.writable_ok (s : State) (r : Reg) (k : Res) (h : s.streaming r.toNat = false) : s.writable r k = k := by
  simp [State.writable, h]

/-- Granted accesses go on, in the state in which the store queue has drained if a word's check bits fail. -/
theorem State.checked_ok (s : State) (l : List (Nat × Nat × Bool × Bool)) (k : State → Res) (h : s.grants l = true) :
    s.checked l k = k s.settled := by
  unfold State.grants State.settled at h
  unfold State.checked State.settled
  dsimp only
  rw [eq_of_beq h]

theorem State.access_ok (s : State) (l : List (Nat × Nat × Bool × Bool)) (k : State → Res) (h : s.grants l = true) :
    s.access l k = k (s.noted l) := by
  rw [State.access, State.checked_ok s l _ h, State.noted]

end Sys2Proof.Machine
end

