-- ==== Sys2Proof/Tests/Slice0.lean ====
section
/-!
SUPPORT. The model's own tests: the checks of WellFormed on ill-formed terms, the decoding of words written out from the encodings, and for
every statement of Obligations.lean states and operands that meet the hypotheses of each of its clauses, with results worked out by hand from
the rules where the clause gives one.
-/

namespace Sys2Proof.Tests

set_option Elab.async false

open Sys2Proof Sys2Proof.Machine Sys2Proof.Claims

/-- The state that a step gives. -/
def got : Host.Outcome State Fault Refusal → State
  | .next t => t
  | _ => State.reset

/-- The residency of name (1, 1) of carrel 1, bound on tile (0, 5), its work running at parcel 0x100, with a page of 64 KiB at address 0. -/
def run : State :=
  { tile := { phys := { px := 0, py := 5 }, id := { name := 0x401, carrel := 1 }, core := { phase := .running, cur := { pc := 0x100 } },
              view := { pages := [{ k := 4, vbase := 0, pbase := 0 }], frames := [] } },
    carrels := [{ num := 1 }] }

/-- The residency of name (2, 1) of carrel 1, bound on tile (1, 5), with handlers installed for classes 14 and 3, at parcel 0x80. -/
def peer : Tile :=
  { phys := { px := 1, py := 5 }, id := { name := 0x402, carrel := 1 }, core := { phase := .running },
    view := { pages := [{ k := 4, vbase := 0, pbase := 0 }], frames := [], ist := (Memory.setN [] 12 4 0x2080).setN 56 4 0x2080 } }

/-- The acting steward tile of field (0, 0), running. -/
def stew : State := { run with tile.phys := { px := 0, py := 0 }, tile.id.carrel := 0, carrels := [] }

/-- `run` with scalar registers set. -/
def withRegs (s : State) (l : List (Reg × Word)) : State := l.foldl (fun s x => s.setS x.1 x.2) s

/-- `run` at the urgent level, with a normal level halted at 0x200. -/
def urgent (s : State) : State :=
  { s with tile.core.level := .urgent, tile.core.halt := some { pc := 0x200 }, tile.core.phase := .running }

/-- Scalar registers with edge values. -/
def regs : State := withRegs run [(2, 0x80000000), (3, 0xFFFFFFFF), (4, 0x7FFFFFFF), (5, 33), (6, 1)]

/-- Gang 5 of carrel 1, of the residencies (1, 1), rank 0, and (2, 1), the receiver of its faults. -/
def ganged : State :=
  let l : Launch := { stage := 1, pin := false, w := 2, h := 1, scope := 0, tag := 7, image := 0, parcels := 32, arg := 0, pw := [], reservedBits := false }
  { regs with tile.id.gang := 5, rest := [{ peer with id.gang := 5, id.rank := 1 }], carrels := [{ num := 1, gangs := [{ num := 5, x := 1, y := 1, scope := 0, fresh := false, launch := l, state := .running }] }] }

/-- Memory with the bytes 0x80, 0x91, … in the row at 0x100, and two bytes at 0x124. -/
def filled (s : State) : State :=
  { s with tile.view.mem := [(0x100, 0x80), (0x101, 0x91), (0x102, 0xA2), (0x103, 0xB3), (0x104, 0xC4), (0x105, 0xD5), (0x106, 0xE6), (0x107, 0xF7), (0x108, 0x08), (0x109, 0x19), (0x10A, 0x2A), (0x10B, 0x3B), (0x10C, 0x4C), (0x10D, 0x5D), (0x10E, 0x6E), (0x10F, 0x7F), (0x124, 0x44), (0x125, 0x55)] }

/-- That memory with addresses and data in registers. -/
def mem : State := withRegs (filled run) [(2, 0x100), (3, 0xFFFFFFFF), (4, 0x11223344), (5, 0x55667788), (8, 0x104), (30, 0x100), (31, 0xFFF8)]

/-- v1 holds 1.0, 2.0, −1.0, infinity as FP32; v2 holds 1.0 in each lane; v3 holds the bytes 0 to 15. -/
def vecs : State := (((withRegs run [(6, 1)]).setV 1 0x7F800000BF800000400000003F800000).setV 2 0x3F8000003F8000003F8000003F800000).setV 3
  0x0F0E0D0C0B0A09080706050403020100

/-- v13 in stream mode with one element buffered. -/
def streaming : State := { vecs with tile.strm.regs := [{ n := 1, pat := { pat := { base := 0, space := 0, bounded := false, fill := 0, dims := [(0, 0, 0, 0)] }, scope := 0 }, buf := [7] }] }

/-- `mem` with a record of zero words at 0x200 and operand words in registers. -/
def ops : State := withRegs mem [(6, 0x10000), (9, 0x402), (10, 0x200), (11, 0x402), (12, 0x20), (13, 0x10), (14, 0x300), (15, 0x10)]

/-- The same, with the entry of name (2, 1) cached. -/
def near : State := { ops with tile.net.names := [{ name := 0x402, phys := { px := 1, py := 5 }, gen := 0, xr := false }] }

/-- `mem` with the handlers of classes 3, 14 and 15 enabled at parcel 0x80, and the residency (2, 1) beside it. -/
def awake : State :=
  { mem with rest := [peer], tile.view.ist := [(12, 0x80), (13, 0x20), (56, 0x80), (57, 0x20), (60, 0x80), (61, 0x20)] }

/-- A packet of class 3 from (2, 1) that has arrived at (1, 1). -/
def pkt (b : Body) : Packet :=
  { hdr := { dst := 0x401, src := 0x402, scope := 0, cls := 3, prio := 2, urgent := false, carrel := 1 }, body := b, place := some ({ px := 0, py := 5 }, 0) }

/-- The packet in flight, and given to the step. -/
def given (s : State) (p : Packet) : State := { s with net := [p], inp := { pkt := some p } }

/-- A message of 32 bytes of class 3, which is current, and an empty one whose activation waits. -/
def received : State := { mem with
  tile.task.queue := [{ id := 4, cls := 3, prio := 2, urgent := false, tag := 8, src := 0x402, scope := 0, payload := (List.range 32).map (BitVec.ofNat 8) },
    { id := 5, cls := 3, prio := 2, urgent := false, tag := 9, src := 0x402, scope := 0, payload := [] }],
  tile.task.rings := [{ work := .msg 5, prio := 2, scope := 0 }],
  tile.core.cur.cursor := { cls := 3, cur := some 4 } }

/-- Membership entry 3 of the count barrier at 0x108 of (2, 1), not arrived. -/
def joined : State := { withRegs near [(2, 3), (6, 0x402), (8, 0x108)] with
  tile.task.members := (Vector.replicate 4 none).set 3 (some { bar := .count 0x402 0x108, scope := 0 }) }

/-- Field (0, 0) in a slot of a resource that carrel 1 owns. -/
def serving (r : Nat) : Field := { fx := 0, fy := 0, slot := 3, almanac := [(r, 3, 0x8001)] }

/-- An agent's access to a range meets nothing; an operation's range can be acted on. -/
def sought (s : State) (a n : Nat) (reads : Bool) (agent : BitVec 3) : Bool := match s.tile.seek a n reads agent with
  | .ok => true
  | _ => false
def lands (s : State) (p : Packet) (a n : Nat) (w r : Bool) (agent : BitVec 3) : Bool := match s.landing p a n w r agent with
  | .go => true
  | _ => false

/- WellFormed (R200 to R212, R223, R289): each limit with a term that breaks it. -/

theorem test_wf_even_pair : (Instr.ldd 5 1 0).wf = false ∧ (Instr.ldd 4 1 0).wf = true := by decide
theorem test_wf_loop_length : (Instr.loopi 1 0 0).wf = false ∧ (Instr.loopi 1 1 0).wf = true := by decide
theorem test_wf_sleep_mask : (Instr.sleep 0).wf = false ∧ (Instr.sleep 0x100).wf = false ∧ (Instr.sleep 0xFF).wf = true := by decide
theorem test_wf_vector_number : (Instr.vmov 16 0).wf = false ∧ (Instr.vmov 15 15).wf = true := by decide
theorem test_wf_vldt_group : (Instr.vldt 6 0 0).wf = false ∧ (Instr.vldt 12 0 0).wf = true := by decide
theorem test_wf_mask_number : (Instr.kset 8 0).wf = false ∧ (Instr.kset 7 0).wf = true := by decide
theorem test_wf_lane_width : (Instr.vaddI 0 0 0 3).wf = false ∧ (Instr.vaddF 0 0 0 3 0).wf = false := by decide
theorem test_wf_atomic : (Instr.atom 0 0 0 11).wf = false ∧ (Instr.atomD 1 0 0 0).wf = false ∧ (Instr.atomD 2 0 4 10).wf = false := by decide
theorem test_wf_page_size : (Instr.alloc 0 5).wf = false ∧ (Instr.alloc 0 4).wf = true := by decide
theorem test_wf_vext_lane : (Instr.vext 0 0 4).wf = false ∧ (Instr.vext 0 0 3).wf = true := by decide
theorem test_wf_stream : (Instr.strmCfg 11 0).wf = false ∧ (Instr.strmStop 18).wf = false ∧ (Instr.strmBind 2 0 0 0).wf = false := by decide
theorem test_wf_reduce_mode : (Instr.vred 0 0 1 1).wf = false ∧ (Instr.rqacc 0 0 3 0).wf = false := by decide
theorem test_wf_tensor : (Instr.tcfg 3).wf = false ∧ (Instr.tarm 4 0).wf = false := by decide
/-- Words put together from the rows' fixed bits and fields. -/
theorem test_decode_integer : ([
    (0x0020C401, .add 4 6 8),
    (0x01A0C401, .subs 4 6 8),
    (0x03A0C401, .andn 4 6 8),
    (0x0520C401, .sltu 4 6 8),
    (0x0720C401, .maxu 4 6 8),
    (0x01A0C403, .rot 4 6 8),
    (0x0120C403, .sra 4 6 8),
    (0x0200C403, .clz 4 6),
    (0x0380C403, .brev 4 6),
    (0x0120C405, .mulhu 4 6 8),
    (0x02A0C405, .rem 4 6 8),
    (0x11A0C407, .fshr 4 6 8 3),
    (0x0020C409, .crcw 4 6 8)
    ] : List (Nat × Instr)).all (fun x => decodeTableWord 32 x.1 == some x.2) = true := by decide

/-- Words put together from the rows' fixed bits and fields. -/
theorem test_decode_immediate : ([
    (0xFFECC421, .addi 4 6 0x3FFB),
    (0xFFECC427, .xori 4 6 0x3FFB),
    (0xFFECC42B, .sltiu 4 6 0x3FFB),
    (0x0024C431, .srai 4 6 9),
    (0xFFFF6435, .li 4 0x7FFFB),
    (0xFFFF6437, .lui 4 0x7FFFB),
    (0x0114C439, .bfx 4 6 2 5),
    (0x0114C43B, .bfi 4 6 2 5),
    (0x0120C43D, .lut3 4 6 8 2)
    ] : List (Nat × Instr)).all (fun x => decodeTableWord 32 x.1 == some x.2) = true := by decide

/-- Words put together from the rows' fixed bits and fields. -/
theorem test_decode_control : ([
    (0x00144241, .beq 5 2 2),
    (0x0014424B, .bgeu 5 2 2),
    (0xFFFF644D, .jal 4 0x7FFFB),
    (0xFFECC44F, .jalr 4 6 0x3FFB),
    (0x0050C151, .loop 6 20 1),
    (0x28006153, .loopi 3 20 1),
    (0x01800055, .yield),
    (0x09000055, .fence 2),
    (0x00240457, .mfc 4 9),
    (0x0024C059, .mtc 6 9),
    (0x000C005B, .trap 3),
    (0x0084005D, .sleep 33)
    ] : List (Nat × Instr)).all (fun x => decodeTableWord 32 x.1 == some x.2) = true := by decide

/-- Words put together from the rows' fixed bits and fields. -/
theorem test_decode_memory : ([
    (0xFFECC461, .ldb 4 6 0x3FFB),
    (0xFFECC467, .ldhu 4 6 0x3FFB),
    (0xFFECC46B, .ldd 4 6 0x3FFB),
    (0xFFECC471, .stw 4 6 0x3FFB),
    (0xFFECC473, .std 4 6 0x3FFB),
    (0xFFECC475, .vld 4 6 0x3FFB),
    (0xFFECC477, .vst 4 6 0x3FFB),
    (0xFFECC479, .vldt 4 6 0x3FFB),
    (0x0008C47B, .ldbit 4 6 2),
    (0x0008C47D, .stbit 4 6 2),
    (0x0120C47F, .ldp 4 6 8 2),
    (0x22A0C47F, .atom 4 6 8 5),
    (0x2AA0C47F, .atomD 4 6 8 5),
    (0x4004C07F, .alloc 6 1),
    (0x4100C07F, .pin 6)
    ] : List (Nat × Instr)).all (fun x => decodeTableWord 32 x.1 == some x.2) = true := by decide

/-- Words put together from the rows' fixed bits and fields. -/
theorem test_decode_vector : ([
    (0x5020C481, .vaddF 4 6 8 1 1),
    (0x51A0C487, .vfma 4 6 8 3 1 1),
    (0x4020C489, .vmin 4 6 8 1),
    (0x7000C489, .vneg 4 6 1),
    (0x9020C48D, .vmulh 4 6 8 2),
    (0xA020C48F, .vsra 4 6 8 2),
    (0x9020C591, .vcmp 5 6 8 2 1),
    (0x81A0C493, .vsel 4 6 8 3 2),
    (0x81A0C495, .vshuf 4 6 8 3 2),
    (0x8000C497, .vred 4 6 2 0),
    (0x4020C499, .vamax 4 6 8 1),
    (0x4000C49B, .rqacc 4 6 1 0),
    (0x0120C49D, .vlut3 4 6 8 2),
    (0x1000C49F, .vbcast 4 6),
    (0x200CC49F, .vext 4 6 3),
    (0x300CC49F, .vins 4 6 3),
    (0x5000C49F, .kget 4 6),
    (0x9820C4E1, .cvtRne 4 6 8 1 3 0),
    (0x00A0C4E9, .cvts 4 6 8 1),
    (0x22A0C4EB, .bkpack 4 6 8 0 1 1 1),
    (0x22A0C4ED, .bkunpack 4 6 8 0 1 1 1)
    ] : List (Nat × Instr)).all (fun x => decodeTableWord 32 x.1 == some x.2) = true := by decide

/-- Words put together from the rows' fixed bits and fields. -/
theorem test_decode_tensor : ([
    (0x010000A1, .tcfg 2),
    (0x0000C3A3, .tarm 3 6),
    (0x000002A5, .tzero 2),
    (0x0000C1A9, .tfeed 1 6),
    (0x0080C4A7, .tdrain 4 6 1),
    (0x0000CDB1, .strmCfg 13 6),
    (0x00A0C1B1, .strmBind 1 6 8 0),
    (0x010010B1, .strmStop 16)
    ] : List (Nat × Instr)).all (fun x => decodeTableWord 32 x.1 == some x.2) = true := by decide

/-- Words put together from the rows' fixed bits and fields. -/
theorem test_decode_remote : ([
    (0x00A0C4B3, .getFar 4 6 8),
    (0x2820C4B5, .put 4 6 8 2 1),
    (0x0020C3B7, .wmcfg 3 6 8),
    (0x29A0C4C1, .send 4 6 8 3 2 1),
    (0x29A0C4C3, .sendm 4 6 8 3 2 1),
    (0x000004C9, .recv 4),
    (0x0100C4C9, .recvSel 4 6),
    (0x28A0C4C5, .rstDw 4 6 8 2 1),
    (0x2AA0C4C7, .ratom 4 6 8 2 1 5),
    (0x6AA0C4C7, .ratomD 4 6 8 2 1 5),
    (0x0020C4CD, .tdec 4 6 8),
    (0x0020C4CF, .spawn 4 6 8),
    (0x0020C4CB, .tnew 4 6 8),
    (0x00A0C4D1, .istoreM 4 6 8),
    (0x4820C4D3, .trigArm 4 6 8 9),
    (0x0020C4D5, .cntset 4 6 8),
    (0x0080C4D5, .cntrd 4 6),
    (0x0020C4D7, .barJoin 4 6 8),
    (0x008044D7, .barLine 4 2),
    (0x000004D9, .scopeOpen 4),
    (0x0100C4D9, .cancel 4 6),
    (0x0020C0DB, .combCfg 6 8),
    (0x008104DD, .folioRun 4 8)
    ] : List (Nat × Instr)).all (fun x => decodeTableWord 32 x.1 == some x.2) = true := by decide

/-- Words put together from the rows' fixed bits and fields. -/
theorem test_decode_steward : ([
    (0x0020C4F1, .migr 4 6 8),
    (0x00A0C4F1, .migrG 4 6 8),
    (0x0820C4F3, .mapwrSlot 4 6 8 1),
    (0x08A0C4F3, .mapwrDetour 4 6 8 1),
    (0x0920C4F3, .mapwrOwnership 4 6 8 1),
    (0x09A0C4F3, .mapwrDistbound 4 6 8 1),
    (0x0000C4F5, .maprd 4 6),
    (0x0020C4F7, .shoot 4 6 8),
    (0x0020C4F9, .almset 4 6 8),
    (0x0080C4FB, .tileoff 4 6),
    (0x0020C4FB, .archive 4 6 8),
    (0x0080C4FD, .eccrd 4 6),
    (0x000000FD, .eret)
    ] : List (Nat × Instr)).all (fun x => decodeTableWord 32 x.1 == some x.2) = true := by decide

/-- Words put together from the rows' fixed bits and fields. -/
theorem test_decode_compact : ([
    (0x4182, .mov 6 8),
    (0x4184, .addCompact 6 8),
    (0x418C, .xorCompact 6 8),
    (0xD98E, .addi5 6 27),
    (0x4990, .shliCompact 6 9),
    (0xD996, .li5 6 27),
    (0x419C, .ldwCompact 6 8),
    (0x419E, .stwCompact 6 8),
    (0x2998, .beqz 6 5),
    (0x299A, .bnez 6 5),
    (0x01A0, .jr 6),
    (0x0022, .doneCompact),
    (0x0026, .cancelchkCompact)
    ] : List (Nat × Instr)).all (fun x => decodeTableWord 16 x.1 == some x.2) = true := by decide


/- Scalar instructions. -/



/-- R224 to R231 on edge values, worked out by hand. -/
theorem test_integer_results : ([
    (.add 1 3 6, 0), (.sub 1 2 6, 0x7FFFFFFF), (.adds 1 4 6, 0x7FFFFFFF), (.subs 1 2 6, 0x80000000), (.and 1 3 4, 0x7FFFFFFF),
    (.or 1 2 6, 0x80000001), (.xor 1 3 4, 0x80000000), (.andn 1 3 4, 0x80000000), (.orn 1 6 3, 1), (.slt 1 2 6, 1), (.sltu 1 2 6, 0),
    (.min 1 2 6, 0x80000000), (.max 1 3 6, 1), (.minu 1 3 6, 1), (.maxu 1 3 6, 0xFFFFFFFF),
    (.addi 1 6 0x3FFF, 0), (.andi 1 3 0x3FFE, 0xFFFFFFFE), (.ori 1 6 0x2000, 0xFFFFE001), (.xori 1 3 1, 0xFFFFFFFE),
    (.slti 1 2 0x3FFF, 1), (.sltiu 1 6 0x3FFF, 1),
    (.shl 1 6 5, 0), (.shr 1 2 5, 0), (.sra 1 2 5, 0xFFFFFFFF), (.rot 1 2 5, 1), (.shli 1 6 31, 0x80000000), (.shri 1 2 31, 1),
    (.srai 1 2 31, 0xFFFFFFFF), (.roti 1 2 1, 1),
    (.mul 1 3 3, 1), (.mulh 1 2 2, 0x40000000), (.mulhu 1 3 3, 0xFFFFFFFE), (.div 1 2 3, 0x80000000), (.div 1 6 0, 0xFFFFFFFF),
    (.divu 1 3 5, 130150524), (.rem 1 2 3, 0), (.rem 1 2 0, 0x80000000), (.remu 1 3 5, 3)
    ] : List (Instr × Word)).all (fun x => (scalar regs x.1).isSome && regs.clear x.1 [] && (got (exec x.1 regs)).sr 1 == x.2) = true := by
  decide +kernel

/-- R228, R229, R232 to R235 and R200. CRCW of 0 is 0, as its polynomial divides 0. -/
theorem test_bit_results : ([
    (.clz 1 6, 31), (.clz 1 0, 32), (.ctz 1 2, 31), (.ctz 1 0, 32), (.popc 1 4, 31), (.brev 1 6, 0x80000000),
    (.fshl 1 2 3 6, 1), (.fshr 1 6 2 6, 0xC0000000), (.bfx 1 3 3 8, 15), (.lut3 1 3 6 0x40, 1), (.crcw 1 0 0, 0),
    (.li 1 0x7FFFF, 0xFFFFFFFF), (.lui 1 0x7FFFF, 0xFFFFE000)
    ] : List (Instr × Word)).all (fun x => (bitwise regs x.1).isSome && regs.clear x.1 [] && (got (exec x.1 regs)).sr 1 == x.2) = true := by
  decide +kernel

theorem test_compact_results : ([
    (.mov 2 6, 1), (.addCompact 2 3, 0x7FFFFFFF), (.subCompact 2 6, 0x7FFFFFFF), (.andCompact 2 4, 0), (.orCompact 2 4, 0xFFFFFFFF),
    (.xorCompact 2 2, 0), (.addi5 2 0x1F, 0x7FFFFFFF), (.shliCompact 2 1, 0), (.shriCompact 2 31, 1), (.sraiCompact 2 31, 0xFFFFFFFF),
    (.li5 2 0x10, 0xFFFFFFF0)
    ] : List (Instr × Word)).all (fun x => (compact regs x.1).isSome && regs.clear x.1 [] && (got (exec x.1 regs)).sr 2 == x.2) = true := by
  decide +kernel

/-- BFI keeps the bits of d outside its field (R232). -/
theorem test_bfi : (got (exec (.bfi 2 3 3 4) regs)).sr 2 = 0x800000F0 := by decide +kernel

/-- R236, R237, and their witnesses: taken and not taken, with the first and last parcel of the store as targets. -/
theorem test_transfers : ([
    (.beq 0x10 0 0, 0x110), (.bne 0x3F00 6 0, 0), (.blt 0x1EFF 6 3, 0x1FFF), (.bge 4 3 6, 0x104), (.bltu 4 2 6, 0x104), (.bgeu 4 6 2, 0x104),
    (.beqz 0 0x7F0, 0xF0), (.bnez 6 2, 0x102), (.jal 5 0x7FFFE, 0xFE), (.jalr 5 6 0x10, 0x11), (.jr 5, 33)
    ] : List (Instr × Nat)).all (fun x => regs.issues x.1 [] && regs.staysAt x.2 &&
      (match transfers regs x.1 with | some (_, true, t, _) => t.toNat == x.2 | _ => false) &&
      (got (exec x.1 regs)).pcNat == x.2) = true := by decide +kernel
theorem test_return_address : (got (exec (.jal 5 4) regs)).sr 5 = 0x102 ∧ (got (exec (.jalr 6 6 0x10) regs)).sr 6 = 0x102 := by decide +kernel
theorem test_untaken : ([.bne 0x10 0 0, .beq 4 6 0, .blt 4 3 6, .bge 4 6 3, .bltu 4 6 2, .bgeu 4 2 6, .beqz 6 4, .bnez 0 4] : List Instr).all (fun i =>
    regs.clear i [] && (match transfers regs i with | some (_, false, _, _) => true | _ => false) &&
    (got (exec i regs)).pcNat == 0x100 + i.parcels) = true := by decide +kernel
theorem test_target_outside : regs.issues (.jalr 5 4 0) [4] = true ∧ (transfers regs (.jalr 5 4 0)).isSome = true ∧
    0x2000 ≤ (regs.sr 4).toNat ∧ (got (exec (.jalr 5 4 0) regs)).tile.stop.fcause.toNat % 256 = 4 ∧ (got (exec (.jalr 5 4 0) regs)).sr 5 = 33 := by
  decide +kernel

/-- An open loop that ends at 0x102, one iteration left. -/
def looping : State := { regs with tile.core.cur.loops := [{ start := 0x80, stop := 0x102, kill := false, left := 1 }] }

theorem test_loop_opens : regs.issues (.loop 5 0x1EFE 1) [5] = true ∧ mayOpen regs (0x102 + 0x1EFE) = true ∧ regs.sr 5 ≠ 0 ∧
    (got (exec (.loop 5 0x1EFE 1) regs)).tile.core.cur.loops = [{ start := 0x102, stop := 0x2000, kill := true, left := 32 }] := by decide +kernel
theorem test_loopi_skips : regs.issues (.loopi 0 0x10 0) [] = true ∧ (loops regs (.loopi 0 0x10 0)).isSome = true ∧ regs.staysAt 0x112 = true ∧
    (got (exec (.loopi 0 0x10 0) regs)).pcNat = 0x112 := by decide +kernel
theorem test_loop_faults :
    let two : State := { regs with tile.core.cur.loops := [{ start := 0x80, stop := 0x120, kill := false, left := 1 }, { start := 0x80, stop := 0x200, kill := false, left := 1 }] }
    let one : State := { regs with tile.core.cur.loops := [{ start := 0x80, stop := 0x120, kill := false, left := 1 }] }
    two.issues (.loopi 3 4 0) [] = true ∧ (got (exec (.loopi 3 4 0) two)).tile.stop.fcause.toNat % 256 = 5 ∧
    one.issues (.loopi 3 0x1F 0) [] = true ∧ (got (exec (.loopi 3 0x1F 0) one)).tile.stop.fcause.toNat % 256 = 6 ∧
    (got (exec (.loopi 3 0x1F 0) one)).tile.stop.finfo = 0x120 := by decide +kernel
theorem test_loop_boundary : looping.issues (.add 1 5 6) [5, 6] = true ∧ (got (exec (.add 1 5 6) looping)).pcNat = 0x80 ∧
    (got (exec (.add 1 5 6) looping)).tile.core.cur.loops = [{ start := 0x80, stop := 0x102, kill := false, left := 0 }] ∧
    (got (exec (.add 1 5 6) (got (exec (.add 1 5 6) { looping with tile.core.cur.loops := [{ start := 0x100, stop := 0x102, kill := false, left := 1 }] })))).tile.core.cur.loops = []
    := by decide +kernel

/- Latches, fences, and the end of work. -/

theorem test_quiet : ([.nop, .nopCompact, .cancelchk, .cancelchkCompact, .mask, .unmask, .sleep 0x40, .fence 0, .fence 3] : List Instr).all (fun i =>
    let s : State := { regs with tile.core.latch := 0x40 }
    s.clear i [] && (match quiet s i with | some t => got (exec i s) == t.after i.parcels | none => false)) = true := by decide +kernel


theorem test_ends : ([.done, .doneCompact, .doneG, .doneGCompact, .yield] : List Instr).all (fun i => match ends i with
    | none => false
    | some ph => ganged.issues i [] && !ganged.urgent && (got (exec i ganged)).tile.core.phase == ph &&
      ((got (exec i ganged)).carrels == if ph = .finished then (counted ganged).carrels else ganged.carrels)) = true := by decide +kernel
theorem test_done_g_counts : (got (exec .doneG ganged)).carrels.map (fun c => c.gangs.map (·.count)) = [[1]] := by decide +kernel
theorem test_urgent_done : (urgent regs).issues .doneCompact [] = true ∧ (urgent regs).urgent = true ∧
    (urgent regs).coveredBy 0 = false ∧ (urgent regs).tile.stop.reply = none ∧ (got (exec .doneCompact (urgent regs))).pcNat = 0x200 := by decide +kernel


/-- A task whose record is at 0x200: it goes back to the ring of its class. -/
def task (s : State) : State := { s with tile.core.cur.work := .task 0x200, tile.core.cur.prio := 2 }

theorem test_yield_of_task : (task run).issues .yield [] = true ∧ (task run).tile.ringCount 2 < 256 ∧
    (task run).coveredBy ((task run).drained.tile.recWord 0x200 12) = false ∧
    (got (exec .yield (task run))).tile.task.rings = [{ work := .task 0x200, prio := 2, scope := 0 }] := by decide +kernel

/- Control registers, traps, exceptions and faults. -/

theorem test_mfc : ([(0x00, 0x401), (0x0C, 3), (0x05, 1), (0x11, 0), (0x33, 0)] : List (BitVec 7 × Word)).all (fun x =>
    regs.clear (.mfc 1 x.1) [] && ctlListed x.1.toNat && !ctlSteward x.1.toNat && (got (exec (.mfc 1 x.1) regs)).sr 1 == x.2) = true := by decide +kernel
theorem test_mtc : regs.clear (.mtc 4 0x15) [4] = true ∧ (got (exec (.mtc 4 0x15) regs)).tile.core.seed = 0x7FFFFFFF ∧
    (got (exec (.mtc 4 0x13) { regs with tile.core.tstat := 0x3FF })).tile.core.tstat = 0 ∧
    (got (exec (.mtc 4 0) regs)).tile.id.name = 0x401 ∧
    stew.clear (.mtc 0 0x60) [0] = true ∧ (got (exec (.mtc 0 0x60) { stew with tile.stw.sepc := 4 })).tile.stw.sepc = 0 := by decide +kernel
theorem test_control_faults : (Instr.mfc 1 0x7F).wf = true ∧ ctlListed 0x7F = false ∧ ctlListed 0x60 = true ∧ ctlSteward 0x60 = true ∧
    regs.onSteward = false ∧ (got (exec (.mtc 1 0x7F) regs)).tile.stop.finfo = 0xFF ∧
    (got (exec (.mfc 1 0x60) regs)).tile.stop.fcause.toNat % 256 = 2 := by decide +kernel
theorem test_trap : regs.issues (.trap 0x3FFF) [] = true ∧ regs.onSteward = false ∧
    (got (exec (.trap 0x3FFF) regs)).tile.stop.fcause.toNat % 256 = 0x90 ∧ (got (exec (.trap 0x3FFF) regs)).tile.stop.finfo = 0x3FFF ∧
    stew.issues (.trap 5) [] = true ∧ stew.onSteward = true ∧ stew.tile.stw.active = false ∧
    (got (exec (.trap 5) stew)).tile.stw.sepc = 0x102 := by decide +kernel
theorem test_steward_exception : stew.onSteward = true ∧ (stew.precise { code := 0x08 }).tile.stw.sepc = 0x100 ∧
    (stew.precise { code := 0x08 }).tile.stw.active = true ∧
    ({ stew with tile.stw.active := true }.precise { code := 0x08 }).tile.stop.off = true := by decide +kernel
theorem test_eret : stew.issues .eret [] = true ∧ stew.staysAt 0x1FFF = true ∧
    (got (exec .eret { stew with tile.stw.active := true, tile.stw.sepc := 0x1FFF })).pcNat = 0x1FFF := by decide +kernel
theorem test_fault_entry : regs.onSteward = false ∧ regs.tile.stop.faulted = none ∧ regs.workCovered = false ∧ regs.myGang = none ∧
    (regs.precise { code := 0x90, info := 9 }).tile.stop.fcause = 0x01000190 ∧ (regs.precise { code := 0x90 }).issuing = false ∧
    (urgent regs).urgent = true ∧ ((urgent regs).precise { code := 0x90 }).tile.stop.fcause = 0x01000590 := by decide +kernel
theorem test_fault_of_gang : (match ganged.receiver with | some (_, p) => p != ganged.tile.phys && ganged.receives p | none => false) = true ∧
    (ganged.precise { code := 0x90 }).tile.stop.faulted = some .normal := by decide +kernel
theorem test_s0 : (run.setS 0 5).sr 0 = 0 ∧ (run.setS 31 5).sr 31 = 5 ∧ (run.setS 31 5).sr 30 = 0 := by decide +kernel

/- Local memory: bytes 80 91 A2 B3 C4 D5 E6 F7 08 19 2A 3B 4C 5D 6E 7F … from 0x100. -/



theorem test_loads : ([
    (.ldb 1 2 0, 0xFFFFFF80), (.ldbu 1 2 0x3FFF, 0), (.ldh 1 2 2, 0xFFFFB3A2), (.ldhu 1 2 6, 0xF7E6), (.ldw 1 2 4, 0xF7E6D5C4),
    (.ldwCompact 1 1, 0xF7E6D5C4), (.ldd 0 2 0, 0xF7E6D5C4)
    ] : List (Instr × Word)).all (fun x => match load x.1 with
      | some (a, off, n, _) => mem.clear x.1 [a] && (mem.sr a + off).toNat % n == 0 && mem.grants [((mem.sr a + off).toNat, n, false, true)] &&
          (got (exec x.1 mem)).sr 1 == x.2
      | none => false) = true := by decide +kernel
theorem test_stores : ([(.stb 4 2 0, 1, 0x44), (.sth 4 2 2, 2, 0x3344), (.stw 4 31 4, 4, 0x11223344), (.std 4 31 0, 8, 0x5566778811223344),
    (.stwCompact 4 1, 4, 0x11223344)] : List (Instr × Nat × Nat)).all (fun x => match store mem x.1 with
      | some (a, off, n, rs, v) => let ea := (mem.sr a + off).toNat
          mem.clear x.1 (a :: rs) && ea % n == 0 && mem.grants [(ea, n, true, false)] && (n, v % 2 ^ (8 * n)) == x.2 &&
          (got (exec x.1 mem)).loadN ea n == x.2.2 && (got (exec x.1 mem)).localByte (ea - 1) == mem.localByte (ea - 1)
      | none => false) = true := by decide +kernel
theorem test_misaligned : (load (.ldw 1 2 2)).isSome = true ∧ mem.issues (.ldw 1 2 2) [2] = true ∧ (store mem (.sth 4 2 1)).isSome = true ∧
    mem.issues (.sth 4 2 1) [2, 4] = true ∧ (got (exec (.ldw 1 2 2) mem)).tile.stop.fcause.toNat % 256 = 8 ∧
    (got (exec (.ldw 1 2 2) mem)).tile.stop.finfo = 4 ∧ (got (exec (.sth 4 2 1) mem)).tile.stop.faddr = 0x101 := by decide +kernel
theorem test_stored_bytes : mem.tile.view.mem.wf = true ∧ (mem.storeN 0x100 2 0x1FFEE).localByte 0x101 = 0xFF ∧
    (mem.storeN 0x100 2 0x1FFEE).localByte 0x102 = 0xA2 ∧ mem.loadN 0x100 2 = 0x9180 := by decide +kernel
theorem test_vector_memory : let s := mem.setV 3 5
    s.clear (.vld 15 2 0) [2] = true ∧ (s.vecAddr 2 0).toNat = 0x100 ∧ s.streaming 15 = false ∧ s.grants [(0x100, 16, false, true)] = true ∧
    (got (exec (.vld 15 2 0) s)).vr 15 = 0x7F6E5D4C3B2A1908F7E6D5C4B3A29180 ∧ s.clear (.vst 3 2 0) [2] = true ∧
    s.grants [(0x100, 16, true, false)] = true ∧ ((s.noted [(0x100, 16, true, false)]).popV 3).isSome = true ∧
    (got (exec (.vst 3 2 0) s)).loadN 0x100 16 = 5 ∧ s.clear (.vldt 12 2 0) [2] = true ∧ s.grants [(0x100, 64, false, true)] = true ∧
    laneN ((got (exec (.vldt 12 2 0) s)).vr 13) 32 2 = s.loadN 0x124 4 := by decide +kernel
/-- A field of 12 bits at bit 4 of byte 0x101, and one of 32 bits. -/
theorem test_bit_fields : let s := withRegs mem [(2, 0x80C)]
    (s.sr 2).toNat < 2 ^ 20 ∧ s.clear (.ldbit 1 2 11) [2] = true ∧ s.grants (bitAccess 0x80C 12 false) = true ∧
    (got (exec (.ldbit 1 2 11) s)).sr 1 = 0xA29 ∧ s.clear (.stbit 3 2 31) [2, 3] = true ∧ s.grants (bitAccess 0x80C 32 true) = true ∧
    (got (exec (.stbit 3 2 31) s)).loadN 0x101 5 = 0xDFFFFFFFF1 := by decide +kernel
def windowed : State := withRegs { mem with tile.view := { mem.tile.view with
    pw := (mem.tile.view.pw.set 7 { kind := 2, base := 0x100, length := 1 }).set 6 { kind := 1, base := 0x100, length := 1 } } } [(6, 12)]
theorem test_ldp : let s := windowed
    s.clear (.ldp 1 6 0 7) [6, 0] = true ∧ s.tile.view.pw[7].kind = 2 ∧ s.grants [(s.tile.view.pw[7].start + 12, 4, false, true)] = true ∧
    (got (exec (.ldp 1 6 0 7) s)).sr 1 = 0x7F6E5D4C ∧
    s.issues (.ldp 1 6 0 0) [6, 0] = true ∧ s.tile.view.pw[0].kind = 0 ∧ (got (exec (.ldp 1 6 0 0) s)).tile.stop.fcause.toNat % 256 = 0x45 ∧
    s.issues (.ldp 1 8 0 6) [8, 0] = true ∧ s.urgent = false ∧ s.tile.view.pw[6].kind = 1 ∧
    (got (exec (.ldp 1 8 0 6) s)).tile.stop.fcause.toNat % 256 = 0x46 := by decide +kernel
/-- The last word of a far window of 32 bytes that begins 16 bytes below the top of the far address space has come: it is word 12 from address 0. -/
theorem test_ldp_far : let s : State := { windowed with
      tile.view.pw := windowed.tile.view.pw.set 5 { kind := 1, base := 2 ^ 48 - 16, length := 2 },
      tile.strm.farWord := some { id := 1, va := 12, sent := true, word := some 7 } }
    let t := withRegs s [(6, 28)]
    t.clear (.ldp 1 6 0 5) [6, 0] = true ∧ t.urgent = false ∧ t.tile.view.pw[5].kind = 1 ∧ (t.sr 6 + t.sr 0).toNat + 4 = 16 * t.tile.view.pw[5].length.toNat ∧
    (t.tile.view.pw[5].start + 28) % 2 ^ 48 = 12 ∧ (got (exec (.ldp 1 6 0 5) t)).sr 1 = 7 ∧ (got (exec (.ldp 1 6 0 5) t)).tile.strm.farWord = none := by decide +kernel
theorem test_atomics : mem.clear (.atom 1 2 4 0) [2, 4] = true ∧ mem.grants [(0x100, 4, true, true)] = true ∧
    (got (exec (.atom 1 2 4 0) mem)).sr 1 = 0xB3A29180 ∧
    mem.clear (.atomD 6 2 4 9) [2, 4, 5, 6, 7] = true ∧ mem.grants [(0x100, 8, true, true)] = true ∧
    (got (exec (.atomD 6 2 4 9) mem)).sr 7 = 0xF7E6D5C4 := by decide +kernel
/-- Two frames free: one of 16 KiB and one of 4 KiB. -/
def framed : State := withRegs { mem with tile.view := { mem.tile.view with frames := [(3, 0x10000), (2, 0x14000)] } } [(7, 0x10000)]
theorem test_pages : framed.clear (.alloc 7 2) [7] = true ∧ (framed.drained.tile.alloc 0x10000 2).1 = none ∧
    (got (exec (.alloc 7 2) framed)).tile.view.pages.map (·.vbase) = [0, 0x10000] ∧
    framed.clear (.free 2) [2] = true ∧ framed.tile.view.mapCheck 0x100 1 false = .ok ∧ (framed.tile.view.page 0x100).map (·.vbase) = some 0 ∧
    (framed.tile.view.page 0x100).map framed.tile.busy = some false ∧ (got (exec (.free 2) framed)).tile.view.pages = [] ∧
    framed.clear (.pin 2) [2] = true ∧ (framed.tile.view.page 0x100).map (·.resident) = some true ∧
    (framed.tile.view.page 0x100).map (·.pinned) = some false ∧ framed.tile.view.pinned + pageSize 4 ≤ 72 * 1024 ∧
    (got (exec (.pin 2) framed)).tile.view.pages.map (·.pinned) = [true] := by decide +kernel

/- Vectors. -/

theorem test_packed : ([
    (.vaddI 4 3 3 0, 0x1E1C1A18161412100E0C0A0806040200), (.vsubI 4 5 3 0, 0xF1F2F3F4F5F6F7F8F9FAFBFCFDFEFF00),
    (.vadds 4 1 1 2, 0x7FFFFFFF800000007FFFFFFF7F000000), (.vmulI 4 3 3 0, 0xE1C4A990796451403124191009040100),
    (.vshl 4 3 3 1, 0), (.vrot 4 3 5 2, 0x0F0E0D0C0B0A09080706050403020100)
    ] : List (Instr × VWord)).all (fun x => match packed x.1 with
      | some (d, a, b, _, _) => vecs.clear x.1 [] && !vecs.streaming d.toNat && (vecs.popVs [a, b]).isSome && (got (exec x.1 vecs)).vr 4 == x.2
      | none => false) = true := by decide +kernel
theorem test_vector : ([
    (.vaddF 4 1 2 0 0, 0x7F800000000000004040000040000000), (.vmulF 4 1 2 0 0, 0x7F800000BF800000400000003F800000),
    (.vsubF 4 2 1 0 0, 0xFF80000040000000BF80000000000000), (.vfma 4 2 2 2 0 0, 0x40000000400000004000000040000000),
    (.vmin 4 1 2 0, 0x3F800000BF8000003F8000003F800000), (.vmax 4 1 2 0, 0x7F8000003F800000400000003F800000),
    (.vabs 4 1 0, 0x7F8000003F800000400000003F800000), (.vneg 4 1 0, 0xFF8000003F800000C0000000BF800000),
    (.vsel 4 1 2 0 2, 0x3F8000003F8000003F8000003F800000), (.vshuf 4 3 3 1 0, 0x0F0E0D0C0B0A09080706050403020100),
    (.vlut3 4 1 2 0xF0, 0x7F800000BF800000400000003F800000), (.vmov 15 1, 0), (.vbcast 4 6, 0x00000001000000010000000100000001),
    (.vins 4 6 3, 0x00000001000000000000000000000000)
    ] : List (Instr × VWord)).all (fun x => match vector vecs x.1 with
      | some (d, rs, vs, _) => vecs.clear x.1 rs && !vecs.streaming d.toNat && (vecs.popVs vs).isSome && (got (exec x.1 vecs)).vr 4 == x.2
      | none => false) = true := by decide +kernel
theorem test_reductions : ([.vred 4 1 2 0, .vamax 4 1 2 0] : List Instr).all (fun i => match vector vecs i with
    | some (d, rs, vs, _) => vecs.clear i rs && !vecs.streaming d.toNat && (vecs.popVs vs).isSome
    | none => false) = true := by decide +kernel
/-- Overflow and inexact: the greatest FP32 doubled. -/
theorem test_flags : let s := vecs.setV 1 0x7F7FFFFF
    (got (exec (.vaddF 4 1 1 0 0) s)).vr 4 = 0x7F800000 ∧ (got (exec (.vaddF 4 1 1 0 0) s)).tile.core.tstat ≠ 0 := by decide +kernel

theorem test_sources : streaming.streaming 13 = true ∧ streaming.urgent = false ∧ (streaming.popV 13).map (·.1) = some 7 ∧
    streaming.issues (.vmov 13 1) [] = true ∧ (got (exec (.vmov 13 1) streaming)).tile.stop.finfo = 13 ∧
    (got (exec (.vmov 13 1) streaming)).tile.stop.fcause.toNat % 256 = 0x0A ∧ (got (exec (.vmov 4 13) streaming)).vr 4 = 7 := by decide +kernel
theorem test_masks : vecs.clear (.vcmp 7 1 2 2 1) [] = true ∧ (vecs.popVs [1, 2]).isSome = true ∧ vecs.clear (.vext 1 1 3) [] = true ∧
    (got (exec (.vext 1 1 3) vecs)).sr 1 = 0x7F800000 ∧ vecs.clear (.kset 7 6) [6] = true ∧ (got (exec (.kset 7 6) vecs)).kr 7 = 1 ∧
    vecs.clear (.kget 1 7) [] = true ∧ (got (exec (.kget 1 7) (vecs.setK 7 0xFFFF))).sr 1 = 0xFFFF := by decide +kernel
theorem test_conversions : (converts (.cvtRne 4 1 0 0 0 1)).isSome = true ∧ vecs.clear (.cvtRne 4 1 0 0 0 1) [0] = true ∧ vecs.streaming 4 = false ∧
    (vecs.popVs [1, 4]).isSome = true ∧ (converts (.cvtRne 4 1 0 1 0 2)).isSome = true ∧ vecs.clear (.cvtRne 4 1 0 1 0 2) [0] = true ∧
    vecs.clear (.cvts 1 2 0 0) [0] = true ∧ (vecs.popVs [2]).isSome = true := by decide +kernel
/-- BKPACK and BKUNPACK of 32 FP32 zeros from 0x200, the data at 0x400 and the sidecar at 0x500. -/
def blocks : State := withRegs run [(2, 0x200), (4, 0x400), (5, 0x500)]
theorem test_blocks : blocks.clear (.bkpack 1 2 4 0 0 0 0) [2, 4, 5] = true ∧ blocks.grants (packAccess blocks 2 4 0 0) = true ∧
    (blocks.sr 5).toNat % 4 = 0 ∧ blocks.clear (.bkunpack 1 2 4 0 0 0 0) [2, 4, 5] = true ∧
    blocks.grants (unpackAccess blocks 2 4 0 0) = true ∧ blocks.tile.view.mem.wf = true := by decide +kernel

/- Tensor commands, copies, messages. -/

theorem test_tensor_commands : ([.tcfg 2, .tarm 3 12, .tzero 3, .tfeed 0 12, .strmBind 1 6 0 1, .strmStop 16, .strmStop 17] : List Instr).all (fun i =>
    match command ops i with
    | some (rs, op, dr) => !ops.urgent && ops.clear i rs && decide (ops.tile.tens.cmds.length < 8) &&
        (got (exec i ops)).tile.tens.cmds == [{ op := op, scope := 0 }] && got (exec i ops) == (queued (if dr then ops.drained else ops) op).after 2
    | none => false) = true := by decide +kernel
theorem test_tarm_limits : (command (ops.setS 12 256) (.tarm 0 12)).isSome = true ∧ (command (ops.setS 12 257) (.tarm 0 12)).isSome = false := by decide +kernel
theorem test_tfeed_zero : ops.clear (.tfeed 1 7) [7] = true ∧ ops.sr 7 = 0 ∧ ops.clear .strmSync [] = true ∧ ops.tile.synced = true ∧
    (got (exec .strmSync ops)).pcNat = 0x102 := by decide +kernel
/-- A zero record is a drain of FP32 to address 0, and a pattern of one element at 0. -/
theorem test_drain_and_pattern : let l : List (Nat × Nat × Bool × Bool) := [(0x200, 32, false, true)]
    let p : List (Nat × Nat × Bool × Bool) := [(0x200, 64, false, true)]
    (ops.sr 10).toNat % 16 = 0 ∧ ops.clear (.tdrain 1 10 3) [10] = true ∧ ops.grants l = true ∧
    (ops.noted l).firstBad 0x200 ((ops.noted l).drainChecks 0x200) = none ∧ (got (exec (.tdrain 1 10 3) ops)).tile.tens.cmds.length = 1 ∧
    (got (exec (.tdrain 1 10 3) ops)).tile.net.marks.map (·.reg) = [1] ∧
    ops.clear (.strmCfg 15 10) [10] = true ∧ ops.grants p = true ∧ (ops.noted p).firstBad 0x200 ((ops.noted p).patternChecks 0x200) = none ∧
    (got (exec (.strmCfg 15 10) ops)).streaming 15 = true ∧
    ops.clear (.strmBind 0 10 10 0) [10, 10] = true ∧ ops.grants (p ++ p) = true ∧ (got (exec (.strmBind 0 10 10 0) ops)).tile.tens.cmds.length = 1 ∧
    streaming.clear (.strmStop 13) [] = true ∧ (got (exec (.strmStop 13) streaming)).streaming 13 = false := by decide +kernel

/-- Operands of a copy up to the end of the page: local side s12, control word s13, remote side s10 with the name in s11. -/
def copying : State := withRegs near [(12, 0x600), (13, 0xFA00), (10, 0x700), (11, 0x402)]
theorem test_copies : ([.get 1 12 10, .getFar 1 12 10, .getLoc 1 14 8, .put 1 12 10 0 0, .put 1 12 10 2 1, .putFar 1 12 10 3 1] : List Instr).all (fun i =>
    let s := withRegs copying [(8, 0x700), (9, 0), (14, 0x300), (15, 16)]
    match copies i with
    | some (k, _, a, b, r, x) => let m := if k = .put ∨ k = .putFar then 0x5A else 0x59
        s.clear i [a, b, a + 1, b + 1] && (s.copyLimit k a b m).isNone &&
        s.copyMapped k (s.sr a).toNat (s.sr b).toNat ((s.sr (a + 1)).toNat % 2 ^ 17) == .ok && ((k != .get && k != .put) || known s (s.sr (b + 1))) &&
        mayRelease s r x && s.tile.copySlot == some 0 &&
        (match (got (exec i s)).tile.strm.copies with
         | [c] => c.kind == k && c.length == (if a = 12 then 0xFA00 else 16) && c.src == copySrc s k a b && c.dst == copyDst s k a b
         | _ => false) &&
        (got (exec i s)).net.length == (if k = .get then 1 else 0)
    | none => false) = true := by decide +kernel
theorem test_copy_fences : let s := withRegs run [(2, 0x17FF0), (3, 0x18000)]
    s.urgent = false ∧ s.clear (.wmcfg 3 2 3) [2, 3] = true ∧ s.tile.strm.copies = [] ∧ (s.sr 3).toNat ≤ viewEnd ∧
    ((got (exec (.wmcfg 3 2 3) s)).tile.strm.wm[3]).hi = 0x18000 ∧ s.clear (.wmcfg 0 2 2) [2, 2] = true ∧ s.clear .sfence [] = true ∧
    s.tile.strm.replay = none ∧ s.tile.net.acks[3] = 0 ∧ s.clear .fenceFar [] = true ∧ (got (exec .fenceFar s)).pcNat = 0x102 := by decide +kernel
/-- A message of 16 bytes from 0x100 with tag s4, to (2, 1); and to the row of names from (1, 1) to (2, 1). -/
def sending : State := withRegs near [(10, 0x100), (11, 16), (6, 0x402), (8, 0x401), (9, 1)]
theorem test_sends : let s := sending
    mayRelease s 1 3 = true ∧ mayRelease s 0 0 = true ∧ s.grants (payloadRows 0x100 16) = true ∧ s.clear (.send 4 6 10 3 3 1) [4, 6, 10, 11] = true ∧
    s.sendLimit 10 0x60 = none ∧ known s 0x402 = true ∧ (got (exec (.send 4 6 10 3 3 1) s)).net.map (·.hdr.dst) = [0x402] ∧
    s.clear (.sendm 4 8 10 3 0 0) [4, 8, 10, 9, 11] = true ∧ s.sendLimit 10 0x61 = none ∧ s.rectLimit 8 0x61 = none ∧
    (s.rectOf 8).all (known s) = true ∧ (got (exec (.sendm 4 8 10 3 0 0) s)).net.map (·.hdr.dst) = [0x401, 0x402] := by decide +kernel

theorem test_receives : let s := withRegs received [(2, 0x110), (3, 16), (6, 1), (7, 3)]
    s.tile.noCursor = false ∧ s.clear (.recv 15) [] = true ∧ s.streaming 15 = false ∧ (s.tile.pop 2).isSome = true ∧
    (got (exec (.recv 15) s)).vr 15 = 0x0F0E0D0C0B0A09080706050403020100 ∧
    s.clear (.recvM 2 0) [2, 0] = true ∧ s.sr 0 = 0 ∧ s.clear (.recvM 2 3) [2, 3] = true ∧ s.grants [(0x110, 16, true, false)] = true ∧
    ((s.noted [(0x110, 16, true, false)]).tile.pop 2).isSome = true ∧ (got (exec (.recvM 2 3) s)).sr 2 = 0x120 ∧
    (got (exec (.recvM 2 3) s)).loadN 0x110 16 = 0x0F0E0D0C0B0A09080706050403020100 ∧
    s.clear (.recvSel 1 7) [7] = true ∧ (s.tile.oldestOf 3 fun _ => true).isSome = true ∧ (got (exec (.recvSel 1 7) s)).sr 1 = 9 ∧
    s.clear (.rqacc 4 0 0 0) [0] = true ∧ s.clear (.rqacc 4 6 1 0) [6] = true ∧ s.sr 6 = 1 ∧ s.streaming 4 = false ∧
    (got (exec (.rqacc 4 6 1 0) s)).sr 6 = 0 := by decide +kernel

/-- The message of `received` with a payload. -/
def letter : Msg := { id := 4, cls := 3, prio := 2, urgent := false, tag := 8, src := 0x402, scope := 0, payload := (List.range 32).map (BitVec.ofNat 8) }
/-- A residency speaks; the cursor's message is read at its offset; a cursor that holds none goes to the oldest of its class. -/
theorem test_speaks_and_pops : Speaks near ∧ Reads received letter 0 ∧
    Goes { received with tile.core.cur.cursor := { cls := 3 }, tile.task.queue := [letter], tile.task.rings := [{ work := .msg 4, prio := 2, scope := 0 }] } letter := by
  refine ⟨?_, ?_, by decide, by decide, ?_, by decide, by decide, by decide⟩
  · unfold Speaks; decide
  · unfold Reads; decide
  · intro q h
    exact absurd h.1 (by simp)

/-- The destination word s8 names offset 0x100 of a view, with counter 15 advanced. -/
def remoteOps : State := withRegs near [(8, 0xF8000100), (12, 0x100), (9, 0)]
theorem test_remote : ([.rst 4 6 8 0 0, .rstDw 4 6 8 3 1, .tdec 4 6 12, .spawn 4 6 12] : List Instr).all (fun i =>
    let s := remoteOps.setS 6 0x402
    match remote s i with
    | some (rs, a, ok, r, x, o) => ok && s.clear i rs && known s (s.sr a) && mayRelease s r x && (got (exec i s)).net.map (·.body) == [o]
    | none => false) = true := by decide +kernel
theorem test_rst_v : let s := remoteOps.setS 6 0x402
    s.clear (.rstV 1 6 8 0 0) [6, 8] = true ∧ known s 0x402 = true ∧ mayRelease s 0 0 = true ∧ (s.sr 8).toNat % 2 ^ 17 % 16 = 0 ∧
    (s.sr 8).toNat / 2 ^ 17 % 1024 = 0 ∧ ((looked s 0x402).popV 1).isSome = true ∧ (got (exec (.rstV 1 6 8 0 0) s)).net.length = 1 := by decide +kernel
theorem test_remote_atomics : ([.ratom 1 6 12 0 0 9, .ratom 1 6 12 1 1 10, .ratomD 2 6 12 0 0 9] : List Instr).all (fun i =>
    let s := remoteOps.setS 6 0x402
    match remoteAtomic s i with
    | some (rs, d, a, _, ok, r, x, o) => ok && s.clear i rs && known s (s.sr a) && mayRelease s r x && (got (exec i s)).net.map (·.body) == [o] &&
        (got (exec i s)).tile.net.marks.map (·.reg) == [d]
    | none => false) = true := by decide +kernel
/-- TNEW: count 2, argument s4, its pc and class word 0x2020 in s9, the record at 0x300. ISTORE: two parcels from 0x100 to parcel 0x40. -/
theorem test_tasks_and_code : let s := withRegs near [(2, 0x300), (8, 2), (9, 0x2020), (6, 0x402), (10, 0x100), (11, 2), (12, 0x40), (14, 0x402), (15, 0)]
    s.clear (.tnew 4 2 8) [2, 8, 4, 9] = true ∧ s.sr 8 ≠ 0 ∧ (s.sr 9).toNat < 2 ^ 15 ∧ 0x20 ≤ (s.sr 9).toNat % 8192 ∧
    s.grants [(0x300, 16, true, false)] = true ∧ (got (exec (.tnew 4 2 8) s)).loadN 0x304 4 = 0x2020 ∧
    s.onSteward = false ∧ s.istoreLimit 10 12 = none ∧ s.grants [(0x100, 4, false, true)] = true ∧ s.clear (.istore 10 6 12) [6, 12, 10, 11] = true ∧
    s.sr 6 ≠ s.tile.id.name ∧ known s 0x402 = true ∧ (got (exec (.istore 10 6 12) s)).net.map (·.body) = [.istore 0x40 [0x9180, 0xB3A2]] ∧
    s.clear (.istoreM 10 14 12) [14, 12, 10, 11, 15] = true ∧ s.rectLimit 14 0x68 = none ∧ holdsSelf s 14 = false ∧ (s.rectOf 14).all (known s) = true ∧
    (got (exec (.istoreM 10 14 12) s)).net.map (·.body) = [.istore 0x40 [0x9180, 0xB3A2]] := by decide +kernel

/-- A steward's ISTORE and ISTORE.M of one parcel to the tile (0, 5) and to the row from (1, 4). -/
theorem test_steward_istore : let s := withRegs { stew with tile.view.mem := mem.tile.view.mem } [(10, 0x100), (11, 1), (12, 0x40), (6, 0x2800), (14, 0x2001), (15, 1)]
    s.onSteward = true ∧ s.istoreLimit 10 12 = none ∧ s.grants [(0x100, 2, false, true)] = true ∧ s.clear (.istore 10 6 12) [6, 12, 10, 11] = true ∧
    s.physOf (s.sr 6) = some { px := 0, py := 5 } ∧
    (got (exec (.istore 10 6 12) s)).net.map (fun p => (p.dest, p.body)) = [(some { px := 0, py := 5 }, .istore 0x40 [0x9180])] ∧
    s.clear (.istoreM 10 14 12) [14, 12, 10, 11, 15] = true ∧ s.physRect (s.sr 14) 2 1 = some [{ px := 1, py := 4 }, { px := 2, py := 4 }] ∧
    (got (exec (.istoreM 10 14 12) s)).net.map (·.dest) = [some { px := 1, py := 4 }, some { px := 2, py := 4 }] := by decide +kernel

/- Armed operations, barriers, scopes, combining, folios. -/

theorem test_armed : let s := withRegs ops [(7, 1), (8, 0x1FC)]
    let l : List (Nat × Nat × Bool × Bool) := [(0x200, 32, false, true)]
    let y : Armed := { slot := 15, cnt := 15, threshold := 1, act := s.actionAt 0x200, scope := 0, urgent := false, mark := none }
    s.clear (.trigArm 15 10 7 15) [10, 7] = true ∧ s.tile.task.armed = [] ∧ (s.sr 10).toNat % 16 = 0 ∧ s.grants l = true ∧
    ((s.noted l).actionChecks 0x200).all (·.2) = true ∧ slotDue (s.tile.task.cnt[15]).count (s.sr 7) = false ∧
    (got (exec (.trigArm 15 10 7 15) s)).tile.task.armed.map (fun x => (x.slot, x.cnt, x.threshold)) = [(15, 15, 1)] ∧
    s.clear (.trigClr 15) [] = true ∧ (got (exec (.trigClr 15) { s with tile.task.armed := [y] })).tile.task.armed = [] ∧
    s.clear (.cntset 15 7 12) [7, 12] = true ∧ (s.sr 12).toNat % 8 ≤ 4 ∧ (s.sr 12).toNat / 128 % 512 = 0 ∧
    (got (exec (.cntset 15 7 12) s)).tile.task.cnt[15] = { count := 1, mode := 0, cls := 4 } ∧
    s.clear (.cntsetV 15 7) [7] = true ∧ (got (exec (.cntsetV 15 7) s)).tile.task.cnt[15].count = 1 ∧
    s.clear (.cntrd 1 15) [] = true ∧ (got (exec (.cntrd 1 15) { s with tile.task.cnt := s.tile.task.cnt.set 15 { count := 1, mode := 4, cls := 15 } })).sr 1 = 0x7C := by
  decide +kernel

theorem test_barriers : let s := joined
    joins s (.barJoin 1 6 8) = some (1, [6, 8], .count 0x402 0x108) ∧ s.clear (.barJoin 1 0 8) [0, 8] = true ∧ s.tile.task.members[0] = none ∧
    (s.tile.memberList.all fun x => x.2.bar != .count 0 0x108) = true ∧ (got (exec (.barJoin 1 0 8) s)).tile.memberList.length = 2 ∧
    s.clear (.barLine 1 3) [] = true ∧ (got (exec (.barLine 1 3) s)).tile.memberList.length = 2 ∧
    s.clear (.barJoinX 2) [2] = true ∧ (s.sr 2).toNat % 4 = 3 ∧ (s.tile.task.members[3]).isSome = true ∧ (got (exec (.barJoinX 2) s)).tile.memberList = [] ∧
    s.clear (.barArrive 2) [2] = true ∧ s.urgent = false ∧ s.released 2 = true ∧ known s 0x402 = true ∧
    (got (exec (.barArrive 2) s)).net.map (·.body) = [.barArrive 0x108] ∧ ((got (exec (.barArrive 2) s)).tile.task.members[3]).map (·.arrived) = some true ∧
    s.clear (.barWait 2) [2] = true ∧ (got (exec (.barWait 2) s)).pcNat = 0x102 := by decide +kernel
/-- A line's entry, arrived at once and not yet released: leaving takes no message, and a second arrival waits for the release. -/
theorem test_line_entry : let m : Member := { bar := .line 3, scope := 0, arrived := true }
    let s : State := { joined with tile.task.members := joined.tile.task.members.set 3 (some m) }
    s.clear (.barJoinX 2) [2] = true ∧ s.clear (.barArrive 2) [2] = true ∧ s.released 2 = true ∧ (got (exec (.barJoinX 2) s)).net = [] ∧
    (got (exec (.barJoinX 2) s)).tile.memberList = [] ∧ ((got (exec (.barArrive 2) s)).tile.task.members[3]).map (·.pending) = some true := by decide +kernel

/-- The work runs in scope 1:0 of depth 1, whose first child is taken. -/
def inScope : State := { withRegs run [(2, 0x10000000)] with tile.core.cur.scope := 0x10000000, tile.task.scopes := [{ scope := 0x10000000, kids := 1 }] }
theorem test_scopes : let s := inScope
    s.clear (.scopeOpen 1) [] = true ∧ s.urgent = false ∧ (s.tile.task.scopes.find? (·.scope = 0x10000000)).isSome = true ∧
    scopeDepth 0x10000000 < 7 ∧ lowestClear (1 : BitVec 16) = some 1 ∧ (got (exec (.scopeOpen 1) s)).sr 1 = 0x20100000 ∧
    s.clear .scopeClose [] = true ∧ scopeDepth 0x10000000 ≠ 0 ∧ s.tile.task.retiring = none ∧ s.tile.task.cancels = [] ∧
    (got (exec .scopeClose s)).tile.core.cur.scope = 0 ∧ (got (exec .scopeClose s)).tile.task.scopes = [] ∧
    s.clear (.cancel 1 2) [2] = true ∧ scopeWellFormed 0x10000000 = true ∧ s.myCarrel = some { num := 1 } ∧
    (s.myCarrel.map (·.unrelated 0x10000000)) = some 0 ∧
    (got (exec (.cancel 1 2) s)).carrels.map (fun c => c.sweeps.map (·.missing)) = [[[{ px := 0, py := 5 }]]] := by decide +kernel

/-- s8: a valid root entry of route 9 with the local input. s11: it again, towards the east. The folio at 0x300 has one record of zeros. -/
def combs : State := withRegs { ops with tile.view.mem := [(0x300, 1)] } [(7, 15), (8, 0x400109), (9, 0), (2, 0x300), (3, 0xFFFFFF), (4, 0x300), (5, 0x200)]
theorem test_combining : let s := combs
    s.clear (.combCfg 7 8) [7, 8, 9] = true ∧ (s.sr 7).toNat = 15 ∧ (combOf (s.sr 8) 1).out.toNat < 5 ∧ (combOf (s.sr 8) 1).type ≠ 7 ∧
    (combOf (s.sr 8) 1).valid = true ∧ s.combPlaced (combOf (s.sr 8) 1) = true ∧ (s.tile.comb[15]).bufs = [] ∧ ((got (exec (.combCfg 7 8) s)).tile.comb[15]).route = 9 ∧
    (combOf 0 1).valid = false ∧
    (let t := withRegs (got (exec (.combCfg 7 8) s)) [(8, 0xFFFFFF), (9, 0x200)]
     t.clear (.combCfgRoot 1 7 8) [7, 8, 9] = true ∧ (t.tile.comb[15]).valid = true ∧ (t.tile.comb[15]).out = 0 ∧ t.sr 8 ≠ 0 ∧
     (t.sr 8).toNat < 2 ^ 24 ∧ ((got (exec (.combCfgRoot 1 7 8) t)).tile.comb[15]).rootCount = some 0xFFFFFF) := by decide +kernel
theorem test_folios : let s := combs
    let h : List (Nat × Nat × Bool × Bool) := [(0x300, 16, false, true)]
    let r : List (Nat × Nat × Bool × Bool) := [(0x310, 32, false, true)]
    s.clear (.folioLoad 2) [2] = true ∧ s.urgent = false ∧ s.tile.strm.replay = none ∧ s.grants h = true ∧ ((s.noted h).wordAt 0x300 0).toNat % 512 = 1 ∧
    (s.noted h).grants r = true ∧ folioReason 1 (((s.noted h).noted r).folioRec 0x310) (((s.noted h).noted r).wordAt 0x310 16).toNat = none ∧
    ((got (exec (.folioLoad 2) s)).tile.strm.folio.map fun x => (x.1, x.2.length)) = some (0x300, 1) ∧
    (let t := { s with tile.strm.folio := some (0x300, [s.folioRec 0x310]) }
     t.clear (.folioRun 1 8) [8, 9, 10, 11] = true ∧ t.tile.copySlot = some 0 ∧ ((got (exec (.folioRun 1 8) t)).tile.strm.replay.map (·.counts)) = some [0]) := by
  decide +kernel

/- Steward instructions: the residency at (0, 5), the unused centre (1, 4) of its nonet, the spare nonet of (3, 0). -/

/-- Registers: s2 tile (0, 5), s3 tile (1, 4), s4 tile (3, 0), s6 group 5, s8 and s9 its slot as it stands, s12 an ownership entry, s13 link 4 and
s14 detour 7 of the router of (0, 5). -/
def steward : State := withRegs { stew with rest := [{ peer with phys := { px := 0, py := 5 } }] } [(2, 0x2800), (3, 0x2001), (4, 3), (6, 5),
  (8, (stew.fld.readEntry 5).setWidth 32), (9, (stew.fld.readEntry 5 >>> 32).setWidth 32), (12, 0x801), (13, 0x1002800), (14, 0x1C02800), (15, 0x7F), (16, 1)]
theorem test_migr : let s := steward
    s.onSteward = true ∧ s.tile.net.marks = [] ∧ s.clear (.migr 1 2 3) [2, 3] = true ∧ migrates s (Phys.ofOperand (s.sr 2)) (Phys.ofOperand (s.sr 3)) = true ∧
    (s.tileAt (Phys.ofOperand (s.sr 2))).core.phase ≠ .unbound ∧ Phys.ofOperand (s.sr 2) ≠ s.tile.phys ∧
    ((got (exec (.migr 1 2 3) s)).tileAt { px := 0, py := 5 }).net.mig.map (·.dst) = some { px := 1, py := 4 } := by decide +kernel
theorem test_migr_g : let s := { steward with rest := [] }
    s.clear (.migrG 1 2 4) [2, 4] = true ∧ replaces s (Phys.ofOperand (s.sr 2)) (Phys.ofOperand (s.sr 4)) = some 0 ∧
    s.boundMembers s.tile.phys.field (slotNonet (s.fld.readEntry 0)) = [] ∧ s.groupCarrel s.tile.phys.field 0 = none ∧
    (got (exec (.migrG 1 2 4) s)).fld.queued.map (·.slots) = [[.spare 0 (1, 0)]] := by decide +kernel
theorem test_table_writes : ([.mapwrSlot 1 6 8 0, .mapwrDetour 1 14 16 0, .mapwrOwnership 1 13 12 0, .mapwrDistbound 1 6 16 0] : List Instr).all (fun i =>
    match tableWrite steward i with
    | some (_, rs, p, u) => p == 0 && steward.clear i rs && got (exec i steward) == u.after 2 && u != steward
    | none => false) = true := by decide +kernel
theorem test_table_publishes : ([.mapwrSlot 1 6 8 1, .mapwrDetour 1 14 16 1, .mapwrOwnership 1 13 12 1, .mapwrDistbound 1 6 16 1] : List Instr).all (fun i =>
    match tableWrite steward i with
    | some (d, rs, p, u) => d == 1 && p == 1 && steward.clear i rs && u.fld.queued == [] &&
        (got (exec i steward)).fld.queued.map (fun r => (r.slots, r.mark)) == [([], some (steward.tile.phys, 0))]
    | none => false) = true := by decide +kernel
theorem test_steward_reads : let s := steward
    s.clear (.maprd 10 6) [6] = true ∧ (got (exec (.maprd 10 6) s)).sr 10 = s.sr 8 ∧ (got (exec (.maprd 10 6) s)).sr 11 = s.sr 9 ∧
    s.clear (.eccrd 10 3) [3] = true ∧ s.urgent = false ∧ s.physOf (s.sr 3) = some { px := 1, py := 4 } ∧ (s.sr 3).getLsbD 31 = false := by decide +kernel
theorem test_shoot : let s := withRegs steward [(10, 0), (11, 0x7FFFFFF)]
    s.clear (.shoot 1 10 0) [10, 0, 11] = true ∧ (s.sr 11).toNat < 2 ^ 27 ∧
    (got (exec (.shoot 1 10 0) s)).wafer.shoots.map (fun h => (h.carrel, h.hi)) = [(0x7FF, 2 ^ 48)] := by decide +kernel
/-- Two pages from 0x1_2345_6789 on, and a range that the address space ends. -/
theorem test_shoot_range : let s := withRegs steward [(10, 0x23456789), (11, 1), (12, 2)]
    let e := withRegs steward [(10, 0xFFFFF000), (11, 0xFFFF), (12, 2)]
    s.clear (.shoot 1 10 12) [10, 12, 11] = true ∧ s.sr 12 ≠ 0 ∧
    (got (exec (.shoot 1 10 12) s)).wafer.shoots.map (fun h => (h.lo, h.hi)) = [(0x123456000, 0x123458000)] ∧
    (got (exec (.shoot 1 10 12) e)).wafer.shoots.map (fun h => (h.lo, h.hi)) = [(2 ^ 48 - 4096, 2 ^ 48)] := by decide +kernel
/-- Slot 8 is a control slot. -/
theorem test_almset_fixed : let s := withRegs steward [(10, 0x300008), (11, 0xFFFF)]
    s.clear (.almset 1 10 11) [10, 11] = true ∧ serviceSlot 8 = false ∧ (got (exec (.almset 1 10 11) s)).flds = s.flds ∧
    (got (exec (.almset 1 10 11) s)).sr 1 = 1 := by decide +kernel
theorem test_almset : let s := withRegs steward [(10, 0x380FFF), (11, 0xFFFF)]
    s.clear (.almset 1 10 11) [10, 11] = true ∧ (s.sr 10).toNat / 65536 % 64 < 57 ∧ serviceSlot 0xFFF = true ∧
    (got (exec (.almset 1 10 11) s)).sr 1 = 1 := by decide +kernel
theorem test_tileoff : let s := steward
    s.clear (.tileoff 1 3) [3] = true ∧ s.physOf (s.sr 3) = some { px := 1, py := 4 } ∧ s.fld.names { px := 1, py := 4 } = false ∧
    (got (exec (.tileoff 1 3) s)).fld.defects = [{ px := 1, py := 4 }] := by decide +kernel

/- Mode checks and unallocated fields. -/

theorem test_modes : (Instr.maprd 2 1).wf = true ∧ regs.onSteward = false ∧ (got (exec (.maprd 2 1) regs)).tile.stop.fcause.toNat % 256 = 2 ∧
    (got (exec (.maprd 2 1) regs)).tile.stop.finfo = BitVec.ofNat 32 (Instr.maprd 2 1).bits ∧
    (Instr.sleep 1).wf = true ∧ (urgent regs).urgent = true ∧ (got (exec (.sleep 1) (urgent regs))).tile.stop.fcause.toNat % 256 = 0x0C := by decide +kernel
theorem test_unallocated : (Instr.alloc 0 5).parcels ≠ 0 ∧ (Instr.alloc 0 5).wf = false ∧
    (got (exec (.alloc 0 5) regs)).tile.stop.fcause.toNat % 256 = 1 := by decide +kernel

/- The task unit, the urgent level, faults and cancels (R24 to R56, R335 to R366). -/

def e1 : Entry := { work := .task 0x200, prio := 1, scope := 0 }
def e2 : Entry := { work := .task 0x300, prio := 3, scope := 0, age := Config.agingClk }
/-- A task at 0x200 with pc 0x2044 and argument 7; the core is Idle. -/
def idle : State := { awake with tile.core.phase := .idle, tile.view.mem := [(0x204, 0x44), (0x205, 0x20), (0x208, 7)], tile.task.rings := [e2, e1] }
theorem test_select : let s := idle
    s.tile.task.members.toList = [none, none, none, none] ∧ e1.prio < e2.prio ∧ s.tile.select = some e1 ∧ s.selectable = true ∧ s.still = false := by decide +kernel
theorem test_dispatch_task : let s := idle
    s.tile.task.overflow = [] ∧ s.tile.view.mapCheck 0x200 16 false = .ok ∧ sought s 0x200 16 true 5 = true ∧
    s.coveredBy (s.drained.tile.recWord 0x200 12) = false ∧ (got (exec .taskDispatch s)).pcNat = 0x44 ∧ (got (exec .taskDispatch s)).sr 1 = 7 ∧
    (got (exec .taskDispatch s)).tile.task.rings = [e2] ∧
    (let c : State := { s with tile.task.cancels := [0] }
     c.coveredBy (c.drained.tile.recWord 0x200 12) = true ∧ (got (exec .taskDispatch c)).tile.core.phase = .idle) := by decide +kernel
theorem test_dispatch_message : let s : State := { received with tile.core.phase := .idle, tile.view.ist := awake.tile.view.ist }
    s.selectable = true ∧ s.still = false ∧ (s.tile.select.map (·.work)) = some (.msg 5) ∧ s.coveredBy 0 = false ∧
    (s.tile.task.queue.find? (·.id = 5)).isSome = true ∧ (got (exec .taskDispatch s)).pcNat = 0x80 ∧ (got (exec .taskDispatch s)).tile.core.cur.tag = 9 := by decide +kernel
theorem test_aging : Config.agingClk ≤ e2.age ∧ e2.prio ≠ 0 ∧ idle.tile.ringCount 2 < 256 ∧ e1.age < Config.agingClk ∧
    (got (exec .agingPromotion idle)).tile.task.rings = [e1, { e2 with prio := 2, age := 0, native := some 3 }] := by decide +kernel
/-- A word of the ready ring is uncorrectable. -/
theorem test_bad_ring : let s : State := { idle with tile.view.bad := [e1.word] }
    s.selectable = true ∧ s.still = false ∧ s.tile.select = some e1 ∧ (got (exec .taskDispatch s)).tile.stop.pend.map (fun f => (f.code, f.agent, f.addr)) = [(0x80, 5, 0)] ∧
    (got (exec .taskDispatch s)).tile.task.rings = [e2] := by decide +kernel
theorem test_boost : let s := given { joined with rest := [peer] } (pkt (.boostCount 0 0x402 0x108))
    s.arriving.isSome = true ∧ (s.tile.task.members[3]).map (·.arrived) = some false ∧ (s.tile.task.members[3]).map (·.boost) = some none ∧
    ((got (exec .boostNotice s)).tile.task.members[3]).map (·.boost) = some (some 0) := by decide +kernel

def urgentSend : Packet := { pkt (.send 9 [1, 2]) with hdr.urgent := true, hdr.prio := 0 }
def heldUrgent : Msg := { id := 7, cls := 3, prio := 0, urgent := true, tag := 9, src := 0x402, scope := 0, payload := [1, 2] }
theorem test_urgent_request : let s := given awake urgentSend
    s.arriving = some urgentSend ∧ s.turnedAway urgentSend true = none ∧ s.sendWay urgentSend 9 = .urgent ∧ s.tile.task.urgents.length < 4 ∧
    s.tile.granulesUsed + granules 2 ≤ 192 ∧ s.tile.task.armed = [] ∧ (got (exec .urgentRequest s)).tile.task.urgents.map (·.tag) = [9] := by decide +kernel
theorem test_urgent_accept : let s : State := { awake with tile.task.urgents := [heldUrgent] }
    s.acceptable = true ∧ s.still = false ∧ s.coveredBy 0 = false ∧ (s.tile.handler 3).2 = true ∧ (got (exec .urgentAccept s)).urgent = true ∧
    (got (exec .urgentAccept s)).pcNat = 0x80 ∧ ((got (exec .urgentAccept s)).tile.core.halt.map (·.pc)) = some 0x100 := by decide +kernel
/-- The class of the message was disabled when it came. -/
theorem test_urgent_dead : let s : State := { awake with tile.task.urgents := [{ heldUrgent with dead := true }] }
    s.still = false ∧ s.coveredBy 0 = false ∧ s.headGone = true ∧ (got (exec .urgentAccept s)).tile.task.urgents = [] ∧
    (got (exec .urgentAccept s)).tile.stop.pend.map (·.code) = [0x0E] := by decide +kernel
theorem test_limits : let u : State := { urgent awake with tile.core.urgentClk := Config.urgentLimit }
    let k : State := { awake with tile.core.cur.kill := some Config.haltLimit, tile.task.cancels := [0], tile.core.mask := some Config.maskLimit }
    u.urgent = true ∧ u.tile.stop.faulted = none ∧ u.workCovered = false ∧ u.myGang = none ∧ u.onSteward = false ∧
    (got (exec .urgentOverrun u)).tile.stop.fcause.toNat % 256 = 0x0D ∧
    (got (exec .maskWindowTimeout k)).tile.core.mko = true ∧ k.workCovered = true ∧ (got (exec .killCounterExpiry k)).tile.core.phase = .idle := by decide +kernel
theorem test_wait_ends : let w : State := { awake with tile.core.phase := .waiting, tile.core.wait := some { reason := 1, addr := 0x100, clk := 5 } }
    w.waitOver { reason := 1, addr := 0x100, clk := 5 } = true ∧ w.urgent = false ∧ (got (exec .waitConditionMet w)).tile.core.phase = .running ∧
    (let l : State := { w with carrels := [{ num := 1, lw := 2 }], tile.core.wait := some { reason := 1, addr := 0x100, clk := 2 * Config.watchdogUnit } }
     l.waitLimit = 2 ∧ l.workCovered = false ∧ l.myGang = none ∧ (got (exec .waitWatchdogExpiry l)).tile.stop.finfo = 0x20001) := by decide +kernel

def pending : FaultRec := { code := 0x5C, agent := 4, addr := 3, info := 4 }
theorem test_fault_taken : let s : State := { awake with tile.stop.pend := [pending] }
    s.nextPend = some pending ∧ s.tile.moving = false ∧ s.tile.stop.archived = false ∧ s.onSteward = false ∧ s.workCovered = false ∧ s.myGang = none ∧
    (got (exec .faultTaken s)).tile.stop.fpc = 0x100 ∧ (got (exec .faultTaken { s with tile.core.phase := .idle })).tile.stop.fpc = 0 := by decide +kernel
/-- A finished member of a gang that has been ended faulted. -/
theorem test_fault_of_ended : let cs := ganged.carrels.map fun c => { c with gangs := c.gangs.map fun g => { g with state := .ended 2 } }
    let s : State := { ganged with tile.stop.pend := [pending], tile.core.phase := .finished, carrels := cs }
    s.nextPend = some pending ∧ s.tile.moving = false ∧ s.onSteward = false ∧ s.tile.stop.faulted = none ∧ s.ending = true ∧
    (got (exec .faultTaken s)).tile.stop.fcause = 0x10000 ∧ (got (exec .faultTaken s)).tile.stop.faulted = none := by decide +kernel
/-- The recorded fault has seq 1, and its instruction is one parcel long; each reply comes from the gang's other member. -/
def faulted (tag : Word) : State :=
  given { ganged with tile.stop := { faulted := some .normal, fcause := 0x01000108, fpc := 0x100 }, tile.core.cur.pc := 0x100 } { pkt (.send tag []) with hdr.cls := 14 }
theorem test_fault_replies : ([0x180, 0x181, 0x182] : List Word).all (fun tag => let s := faulted tag
    s.arriving.isSome && s.isReply { pkt (.send tag []) with hdr.cls := 14 } && s.replyGood tag && !s.coveredBy 0 && s.tile.core.cur.loops == []
      && (got (exec .faultReply s)).tile.stop.faulted.isNone
      && (got (exec .faultReply s)).pcNat == (if tag = 0x181 then 0x101 else 0x100)
      && (got (exec .faultReply s)).tile.core.phase == (if tag = 0x182 then .idle else .running)) = true := by decide +kernel
theorem test_steward_event : let e : Exn := { cause := 0xC0, addr := 1, info := 2 }
    let s : State := { stew with tile.stw.exns := [e] }
    s.onSteward = true ∧ s.tile.stw.active = false ∧ s.tile.stop.off = false ∧ (got (exec .stewardException s)).tile.stw.scause = 0xC0 ∧
    (got (exec .stewardException s)).tile.stw.sepc = 0x100 := by decide +kernel
theorem test_no_instruction : let s : State := { awake with tile.core.cur.pc := 6, tile.view.ist := [(12, 0xFF), (13, 0xFF), (14, 0xFF), (15, 0xFF)] }
    s.fetch = .bad 0xFFFFFFFF ∧ s.issuing = true ∧ s.still = false ∧ (got (exec .unallocatedEncoding s)).tile.stop.fcause.toNat % 256 = 1 := by decide +kernel

/-- A cancel of scope 1:0 whose notice has still to reach the tile, which holds a covered task and a task of the root scope. -/
def cancelling : State :=
  let w : Sweep := { scope := 0x10000000, missing := [{ px := 0, py := 5 }] }
  { awake with carrels := [{ num := 1, sweeps := [w] }], tile.core.phase := .idle, inp := { word := 0x10000000, n := 1 },
               tile.task.rings := [{ work := .task 0x200, prio := 1, scope := 0x20500000 }, e1] }
theorem test_cancel_notice : let s := given cancelling (pkt (.cancelNotice 0x10000000))
    s.myCarrel = s.carrels.head? ∧ s.arriving.isSome = true ∧ s.tile.moving = false ∧ s.tile.stop.archived = false ∧ s.tile.task.drops = [] ∧ s.tile.net.heldCancels = [] ∧
    s.tile.core.busy = false ∧ s.tile.core.phase ≠ .unbound ∧ s.urgent = false ∧
    (got (exec .cancelNotice s)).tile.task.cancels = [0x10000000] ∧ (got (exec .cancelNotice s)).tile.task.rings = [e1] := by decide +kernel
theorem test_cancel_ack : let s : State := { cancelling with tile.task.drops := [(0x10000000, 1)], tile.task.cancels := [0x10000000], tile.task.rings := [] }
    s.inp.pkt = none ∧ s.tile.rid 0x10000000 = true ∧ (got (exec .cancelAck s)).tile.task.drops = [] ∧
    (got (exec .cancelAck s)).carrels.map (fun c => c.sweeps.map fun w => (w.missing, w.coming, w.total, w.reported)) = [[([], 1, 0, false)]] := by
  decide +kernel
/-- The last acknowledgement reaches the residency that has cancelled, of which one task had been removed elsewhere: its token is 3. -/
theorem test_cancel_sum : let w : Sweep := { scope := 0x10000000, missing := [], total := 1, coming := 1, root := 0x401, token := some ({ px := 0, py := 5 }, 9) }
    let s : State := given { cancelling with carrels := [{ num := 1, sweeps := [w] }], tile.net.marks := [{ id := 9, level := .normal, reg := 31, pair := false, scope := 0 }] }
      (pkt (.cancelAck 0x10000000 2))
    s.arriving.isSome = true ∧ s.tile.core.level = .normal ∧ (got (exec .cancelAck s)).sr 31 = 3 ∧
    (got (exec .cancelAck s)).carrels.map (fun c => c.sweeps.map fun w => (w.coming, w.total, w.reported)) = [[(0, 3, true)]] := by decide +kernel
/-- The sweep is reported, and gang 5 runs under its scope. -/
def reported : State :=
  let l : Launch := { stage := 1, pin := false, w := 1, h := 1, scope := 0, tag := 7, image := 0, parcels := 32, arg := 0, pw := [], reservedBits := false }
  let g : Gang := { num := 5, x := 1, y := 1, scope := 0x10000000, fresh := false, launch := l, state := .running }
  let w : Sweep := { scope := 0x10000000, missing := [], reported := true }
  { cancelling with carrels := [{ num := 1, sweeps := [w], gangs := [g] }], flds := [serving 48] }
theorem test_cancel_done : reported.inp.n = 1 ∧ reported.carrels.map reported.inService = [true] ∧
    (got (exec .cancelDoneReport reported)).carrels.map (fun c => c.gangs.map fun g => decide (g.state = .running)) = [[false]] := by decide +kernel
theorem test_retire : let r : Sweep := { scope := 0x10000000, missing := [{ px := 0, py := 5 }] }
    let s (b : Body) (r : Sweep) : State := given { cancelling with carrels := [{ num := 1, kids := 3, listed := [0x10000000], retires := [r] }], tile.task.cancels := [0x10000000] }
      { pkt b with hdr.dst := if b = .retireAck 0x10000000 then 0 else 0x401 }
    let n := s (.retireNotice 0x10000000) r
    n.arriving.isSome = true ∧ (got (exec .retireNotice n)).tile.task.cancels = [] ∧
    (got (exec .retireNotice n)).carrels.map (fun c => c.retires.map fun w => (w.missing, w.coming)) = [[([], 1)]] ∧
    (let a : State := { s (.retireAck 0x10000000) { r with missing := [], coming := 1, root := 0 } with tile.id.name := 0 }
     a.arriving.isSome = true ∧ (got (exec .retireAckComplete a)).carrels.map (fun c => c.retires.map (·.coming)) = [[0]]) ∧
    (let t : State := { s (.retireAck 0) { r with missing := [] } with net := [], flds := [serving 48], inp := { word := 0x10000000, n := 1 } }
     t.carrels.map t.inService = [true] ∧ (got (exec .retireAckComplete t)).carrels.map (fun c => (c.kids, c.listed, c.retires.length)) = [(2, [], 0)]) := by decide +kernel
/- Operations that arrive (R37, R93, R123, R299 to R312, R375). -/

theorem test_message_arrival : let p := pkt (.send 9 [1, 2])
    let s := given awake p
    s.arriving = some p ∧ s.turnedAway p true = none ∧ s.sendWay p 9 = .queue ∧ s.tile.granulesUsed + granules 2 ≤ 176 ∧ (s.tile.handler 3).2 = true ∧
    s.tile.ringCount 2 < 256 ∧ s.tile.task.armed = [] ∧ (got (exec .messageArrival s)).tile.task.queue.map (·.payload) = [[1, 2]] ∧
    (got (exec .messageArrival s)).tile.task.rings.map (·.prio) = [2] ∧
    (got (exec .messageArrival s)).net.map (·.body) = [.ack 1 0 .performed 0 none] := by decide +kernel
/-- What goes back to the sender's name leads to its tile; so does a release to the home's own. -/
theorem test_leads : let p := pkt (.send 9 [1, 2])
    (given awake p).leads { px := 0, py := 5 } (answer p (.ack 1 0 .performed 0 none)) = some ({ px := 1, py := 5 }, false) ∧
    Leads (given awake p) { p with hdr.dst := 0x401 } := by
  refine ⟨by decide +kernel, ?_⟩
  unfold Leads
  decide +kernel
/-- A slab of BK8 for the fabric binding of TA, in order. -/
def slabSend : Packet := pkt (.send 0x10000 (List.replicate (8 * BkFmt.bk8.bytes + 32) 0))
def bound' : State := given { awake with tile.tens.ta := { bind := .fabric 3 1 0 0 } } slabSend
theorem test_slab : bound'.arriving = some slabSend ∧ bound'.turnedAway slabSend true = none ∧ bound'.sendWay slabSend 0x10000 = .slab false ∧
    (got (exec .slabMessage bound')).tile.tens.ta.slabs.map (·.1) = [0] ∧ (got (exec .slabMessage bound')).tile.tens.tb.slabs.length = 0 := by decide +kernel
theorem test_rst : let p := pkt (.rst 0xFFF8 [1, 2, 3, 4, 5, 6, 7, 8] (some 2))
    let s := given { awake with tile.task.cnt := awake.tile.task.cnt.set 2 { mode := 3 } } p
    s.arriving = some p ∧ s.turnedAway p true = none ∧ s.tile.view.mem.wf = true ∧ lands s p 0xFFF8 8 true false 3 = true ∧ s.tile.task.armed = [] ∧
    (got (exec .rstArrival s)).tile.view.mem.read 0xFFFF = 8 ∧ (got (exec .rstArrival s)).tile.task.cnt[2].count = 8 := by decide +kernel
theorem test_ratom : let p := pkt (.ratom 0x100 0 false 1 5 1 0)
    let s := given awake p
    s.arriving = some p ∧ lands s p 0x100 4 true true 3 = true ∧ (got (exec .ratomArrival s)).tile.view.mem.getN 0x100 4 = 0xB3A29181 ∧
    (got (exec .ratomArrival s)).net.map (·.body) = [.ratomReply 1 false 5 0xB3A29180 .performed, .ack 1 2 .performed 0x100 none] := by decide +kernel
/-- A record with count 2: a decrement by 1 leaves it waiting, by 2 makes the task ready. -/
theorem test_tdec : let s (n : Word) := given { awake with tile.view.mem := [(0x200, 2), (0x204, 0x44), (0x205, 0x20)] } (pkt (.tdec 0x200 n))
    (s 1).arriving.isSome = true ∧ lands (s 1) (pkt (.tdec 0x200 1)) 0x200 8 true true 3 = true ∧ (s 1).tile.recWord 0x200 0 = 2 ∧ (s 1).tile.view.bad = [] ∧
    (s 2).coveredBy ((s 2).tile.recWord 0x200 12) = false ∧ (s 2).tile.ringCount (recPrio ((s 2).tile.recWord 0x200 4)) < 256 ∧
    (got (exec .tdecArrival (s 1))).tile.task.rings = [] ∧ (got (exec .tdecArrival (s 1))).tile.view.mem.read 0x200 = 1 ∧
    (got (exec .tdecArrival (s 2))).tile.task.rings = [{ work := .task 0x200, prio := 1, scope := 0 }] := by decide +kernel
theorem test_spawn : let p := pkt (.spawn 0x200 0x6044 7)
    let s := given awake p
    s.arriving = some p ∧ lands s p 0x200 16 true false 3 = true ∧ s.tile.view.bad = [] ∧ s.tile.ringCount (recPrio 0x6044) < 256 ∧
    (got (exec .spawnArrival s)).tile.view.mem.getN 0x204 8 = 0x700006044 ∧ (got (exec .spawnArrival s)).tile.task.rings.map (·.prio) = [3] := by decide +kernel
theorem test_istore : let p := pkt (.istore 0x1FFF [0xABCD])
    let s := given awake p
    s.arriving = some p ∧ s.turnedAway p false = none ∧ s.tile.view.ist.wf = true ∧ (got (exec .istoreArrival s)).tile.view.ist.parcel 0x1FFF = 0xABCD ∧
    (got (exec .istoreArrival s)).tile.view.ist.parcel 6 = 0x2080 := by decide +kernel
theorem test_ratom_reply : let m : Mark := { id := 5, level := .normal, reg := 10, pair := true, scope := 0 }
    let s := given { awake with tile.net.marks := [m] } (pkt (.ratomReply 10 true 5 0x200000001 .performed))
    s.arriving.isSome = true ∧ (got (exec .ratomReply s)).sr 10 = 1 ∧ (got (exec .ratomReply s)).sr 11 = 2 ∧ (got (exec .ratomReply s)).tile.net.marks = [] := by
  decide +kernel
theorem test_turned_away : ([(.messageArrival, .send 9 []), (.rstArrival, .rst 0x200 [1, 2, 3, 4] none), (.tdecArrival, .tdec 0x200 1),
    (.spawnArrival, .spawn 0x200 0x6044 7)] : List (Instr × Body)).all (fun x =>
    let s := given { awake with tile.core.phase := .unbound } (pkt x.2)
    s.arriving.isSome && s.turnedAway (pkt x.2) true == some .unbound && (got (exec x.1 s)).tile == s.tile && (got (exec x.1 s)).net.length == 1) = true := by
  decide +kernel

/- Copies (R93, R94, R302, R370). -/

def aCopy : Copy := { slot := 15, id := 4, kind := .get, src := 0x100, dst := 0x200, name := 0x402, length := 32, wm := none, cen := none, dcnt := none, prio := 2,
                      scope := 0, urgent := false, mark := some 9 }
def token : Mark := { id := 9, level := .normal, reg := 31, pair := false, scope := 0 }
def copies' (c : Copy) : State := { awake with tile.strm.copies := [c], tile.net.marks := [token], inp := { n := 15 } }
theorem test_get_request : let p := pkt (.getReq 0x100 16 4 0x200 0)
    (given awake p).arriving = some p ∧ (given awake p).tile.view.mapCheck 0x100 16 false = .ok ∧ (got (exec .getRequestArrival (given awake p))).tile.strm.serves = [p] ∧
    (let s : State := { awake with tile.strm.serves := [p] }
     s.tile.moving = false ∧ s.tile.stop.off = false ∧ s.tile.stop.archived = false ∧ sought s 0x100 (chunkLen 0x100 0 16) true 1 = true ∧
     (got (exec .getRequestArrival s)).net.map (·.body) =
       [.getReply 4 0 [0x80, 0x91, 0xA2, 0xB3, 0xC4, 0xD5, 0xE6, 0xF7, 0x08, 0x19, 0x2A, 0x3B, 0x4C, 0x5D, 0x6E, 0x7F]]) := by decide +kernel
theorem test_get_reply : let p := pkt (.getReply 4 16 (List.replicate 16 7))
    let s := given (copies' aCopy) p
    s.arriving = some p ∧ s.tile.view.mem.wf = true ∧ sought s 0x210 16 false 1 = true ∧ (got (exec .getReplyArrival s)).tile.view.mem.read 0x21F = 7 ∧
    (got (exec .getReplyArrival s)).tile.strm.copies.map (·.landed) = [16] := by decide +kernel
theorem test_chunk_ack : let p := pkt (.ack 0 9 .performed 0x210 (some 4))
    let s := given (copies' { aCopy with kind := .put, pend := [(16, 16, .sent)] }) p
    s.arriving = some p ∧ s.tile.core.phase ≠ .unbound ∧ (got (exec .performanceAck s)).tile.strm.copies.map (·.landed) = [16] := by decide +kernel
theorem test_copy_ends : let s := copies' { aCopy with landed := 32 }
    let f := copies' { aCopy with landed := 16, ended := some pending }
    s.tile.moving = false ∧ s.tile.task.armed = [] ∧ (got (exec .copyComplete s)).sr 31 = 32 ∧ (got (exec .copyComplete s)).tile.strm.copies = [] ∧
    f.replyInFlight 4 = false ∧ f.tile.strm.replay = none ∧ (got (exec .copyFaultEnd f)).sr 31 = 0x80000010 ∧ (got (exec .copyFaultEnd f)).tile.stop.pend = [pending] := by
  decide +kernel
theorem test_put_chunk : let p := pkt (.putChunk 4 0x200 (List.replicate 16 7) none none true none)
    let s := given awake p
    s.arriving = some p ∧ s.turnedAway p true = none ∧ lands s p 0x200 16 true false 1 = true ∧ (got (exec .putChunkArrival s)).tile.view.mem.read 0x200 = 7 := by
  decide +kernel
theorem test_acknowledgement : let s (how : AckKind) := given { awake with tile.net.acks := #v[0, 1, 0, 0] } (pkt (.ack 1 1 how 0x200 none))
    (s .performed).arriving.isSome = true ∧ (got (exec .performanceAck (s .performed))).tile.net.acks[1] = 0 ∧
    (got (exec .performanceAck (s .dropped))).tile.stop.pend = [] ∧ (got (exec .performanceAck (s .refused))).tile.stop.pend.map (fun f => (f.code, f.addr, f.info)) = [(0x5C, 0x200, 1)] := by
  decide +kernel

/- Far memory and paging (R76 to R88, R148, R302, R372 to R378). The carrel's far memory starts at 2^43, which port 4 owns. -/

def farCarrel : Carrel := { num := 1, ports := [4], extents := [(2 ^ 43, 4096, 3)] }
def port4 : EdgePort := { num := 4, tlb := [{ carrel := 1, va := 0, size := 2 ^ 24, phys := 2 ^ 43, write := true }] }
def farCopy : Copy := { aCopy with kind := .getFar, src := 0x1000, length := 16, issued := 16, pend := [(0, 16, .queued)] }
def far (c : Copy) (l : List FarReq) : State :=
  let s := copies' c
  { s with carrels := [farCarrel], wafer.ports := [{ port4 with reqs := l }], wafer.far := [(2 ^ 43 + 0x1000, 9)] }
def req : FarReq := { tile := { px := 0, py := 5 }, name := 0x401, use := .copy 4 0, len := 16, va := 0x1000, carrel := 1, write := false }
/-- What a far request of the tile holds, and the coordinate to which it goes. -/
def asked' (s : State) : List (Body × Option Phys) := s.net.map fun p => (p.body, p.way.map (·.dst))
theorem test_far_request : let s (n : Nat) : State := { far farCopy [] with inp := { n := n } }
    let w : State := { s 16 with tile.strm.farWord := some { id := 8, va := 0x1000 }, tile.strm.copies := [] }
    let e : State := { far farCopy [] with inp := { n := 17, m := 2 }, tile.strm.farReads := [{ id := 9, who := 2, va := 0x1000 }] }
    (s 15).myCarrel = some farCarrel ∧ (s 15).tile.moving = false ∧ (s 15).tile.stop.off = false ∧ (s 15).fld.paused = false ∧
    (s 15).tile.hasCredit farCopy 0 16 = true ∧ overlapsQueued w.tile.strm.copies 0x1000 4 = false ∧ asked' (got (exec .farRequest (s 15))) = [(.farReq (.copy 4 0) 0x1000 16 false [], some (edgeAgent 4))] ∧
    (got (exec .farRequest (s 15))).tile.net.acks[3] = 1 ∧ asked' (got (exec .farRequest w)) = [(.farReq (.word 8) 0x1000 4 false [], some (edgeAgent 4))] ∧
    asked' (got (exec .farRequest e)) = [(.farReq (.elem 9) 0x1000 16 false [], some (edgeAgent 4))] := by decide +kernel
/-- A PUT.FAR's chunk reads its source; the first 256 bytes of a page go out to its spill slot; a request joins the queue of its port. -/
theorem test_far_writes : let s : State := { far { farCopy with kind := .putFar, src := 0x100, dst := 0x1000 } [] with inp := { n := 15 } }
    let q : Page := { k := 2, vbase := 0x1000, pbase := 0x1000, spill := .writing, io := some { id := 7, out := true } }
    let g : State := { far farCopy [] with inp := { n := 18, m := 0x1000 }, tile.view.pages := [q] }
    let a : Packet := { pkt (.farReq (.copy 4 0) 0x1000 16 false []) with place := some (edgeAgent 4, 0), origin := { px := 0, py := 5 }, hdr.src := 0x401 }
    let p : State := { far farCopy [] with net := [a], inp := { n := 4, pkt := some a } }
    sought s 0x100 16 true 1 = true ∧ asked' (got (exec .farRequest s)) = [(.farReq (.copy 4 0) 0x1000 16 true
      [0x80, 0x91, 0xA2, 0xB3, 0xC4, 0xD5, 0xE6, 0xF7, 0x08, 0x19, 0x2A, 0x3B, 0x4C, 0x5D, 0x6E, 0x7F], some (edgeAgent 4))] ∧
    asked' (got (exec .farRequest g)) = [(.farReq (.page 7 0) (g.spillAddr farCarrel 0x1000) 256 true (List.replicate 256 0), some (edgeAgent 4))] ∧
    p.arrivingAt (edgeAgent 4) = some a ∧ ((got (exec .farRequest p)).port 4).reqs = [req] ∧ (got (exec .farRequest p)).net = [] := by decide +kernel
/-- The south side's fields in slot 3 of a frame, which carrel 1 owns at port 4, whichever of them is the port's (log entry 7). -/
def southern (f : Nat) : List Field := (List.range 8).map fun i => { fx := i, fy := 0, frame := f, slot := 3, almanac := [(4, 3, 0x8001)] }
theorem southern_slot (s : State) (f : Nat) (h : s.flds = southern f) : (s.fieldAt (edgeField 4)).slot = 3 ∧ (s.fieldAt (edgeField 4)).frame = f := by
  have e : edgeField 4 = (Config.portField 4 % 8, 0) := rfl
  have : Config.portField 4 % 8 < 8 := Nat.mod_lt _ (by decide)
  rw [e]
  generalize Config.portField 4 % 8 = j at *
  simp only [State.fieldAt, h, southern]
  rcases j with _ | _ | _ | _ | _ | _ | _ | _ | j <;> first | exact ⟨rfl, rfl⟩ | omega
theorem southern_owner (s : State) (f : Nat) (h : s.flds = southern f) : s.portOwner 4 = some 1 := by
  unfold State.portOwner
  rw [(southern_slot s f h).1]
  simp only [State.fieldAt, h]
  rfl
theorem test_edge_slot : let s : State := { far farCopy [req] with flds := southern 0, inp := { n := 4 } }
    s.portOwner 4 = some 1 ∧ (s.port 4).slot ≠ (s.fieldAt (edgeField 4)).slotCount ∧ (s.port 4).reqs.length ≤ 112 ∧ (s.port 4).used ≤ 112 ∧
    (req.carrel, req.admitted) = (1, none) := by
  refine ⟨southern_owner _ 0 rfl, ?_, by decide, by decide, rfl⟩
  unfold Field.slotCount
  rw [(southern_slot _ 0 rfl).1, (southern_slot _ 0 rfl).2]
  decide
theorem test_admission : (admitOwned 1 3 112 [req]).2.map (·.admitted) = [some 3] ∧ (admitOwned 1 3 1 [req, req]).2.map (·.admitted) = [some 3, none] := by decide
theorem test_walk : let r : FarReq := { req with admitted := some 3 }
    let s : State := { far farCopy [r] with flds := southern 1, inp := { n := 4 } }
    s.portOwner 4 = some 1 ∧ (s.port 4).reqs[0]? = some r ∧ s.carrel 1 = some farCarrel ∧ (s.translate farCarrel 0x1000 16 false).1 = .inl (2 ^ 43 + 0x1000) ∧
    (s.translate { farCarrel with extents := [] } 0x1000 16 false).1.isRight = true := by
  refine ⟨southern_owner _ 1 rfl, ?_⟩
  decide +kernel
/-- A PUT.FAR of 16 bytes at 0x1FF8 crosses into a page of another physical place. -/
theorem test_walk_crossing : let r : FarReq := { req with va := 0x1FF8, write := true, admitted := some 3 }
    let p : EdgePort := { num := 4, reqs := [r], tlb := [{ carrel := 1, va := 0x1000, size := 4096, phys := 2 ^ 43, write := true }, { carrel := 1, va := 0x2000, size := 4096, phys := 2 ^ 43 + 0x9000, write := true }] }
    let s : State := { far farCopy [r] with wafer.ports := [p], flds := southern 1, inp := { n := 4 } }
    s.portOwner 4 = some 1 ∧ (s.port 4).reqs[0]? = some r ∧ 4096 - r.va % 4096 = 8 ∧ (s.translateAt 4 farCarrel 0x1FF8 8 true).1 = .inl (2 ^ 43 + 0xFF8) ∧
    ((s.translateAt 4 farCarrel 0x1FF8 8 true).2.translateAt 4 farCarrel 0x2000 8 true).1 = .inl (2 ^ 43 + 0x9000) := by
  refine ⟨southern_owner _ 1 rfl, ?_⟩
  decide +kernel
/-- A write that was under way when the link went down is performed in part and ends with 0x5D, in the slot 16 after its admission, whoever owns that. -/
theorem test_torn_performed : let r : FarReq := { req with write := true, data := List.replicate 16 1, admitted := some (4096 + 3 - 16), phys := some (2 ^ 43 + 0x1000), torn := true }
    let s (j : Nat) : State := { far farCopy [r] with flds := southern 1, inp := { n := 4, j := j } }
    (s 0).replySlot 4 r = true ∧ (s 0).memoryAt (2 ^ 43 + 0x1000) 16 = true ∧ (s 0).wafer.far.wf = true ∧
    (s 1).tornBytes (2 ^ 43 + 0x1000) r.data = List.replicate 16 1 ∧ (s 0).tornBytes (2 ^ 43 + 0x1000) r.data = 9 :: List.replicate 15 0 := by
  intro r s
  refine ⟨?_, ?_, ?_, ?_, ?_⟩
  · unfold State.replySlot Field.slotCount
    rw [(southern_slot _ 1 rfl).1, (southern_slot _ 1 rfl).2]
    rfl
  all_goals decide +kernel
theorem test_far_performed : let r : FarReq := { req with admitted := some 3, phys := some (2 ^ 43 + 0x1000) }
    let s : State := { far farCopy [r] with flds := southern 1, inp := { n := 4 } }
    s.portOwner 4 = some 1 ∧ 3 + 16 ≤ (s.fieldAt (edgeField 4)).slotCount ∧ s.memoryAt (2 ^ 43 + 0x1000) 16 = true ∧ s.wafer.far.wf = true ∧
    (s.wafer.far.bytes (2 ^ 43 + 0x1000) 16).head? = some 9 := by
  refine ⟨southern_owner _ 1 rfl, ?_, ?_⟩
  · unfold Field.slotCount
    rw [(southern_slot _ 1 rfl).1, (southern_slot _ 1 rfl).2]
    decide
  · decide +kernel
theorem test_far_reply : let s (c : Copy) (b : Body) : State := let p : Packet := { pkt b with dest := some { px := 0, py := 5 } }
      { far c [] with net := [p], inp.pkt := some p }
    let k : Copy := { farCopy with pend := [(0, 16, .sent)] }
    let g := s k (.farReply (.copy 4 0) 16 false none (List.replicate 16 9))
    let w : State := { s k (.farReply (.word 8) 4 false none [1, 2, 3, 4]) with tile.strm.farWord := some { id := 8, va := 0x1000, sent := true } }
    let p := s { k with kind := .putFar } (.farReply (.copy 4 0) 16 true none [])
    g.arriving.isSome = true ∧ sought g 0x200 16 false 1 = true ∧ g.tile.view.mem.wf = true ∧ (got (exec .farReplyArrival g)).tile.view.mem.read 0x20F = 9 ∧
    w.arriving.isSome = true ∧ (got (exec .farReplyArrival w)).tile.strm.farWord.map (·.word) = some (some 0x04030201) ∧
    (got (exec .farReplyArrival p)).tile.strm.copies.map (·.landed) = [16] ∧
    (got (exec .farReplyArrival (s k (.farReply (.copy 4 0) 16 false (some pending) [])))).tile.strm.copies.map (fun c => c.ended.map (·.code)) = [some 0x5C] := by
  decide +kernel
theorem test_shoot_steps : let x : Shoot := { id := 1, carrel := 1, lo := 0, hi := 2 ^ 48, missing := [4], steward := { px := 0, py := 0 }, mark := none, clk := Config.shootLimit }
    let s : State := { far farCopy [req] with wafer.shoots := [x], inp := { n := 4 } }
    (s.port 4).reqs.all (fun e => !e.shot x) = true ∧ ((got (exec .shootAgentAck s)).port 4).tlb = [] ∧ (got (exec .shootAgentAck s)).wafer.shoots = [] ∧
    Config.shootLimit ≤ x.clk := by decide +kernel
theorem test_page_traffic : let q : Page := { k := 2, vbase := 0x4000, pbase := 0, resident := false, pagingIn := true, spill := .held,
                                              io := some { id := 7, out := false, sent := 4096, done := 4096, frame := some 0x14000 } }
    let s (q : Page) : State := { far farCopy [] with inp := { n := 0x4000 }, tile.view.pages := [q] }
    let o (bad : Option Word) : Page := { q with spill := .writing, pagingIn := false, resident := true, io := some { id := 7, out := true, sent := 4096, done := 4096, bad := bad } }
    pageSize 2 = 4096 ∧ (got (exec .pageInDone (s q))).tile.view.pages.map (fun p => (p.resident, p.pbase)) = [(true, 0x14000)] ∧
    (got (exec .pageInDone (s { q with io := some { id := 7, out := false, done := 4096, bad := some 0x5D } }))).tile.view.pages.map (·.failed) = [some 0x5D] ∧
    (got (exec .pageOutDone (s (o none)))).tile.view.pages.map (·.spill) = [.held] ∧
    (got (exec .pageOutDone (s (o (some 0x5D))))).tile.view.pages.map (·.spill) = [.lost] := by decide +kernel
theorem test_page_upkeep : let s : State := { awake with tile.view.pages := [{ k := 4, vbase := 0, pbase := 0, unzeroed := [7, 8], used := true }], tile.view.epochClk := Config.epochClk }
    (got (exec .lineZeroed s)).tile.view.pages.map (·.unzeroed) = [[8]] ∧ (got (exec .epochTick s)).tile.view.pages.map (fun p => (p.used, p.stamp)) = [(false, 1)] := by
  decide +kernel
def atPort (p : EdgePort) : State := { awake with wafer.ports := [p], inp := { n := 47, ok := true } }
/-- The field of a port is a free value (log entry 7), so what these steps leave is not evaluated here. -/
theorem test_edge_links : ((atPort { num := 47 }).port 47).up = true ∧ ((atPort { num := 47, forced := true }).port 47).forced = true ∧
    (atPort { num := 47 }).inp.ok = true ∧ ((atPort { num := 47, up := false }).port 47).up = false ∧ ((atPort { num := 47 }).port 47).secure = true ∧
    ((atPort { num := 47, secure := false }).port 47).secure = false ∧ ((atPort { num := 47 }).fieldAt (edgeField 47)).slot = 0 ∧
    ((atPort { num := 47 }).fieldAt (edgeField 47)).did.contains (portKey 47) = false ∧ ((atPort { num := 47 }).fieldAt (edgeField 47)).served = true := by
  exact ⟨by decide, by decide, by decide, by decide, by decide, by decide, rfl, rfl, rfl⟩
/-- A write of 128 bytes under way when the link of port 4 goes down, from the middle of a line: its second line is new, the others are old. -/
theorem test_torn_write : let r : FarReq := { req with write := true, data := List.replicate 128 1, admitted := some 3, phys := some (2 ^ 43 + 0x1020) }
    let bs := State.tornBytes { run with inp.j := 2 } (2 ^ 43 + 0x1020) r.data
    (r.tear 4).torn = true ∧ (r.tear 5).torn = false ∧ bs.take 32 = List.replicate 32 0 ∧ (bs.drop 32).take 64 = List.replicate 64 1 ∧ bs.drop 96 = List.replicate 32 0 := by
  decide +kernel

/- The stream engine and the tensor unit (R90 to R92, R111 to R116, R160, R291 to R298). -/

/-- Two elements: the row at 0x100, and one out of bounds, which gives the fill word. -/
def pattern : PatRec := { base := 0x100, space := 0, bounded := true, fill := 5, dims := [(1, 0, 1, 16)] }
def fetching (n : Nat) : State :=
  { awake with tile.strm.regs := [{ n := 3, pat := { pat := pattern, next := n, scope := 0 } }], inp := { n := 3 } }
theorem test_fetch_element : (fetching 0).still = false ∧ pattern.at 0 = some 0x100 ∧ pattern.at 1 = none ∧
    (fetching 0).tile.view.mapCheck 0x100 16 false = .ok ∧ sought (fetching 0) 0x100 16 true 1 = true ∧
    (got (exec .streamElementFetch (fetching 0))).tile.strm.regs.map (·.buf) = [[0x7F6E5D4C3B2A1908F7E6D5C4B3A29180]] ∧
    (got (exec .streamElementFetch (fetching 1))).tile.strm.regs.map (·.buf) = [[0x00000005000000050000000500000005]] := by decide +kernel
/-- An element of far memory whose bytes have come. -/
theorem test_far_element : let s : State := { fetching 0 with
      tile.strm.regs := [{ n := 3, pat := { pat := { pattern with space := 1 }, scope := 0 } }],
      tile.strm.farReads := [{ id := 9, who := 3, va := 0x100, sent := true, data := some (List.replicate 16 7) }] }
    (got (exec .streamElementFetch s)).tile.strm.regs.map (·.buf) = [[0x07070707070707070707070707070707]] ∧
    (got (exec .streamElementFetch s)).tile.strm.farReads = [] := by decide +kernel
def slab : Slab := { blocks := List.replicate 8 (0, 0) }
def commands (op : TensorOp) : State :=
  let p : Pattern := { pat := pattern, scope := 0 }
  let f : Fifo := { bind := .loc p p, data := List.replicate 16 (some 0), side := [some 0, some 0] }
  { awake with tile.tens.cmds := [{ op := op, scope := 0 }], tile.tens.ta := f, tile.tens.tb := f, tile.net.marks := [token] }
theorem test_tensor_performed : (commands (.tcfg .bk6)).tile.tens.kstep = none ∧ (commands (.tcfg .bk6)).still = false ∧
    (got (exec .tensorCommandPerform (commands (.tcfg .bk6)))).tile.tens.fmt = .bk6 ∧
    (got (exec .tensorCommandPerform (commands (.tzero 3)))).tile.tens.cmds = [] ∧
    (got (exec .tensorCommandPerform (commands (.tarm 3 1)))).tile.tens.acc[3].p = 1 ∧
    (got (exec .tensorCommandPerform (commands (.bind true .unbound)))).tile.tens.tb = {} ∧
    (got (exec .tensorCommandPerform (commands (.bind true .unbound)))).tile.tens.ta.data.length = 16 := by decide +kernel
/-- Each kind of FIFO gives its next slab: a local binding with 16 + 2 elements, a fabric binding, and none. -/
theorem test_kstep_fires : let s := commands (.tfeed 3 2)
    let t : State := { s with tile.tens.ta := { bind := .fabric 3 1 0 0, slabs := [(0, slab), (1, slab)] }, tile.tens.tb := {} }
    2 * BkFmt.bk8.ebits ≤ s.tile.tens.ta.data.length ∧ slabFrom .bk8 (List.replicate 16 (some 0)) [some 0, some 0] = slab ∧ zeroSlab.blocks.length = 8 ∧
    (got (exec .kstepFire s)).tile.tens.cmds.map (·.op) = [.tfeed 3 1] ∧ (got (exec .kstepFire s)).tile.tens.ta.data = [] ∧
    (got (exec .kstepFire s)).tile.tens.kstep = some { n := 3, a := slab, b := slab, fmt := .bk8 } ∧
    (got (exec .kstepFire (commands (.tfeed 3 1)))).tile.tens.cmds = [] ∧
    (got (exec .kstepFire t)).tile.tens.ta = { bind := .fabric 3 1 1 0, slabs := [(1, slab)] } ∧ (got (exec .kstepFire t)).tile.tens.tb = {} := by decide +kernel
/-- A drain of accumulator 3 as FP32 to 0x200, one row of 32 bytes each 32. -/
def drain : DrainDesc := { target := 0x200, fmt := 0, rm := 0, sr := false, rsen := false, csen := false, stride := 32, side := 0, rs := 0, cs := 0 }
theorem test_drain_performed : let s := commands (.tdrain 3 drain [] (some 9))
    (drainRanges drain).all (fun x => (s.tile.view.mapCheck x.1 x.2 true == .ok) && sought s x.1 x.2 (decide (x.2 < 8)) 2) = true ∧
    s.tile.view.mem.wf = true ∧ (got (exec .tdrainPerform s)).sr 31 = 256 ∧ (got (exec .tdrainPerform s)).tile.tens.cmds = [] := by decide +kernel
/-- With output 0 at 1.0 the first row of the drain begins with it, and does not overlap another. -/
theorem test_drain_rows : let s := commands (.tdrain 3 drain [] (some 9))
    (drainRows s 3 drain []).length = 8 ∧ (drainRows s 3 drain []).head? = some (0x200, List.replicate 32 0) ∧
    ((drainRows s 3 drain []).zipIdx.all fun x => x.1.1 == 0x200 + 32 * x.2 && x.1.2.length == 32) = true ∧
    (got (exec .tdrainPerform s)).tile.view.mem.bytes 0x200 32 = List.replicate 32 0 := by decide +kernel
theorem test_kstep_ends : let s : State := { commands (.tcfg .bk6) with tile.tens.kstep := some { n := 3, a := slab, b := slab, fmt := .bk8 } }
    (got (exec .kstepComplete s)).tile.tens.kstep = none ∧ (got (exec .kstepComplete s)).tile.tens.cmds.length = 1 := by decide +kernel
theorem test_folio_op_ends : let r : FolioRec := { kind := 0, far := false, farw := false, deps := 0, succ := [1] }
    let s : State := { awake with
      tile.strm.folio := some (0x300, [r, { r with deps := 1, succ := [] }]),
      tile.strm.replay := some { bases := #v[0, 0, 0, 0], counts := [0, 1], issued := [0], mark := none, scope := 0 },
      inp := { n := 0 } }
    s.still = false ∧ s.tile.comb.toList.all (fun e => e.gated.isEmpty) = true ∧
    ((got (exec .folioOpComplete s)).tile.strm.replay.map fun r => (r.completed, r.counts)) = some ([0], [0, 0]) := by decide +kernel

/- Combining and barriers (R150 to R165, R184). -/

/-- Entry 15 of route 9 takes tokens from the east, whose neighbour is (2, 1), and sends them west to (0, 1). -/
def node (e : CombEntry) (s : State) : State :=
  { s with tile.comb := s.tile.comb.set 15 { e with valid := true, route := 9, inputs := 8, carrel := 1 } }
def tok : CombTok := { route := 9, idx := 0, flags := 0, data := .lanes 0x3F800000 }
theorem test_token_arrives : let s := node { out := 1 } (given awake (pkt (.combine tok)))
    s.arriving.isSome = true ∧ s.tile.entryOf 9 = some 15 ∧ s.inputOf 0x402 = some .east ∧ (s.tile.comb[15]).inputs.getLsbD (Dir.code .east) = true ∧
    (s.tile.comb[15]).suits tok = true ∧ (got (exec .combineToken s)).tile.comb[15].bufs = [(.east, tok)] ∧ (got (exec .combineToken s)).net = [] := by
  decide +kernel
theorem test_token_discarded : let s := given awake (pkt (.combine tok))
    s.arriving.isSome = true ∧ s.tile.entryOf 9 = none ∧ s.onSteward = false ∧ (got (exec .combineToken s)).tile.router.tokens = 1 ∧
    (got (exec .combineToken s)).tile.stop.pend.map (fun f => (f.code, f.addr)) = [(0x71, 9)] := by decide +kernel
theorem test_node_folds : let s := node { out := 1, bufs := [(.east, tok)] } { awake with inp := { n := 15 } }
    s.still = false ∧ (s.tile.comb[15]).dirs = [.east] ∧ s.combNeighbour (dirOf 1) = some 0x400 ∧ (s.tile.comb[15]).type.toNat < 4 ∧ tok.idx = (s.tile.comb[15]).rootDone ∧
    (got (exec .combineToken s)).net.map (fun p => (p.hdr.dst, p.body)) = [(0x400, .combine tok)] ∧ (got (exec .combineToken s)).tile.comb[15].rootDone = 1 := by
  decide +kernel
/-- A node of two inputs adds 1.0 and 2.0. -/
theorem test_node_sums : let bufs : List (Dir × CombTok) := [(.east, tok), (.west, { tok with data := .lanes 0x40000000 })]
    let s : State := { awake with inp := { n := 15 }, tile.comb := awake.tile.comb.set 15 { valid := true, route := 9, inputs := 0xA, carrel := 1, out := 4, bufs := bufs } }
    s.still = false ∧ ((s.tile.comb[15]).heads.map fun hs => hs.map fun h => (h.2.data, h.2.idx)) = some [(.lanes 0x40000000, 0), (.lanes 0x3F800000, 0)] ∧
    (s.tile.comb[15]).out ≠ 0 ∧ (s.combNeighbour (dirOf 4)).isSome = true ∧ (s.tile.comb[15]).blkFmt = none ∧
    ((got (exec .combineToken s)).net.map fun p => p.body) = [.combine { tok with data := .lanes 0x40400000 }] := by decide +kernel
theorem test_notices : let r (e : CombEntry) (b : Body) := node e (given awake (pkt b))
    (r {} (.renorm 9 2 3)).arriving.isSome = true ∧ (got (exec .renormNotice (r {} (.renorm 9 2 3)))).tile.comb[15].grown = [(2, 3)] ∧
    (got (exec .renormNotice (r { out := 1 } (.renorm 9 2 3)))).net.map (fun p => (p.hdr.dst, p.body)) = [(0x400, .renorm 9 2 3)] ∧
    (got (exec .segmentMarker (r { markers := 2, run := 5, runNext := 6 } (.marker 9 2 7)))).tile.comb[15].run = 6 ∧
    (got (exec .segmentMarker (r { markers := 2, run := 5, runNext := 6 } (.marker 9 2 7)))).tile.comb[15].runNext = 7 := by decide +kernel
/-- A count barrier at 0x200 with 1 arrival of 2 and generation 255, whose last arrival releases the two residencies of the carrel. -/
theorem test_count_barrier : let s (b : Body) (a : Nat) := given { awake with tile.view.mem := Memory.setN [] 0x200 8 (a + 2 ^ 24 * 2 + 2 ^ 48 * 255) } (pkt b)
    (s (.barArrive 0x200) 1).arriving.isSome = true ∧ (s (.barArrive 0x200) 1).turnedAway (pkt (.barArrive 0x200)) false = none ∧
    (s (.barArrive 0x200) 1).tile.view.mapCheck 0x200 8 true = .ok ∧ sought (s (.barArrive 0x200) 1) 0x200 8 true 3 = true ∧
    (s (.barArrive 0x200) 1).tile.view.mem.wf = true ∧
    (let w := (s (.barArrive 0x200) 1).tile.view.mem.getN 0x200 8
     (barArrived w, barTarget w, barGen w) = (1, 2, 255)) ∧
    (let w := (got (exec .barrierArrival (s (.barArrive 0x200) 1))).tile.view.mem.getN 0x200 8
     (barArrived w, barTarget w, barGen w) = (0, 2, 0)) ∧
    (got (exec .barrierArrival (s (.barArrive 0x200) 1))).net.map (·.body) = [.barReply 0x401 0x200 255, .barRelease 0x401 0x200 0 none, .barRelease 0x401 0x200 0 none] ∧
    (let w := (got (exec .barrierDecrement (s (.barDec 0x200 false) 0))).tile.view.mem.getN 0x200 8
     (barArrived w, barTarget w, barGen w) = (0, 1, 255)) ∧
    (let w := (got (exec .barrierDecrement (s (.barDec 0x200 false) 1))).tile.view.mem.getN 0x200 8
     (barArrived w, barTarget w, barGen w) = (0, 1, 0)) := by decide +kernel
def waitingAt (b : BarId) : State := { awake with tile.task.members := awake.tile.task.members.set 3 (some { bar := b, scope := 0, arrived := true, g := some 255 }) }
theorem test_count_release : let s := given (waitingAt (.count 0x402 0x108)) (pkt (.barRelease 0x402 0x108 0 none))
    s.arriving.isSome = true ∧ (s.tile.task.members[3].map (·.g)) = some (some ((0 : BitVec 8) - 1)) ∧
    (got (exec .barrierReleaseNotice s)).tile.task.members[3].map (·.arrived) = some false ∧ (got (exec .barrierReleaseNotice s)).tile.core.latch = 0x40 := by
  decide +kernel
theorem test_line_barrier : let s : State := { waitingAt (.line 3) with inp := { n := 1, m := 3 } }
    Only s { num := 1 } ∧ s.lineDone { num := 1 } 3 = true ∧ (got (exec .lineRelease s)).carrels.map (fun c => c.lineWaves.length) = [1] ∧
    (let t : State := { s with carrels := [{ num := 1, lineWaves := [(3, [{ px := 0, py := 5 }])] }] }
     (got (exec .lineRelease t)).tile.task.linePhase = 8 ∧ (got (exec .lineRelease t)).tile.task.members[3].map (·.arrived) = some false) ∧
    (let t : State := { s with carrels := [{ num := 1, nw := 3, k := 2 }] }
     t.lineHigh { num := 1, nw := 3, k := 2 } 3 = true ∧ (got (exec .linePhaseReport t)).carrels.map (·.reports) = [[(3, 2)]] ∧
     (got (exec .linePhaseReport t)).net.map (fun p => (p.body, nameWafer p.hdr.dst)) = [(.lineReport 3, 1)]) := by
  refine ⟨⟨rfl, rfl⟩, ?_⟩
  decide +kernel

/- Routers, links, peer ports, fields (R67, R139 to R147, R168 to R170, R182, R190, R345 to R347, R362 to R368, R385 to R398). -/

/-- A store of 8 bytes from (1, 1) to the tile (9, 5), `i` of its two flits sent, and flit i of it bound for a tile. -/
def leaving (i left : Nat) : Packet :=
  { pkt (.rst 0x200 (List.replicate 8 1) none) with
    place := none, origin := { px := 0, py := 5 },
    way := some { id := 6, src := { px := 0, py := 5 }, dst := { px := 9, py := 5 }, vc := 0, sent := i, left := left } }
def flit (i : Nat) (q : Phys) : Flit := { msg := 6, i := i, hdr := { dst := q, vc := 0, carrel := 1, op := 1, cls := 3, prio := 2, src := 0x402 } }
def east : Phys := { px := 9, py := 5 }
def here : Phys := { px := 1, py := 5 }
def routed : Tile := { awake.tile with router.own := #v[{ carrel := 1, valid := true }, { carrel := 1, valid := true }, { carrel := 1, valid := true }, { carrel := 1, valid := true }, { carrel := 1, valid := true }] }
theorem test_flit_injected : let s : State := { awake with tile := routed, net := [leaving 0 2], inp := { pkt := some (leaving 0 2), dir := .lcl } }
    Current s ∧ s.tile.buffered .lcl (flit 0 east).hdr < 8 ∧ (flit 0 east).hdr = (leaving 0 2).header { id := 6, src := { px := 0, py := 5 }, dst := east, vc := 0, left := 2 } ∧
    s.tile.owns 0 1 = true ∧ s.tile.owns 3 1 = true ∧ s.tile.router.off = false ∧ s.tile.router.dead = false ∧ reservedHdr (flit 0 east).hdr = false ∧
    (s.tile.hop east []).map (·.1) = some 2 ∧ (got (exec .routerFlitArrival s)).tile.router.bufs = [(.lcl, flit 0 east)] ∧
    (got (exec .routerFlitArrival s)).net = [leaving 1 2] := by
  refine ⟨by intro x h; simp [awake, mem, filled, run, withRegs, routed, State.setS, State.setBank] at h, ?_⟩
  decide +kernel
/-- A message whose carrel's run on lane 2 is long enough may leave on transit. -/
theorem test_transit_admits : let w : Way := { id := 6, src := { px := 0, py := 5 }, dst := here, vc := 3, left := 2 }
    let f : Field := { fx := 0, fy := 0, slot := 3, skew := 12, almanac := [(55, 3, 0x8001), (55, 4, 0x8001)] }
    ({ run with flds := [f] } : State).admits (leaving 0 2) w 2 = true ∧ ({ run with flds := [{ f with slot := 5 }] } : State).admits (leaving 0 2) w 2 = false ∧
    transitGuard 12 = 7 ∧ ({ run with flds := [{ f with skew := 0xFFFF }] } : State).admits (leaving 0 2) w 2 = false := by
  decide +kernel
/-- The tile (1, 5), to which its west link has brought flits. -/
def passing (xs : List Flit) : State :=
  { awake with tile := { routed with phys := here, router.links := routed.router.links.set 0 { accepted := xs } }, net := [leaving 2 1], inp := { dir := .west } }
theorem test_flit_delivered : let s := passing [flit 0 east]
    let d : State := { passing [] with tile.router.bufs := [(.west, flit 1 here)], inp := { dir := .west, k := 1 } }
    s.under (flit 0 east) = true ∧ s.tile.owns 0 1 = true ∧ s.tile.owns 1 1 = true ∧ s.tile.owns 3 1 = true ∧
    (got (exec .routerFlitArrival s)).tile.router.bufs = [(.west, flit 0 east)] ∧ ((got (exec .routerFlitArrival s)).tile.router.link 0).accepted = [] ∧
    (d.tile.hop (home here) []).isNone = true ∧ d.tile.owns 0 1 = true ∧ d.holdFull (flit 1 here).hdr = false ∧ (heads d.tile.router.bufs).length = 1 ∧
    (got (exec .routerFlitArrival d)).tile.router.bufs = [] ∧
    (got (exec .routerFlitArrival d)).net.map (fun p => (p.way, p.place)) = [(none, some (east, 0))] := by decide +kernel
theorem test_flit_discarded : let s : State := { passing [flit 0 east] with tile.router.off := true, flds := [{ fx := 0, fy := 0, did := [routerKey here] }] }
    s.under (flit 0 east) = true ∧ s.fld.did.contains (routerKey s.tile.phys) = true ∧ (got (exec .routerFlitArrival s)).tile.router.stray = 1 ∧
    (got (exec .routerFlitArrival s)).tile.router.bufs = [] := by decide +kernel
/-- An output serves control first, in a transit clk the carrel of the slot, and at the end of 64 clk what has waited longest. -/
theorem test_served : let s : State := { run with flds := [{ fx := 0, fy := 0, slot := 3, almanac := [(55, 3, 0x8001)] }] }
    let at' (v : BitVec 3) (n : Nat) : Dir × Flit × List (BitVec 2) := (.lcl, { flit 0 east with hdr.vc := v, hdr.lane := 2, since := n }, [])
    s.served run.tile 0 [at' 0 0, at' 4 0] = [at' 4 0] ∧ s.served run.tile 3 [at' 0 0, at' 3 0] = [at' 3 0] ∧
    s.served run.tile 64 [at' 0 0, at' 4 1] = [at' 0 0] := by decide +kernel
/-- Link 2 of (0, 5) leads to link 0 of (1, 5): a group sent, one received with and without an error, a retry, and the link's end. -/
theorem test_links : let g (i : BitVec 5) : Group := { seq := i, flits := [none, none, none, none], bits := 0 }
    let s (k j : Nat) (l o : Link) : State := { awake with
      tile := { routed with router.links := routed.router.links.set 2 l },
      rest := [{ routed with phys := here, router.links := routed.router.links.set 0 o }], inp := { n := 2, k := k, j := j } }
    let f : State := { s 0 0 { next := 31 } {} with tile.router.bufs := [(.lcl, flit 0 east)], net := [leaving 1 2] }
    physOver { px := 0, py := 5 } 2 = some here ∧ linkBack 2 = 0 ∧
    ((got (exec .linkGroup f)).tile.router.link 2).unacked.map (fun g => (g.seq, g.flits.map Option.isSome)) = [(31, [true, false, false, false])] ∧
    ((got (exec .linkGroup f)).tile.router.link 2).next = 0 ∧
    ((got (exec .linkGroup (s 1 0 { expect := 31 } { wires := [31], unacked := [g 31] }))).tile.router.link 2).expect = 0 ∧
    (crc16 1 == crc16 0) = false ∧ ((got (exec .linkGroup (s 1 1 { expect := 31 } { wires := [31], unacked := [g 31] }))).tile.router.link 2).bad = true ∧
    ((got (exec .linkGroup (s 2 0 { unacked := [g 3] } { bad := true }))).tile.router.link 2).rounds = 1 ∧
    ((got (exec .linkDead (s 0 0 { rounds := 8 } {}))).tile.router.link 2).dead = true := by decide +kernel
theorem test_dead_router : let l : Link := { dead := true }
    let s : State := { awake with tile := { routed with router.links := #v[l, l, l, l] } }
    s.myGang = none ∧ s.tile.router.dead = false ∧ s.onSteward = false ∧ (got (exec .deadRouter s)).tile.stop.off = true ∧
    (got (exec .deadRouter s)).fld.defects = [{ px := 0, py := 5 }] := by decide +kernel

/-- Port 143 of a carrel of two wafers, and a frame of idle flits with a sequence number. -/
def peerState (k m : Nat) (p : PeerPort) : State :=
  { awake with carrels := [{ num := 1, nw := 2, peers := [(1, [143])] }], wafer.peers := [p], inp := { n := 143, k := k, m := m, ok := false } }
def frame (n : BitVec 16) : List Byte := frameBytes n 0 [0, 0, 0, 0]
/-- A store from the other wafer's (1, 1) to this one's, in that wafer's names. -/
def abroad : Packet := { pkt (.rst 0x200 [1, 2, 3, 4] none) with hdr.dst := 0x100401, hdr.src := 0x401 }
theorem test_peer_frames : let r (bs : List Byte) (p : Option Packet) : State := { peerState 0 0 { num := 143, expect := 65535 } with inp := { n := 143, bytes := bs, pkt := p, j := 1 } }
    let s := peerState 2 0 { num := 143, buf := [{ bytes := [], seq := 5, msg := abroad, flits := [], last := true }] }
    (s.peer 143).up = true ∧ frameGood (frame 65535) = true ∧ Machine.field (frame 65535) 64 2 = 65535 ∧ frameGood [] = false ∧
    ((got (exec .peerFrame (r (frame 65535) none))).peer 143).expect = 0 ∧ ((got (exec .peerFrame (r [] none))).peer 143).bad = true ∧
    ((got (exec .peerFrame (r (frame 65535) (some abroad)))).peer 143).waiting.map (fun p => (p.hdr.dst, p.hdr.src)) = [(0x401, 0x100401)] ∧
    ((got (exec .peerFrame s)).peer 143).replays = 1 ∧ ((got (exec .peerFrame { s with inp := { n := 143, k := 3, m := 5 } })).peer 143).buf = [] := by decide +kernel
/-- A message of two flits is one frame; with no path it is refused. -/
theorem test_peer_send : let p : Packet := { abroad with place := some (peerAgent 143, 0) }
    let s : State := { peerState 1 0 { num := 143 } with net := [p] }
    s.oldestAt (peerAgent 143) = some p ∧ (framesOf p).length = 1 ∧ s.carrels.map (·.noWay p.hdr.dst) = [false] ∧ (s.peer 143).used.getD (p.lch (peerWay p)) 0 ≤ Config.peerCredits ∧
    ((got (exec .peerFrame s)).peer 143).buf.map (fun f => (f.seq, f.last)) = [(0, true)] ∧
    (let u : State := { s with carrels := [{ num := 1, nw := 2, pathless := [1] }] }
     u.carrels.map (·.noWay p.hdr.dst) = [true] ∧
     (got (exec .peerFrame u)).net.map (·.body) = [.ack 2 1 .noPath 0 none]) := by decide +kernel
/-- A store that has come for a name with no tile is turned back; its issuer raises 0x51 with the name and RST's major. -/
theorem test_peer_unmapped : let s := peerState 4 2 { num := 143 }
    let p : Packet := { pkt (.rst 0x200 [1, 2, 3, 4] none) with hdr.src := 0x100401, hdr.dst := 0x900 }
    s.carrels.map (fun c => s.unmappedHere 143 c p) = [true] ∧ (s.turnBack 143 .unmapped p).net.map (fun x => (x.hdr.dst, x.body)) = [(0x100401, .ack 2 1 .unmapped 0 none)] ∧
    (ackFault { p with hdr := backHdr p } 1 .unmapped 0 none).map (fun f => (f.code, f.addr, f.info)) = some (0x51, 0x900, 0x62) := by decide +kernel
/-- Whichever field the port is nearest to (log entry 7), lane 2 there walks for carrel 1. -/
theorem test_peer_resolves : let s : State := { peerState 4 2 { num := 143, waiting := [pkt (.rst 0x200 [1, 2, 3, 4] none)] } with
      flds := (List.range 8).map fun i => { fx := 0, fy := i, slot := 3, almanac := [(51, 3, 0x8001)] } }
    (s.fieldAt (peerFieldOf 143)).walkerFree (s.inp.m % 4) 1 = true := by
  have e : peerFieldOf 143 = (0, Config.peerField 143 % 8) := rfl
  have : Config.peerField 143 % 8 < 8 := Nat.mod_lt _ (by decide)
  intro s
  rw [e]
  generalize Config.peerField 143 % 8 = j at *
  rcases j with _ | _ | _ | _ | _ | _ | _ | _ | j <;> first | rfl | omega
theorem test_peer_down : let s : State := { peerState 0 0 { num := 143, replays := 16 } with carrels := [{ num := 1, nw := 2, peers := [(1, [143, 7])] }] }
    let d : State := { peerState 1 0 { num := 143, up := false } with net := [{ abroad with place := some (peerAgent 143, 0) }] }
    (s.peer 7).up = true ∧ (7 : Nat) ≠ 143 ∧ (s.peer 143).late = [] ∧ (s.peer 143).cur = none ∧ (s.peer 143).buf = [] ∧ (d.peer 143).up = false ∧
    d.oldestAt (peerAgent 143) = some { abroad with place := some (peerAgent 143, 0) } ∧ d.carrels.map (·.noWay abroad.hdr.dst) = [false] ∧
    ((got (exec .peerPortUp (peerState 0 0 { num := 143, up := false }))).peer 143).up = true := by decide +kernel

/-- Field (1, 0), with its one listed tile at a temperature, and what the field holds. -/
def fielded (temp : BitVec 16) (fl : Field) (n : Nat) (ok : Bool) : State :=
  { tile := { phys := { px := 144, py := 5 }, id := { temp := temp }, core := { phase := .running } }, flds := [{ fl with fx := 1, fy := 0 }], inp := { n := n, ok := ok },
    wafer.power := .run }
def base : Field := { fx := 1, fy := 0 }
theorem test_thermal : (fielded 1600 base 0 true).fld.did.contains frameKey = false ∧ (fielded 1600 base 0 true).fld.served = true ∧
    (fielded 1600 base 0 true).fieldTiles (1, 0) ≠ [] ∧ ((got (exec .fieldThermalCheck (fielded 1600 base 0 true))).fieldAt (1, 0)).pll = 1000 ∧
    ((got (exec .fieldThermalCheck (fielded 1520 { base with pll := 1040 } 0 true))).fieldAt (1, 0)).pll = 1050 ∧
    ((got (exec .thermalPause (fielded 1760 base 0 true))).fieldAt (1, 0)).paused = true ∧
    ((got (exec .thermalResume (fielded 1520 { base with paused := true } 0 true))).fieldAt (1, 0)).paused = false ∧
    (fielded 0 base 0 true).pllsRun = true ∧ (got (exec .sensorSample { fielded 0 base 0 true with inp := { word := 0x1FFFF } })).tile.id.temp = 0xFFFF ∧
    ({ fielded 0 base 0 true with wafer.power := .aux } : State).pllsRun = false := by decide +kernel
theorem test_slots : let s := fielded 0 { base with time := 300 * 2 ^ 32 } 0 true
    frameOf s.fld.ns = s.fld.frame ∧ slotAt s.fld.ns ≠ s.fld.slot ∧ (got (exec .almanacSlotBoundary s)).tile.core.latch = 0x80 ∧
    (let u := fielded 0 { base with time := Config.frameNs * 2 ^ 32, almNext := [(56, 4095, 7)] } 0 true
     u.fld.frame < frameOf u.fld.ns ∧ ((got (exec .frameStart u)).fieldAt (1, 0)).almEntry 56 4095 = 7 ∧ ((got (exec .frameStart u)).fieldAt (1, 0)).frame = 1) := by decide +kernel
theorem test_errors : let s := { fielded 0 base 12287 false with tile.view.soft := [(false, 12287)] }
    let c := { fielded 0 base 0 false with tile.view.soft := [(false, 63)] }
    (got (exec .correctableError s)).tile.view.ce = 1 ∧ (got (exec .correctableError s)).tile.view.soft = [] ∧
    s.fld.slot % 16 = 0 ∧ s.fld.did.contains 1 = false ∧ s.rest = [] ∧ s.tile.view.bad = [] ∧ s.onSteward = false ∧
    (got (exec .scrub c)).tile.view.ce = 1 ∧ ((got (exec .scrub (fielded 0 { base with scrub := 14272 } 0 false))).fieldAt (1, 0)).scrub = 0 := by decide +kernel
theorem test_exchange : let s (ok : Bool) := fielded 0 { base with failedEx := 2, slot := 0x800, skew := 9 } 0 ok
    (s true).wafer.power = .run ∧ (s true).fld.did.contains 2 = false ∧ (s true).fld.served = true ∧
    ((got (exec .timeExchange (s false))).fieldAt (1, 0)).failedEx = 3 ∧ ((got (exec .timeExchange (s false))).fieldAt (1, 0)).skew = 209 := by decide +kernel
/-- The fourth exchange in a row fails. -/
theorem test_exchange_lost : let s := fielded 0 { base with failedEx := 3, slot := 0x800, skew := 9 } 0 false
    s.wafer.power = .run ∧ s.fld.did.contains 2 = false ∧ s.fld.served = true ∧ ((got (exec .timeExchange s)).fieldAt (1, 0)).aligned = false ∧
    ((got (exec .timeExchange s)).tileAt (s.stewardOf (1, 0))).stw.exns.map (fun e => (e.cause, e.addr)) = [(0xE2, (actingSteward (0, 0)).operand)] := by decide +kernel
/-- A frame in which no carrel wants a transit run begins with what ALMSET wrote, and nothing is left to write. -/
theorem test_frame_written : let u := fielded 0 { base with time := Config.frameNs * 2 ^ 32, almNext := [(56, 4095, 7)] } 0 true
    u.fld.cycled = false ∧ u.runless { u.fld with almanac := putEntry u.fld.almanac (56, 4095, 7) } = false ∧ ((got (exec .frameStart u)).fieldAt (1, 0)).almNext = [] := by decide +kernel
theorem test_heartbeat : let s (n : Nat) := fielded 0 { base with slot := 8, heartMiss := 1, heartMissMirror := 1 } n true
    (s 1).fld.did.contains 3 = false ∧ (s 1).liveSteward (1, 0) false = true ∧ (s 1).liveSteward (1, 0) true = true ∧
    ((got (exec .stewardHeartbeat (s 1))).fieldAt (1, 0)).heartMissMirror = 2 ∧ ((got (exec .stewardHeartbeat (s 1))).fieldAt (1, 0)).heartMiss = 0 := by decide +kernel
theorem test_partner_lost : let s := fielded 0 { base with heartMiss := 3 } 0 true
    s.liveSteward (1, 0) false = true ∧ s.liveSteward (1, 0) true = true ∧ ((got (exec .partnerLost s)).fieldAt (1, 0)).stewardsLost = [true] := by decide +kernel
/-- The parent's lane 3 has one entry that the field's has not: the CRCs differ by it. -/
theorem test_transit : let s := { fielded 0 { base with slot := 0x800 } 0 true with flds := [{ base with slot := 0x800 }, { fx := 0, fy := 0, almanac := [(56, 4095, 7)] }] }
    s.fld.slot = 0x800 ∧ s.fld.did.contains 5 = false ∧ s.fld.served = true ∧ copyLane s.fld (s.fieldAt (parentField (1, 0))) 3 = [(56, 4095, 7)] := by decide +kernel

/- The catalogue, migration, power, the host, carrels and gangs (R19 to R22, R34, R42 to R45, R56 to R71, R172 to R180, R192 to R198, R259, R374, R379, R381). -/

/-- `awake` with its field holding what is given. -/
def inField (fl : Field) (x : Input) : State := { awake with flds := [fl], inp := x }
/-- A field in which no group comes 16,384 generations behind is not refreshed (R61). -/
theorem refresh_same (f : Field) (h : ((List.range 2048).all fun g => f.writtenIn (f.genWord + 1) g || slotGen (f.readEntry g) != f.genWord + 1 - 16384) = true) :
    f.refresh = f := by
  have : ∀ l : List Nat, (l.all fun g => f.writtenIn (f.genWord + 1) g || slotGen (f.readEntry g) != f.genWord + 1 - 16384) = true →
      l.foldl (fun f g => if !f.writtenIn (f.genWord + 1) g && slotGen (f.readEntry g) == f.genWord + 1 - 16384 then f.stage g (f.readEntry g) else f) f = f := by
    intro l
    induction l with
    | nil => intro _; rfl
    | cons g l ih =>
      intro hl
      rw [List.all_cons, Bool.and_eq_true] at hl
      have hn : (!f.writtenIn (f.genWord + 1) g && slotGen (f.readEntry g) == f.genWord + 1 - 16384) = false := by
        have := hl.1
        cases h1 : f.writtenIn (f.genWord + 1) g <;> simp_all
      rw [List.foldl_cons, hn]
      exact ih hl.2
  exact this _ h
/-- The place of a member in a slot: position 4 in the default slot of group 0 is free (R60). -/
theorem test_catalogue : let q : PubReq := { slots := [.place 0 0 4], mark := some ({ px := 0, py := 5 }, 3) }
    let s := inField { fx := 0, fy := 0, queued := [q] } {}
    s.fld.queued = [q] ∧ s.fld.publish = none ∧ s.fld.served = true ∧ s.mustWait (0, 0) q = false ∧ s.fld.detoured = [] ∧
    ((s.fld.stageChange (.place 0 0 4)).refresh).movers = [] ∧
    slotGen (s.fld.entry 0).a ≠ s.fld.genWord + 1 ∧ slotGen (s.fld.entry 0).b ≠ s.fld.genWord + 1 ∧
    slotPos (slotSetPos (s.fld.readEntry 0) 0 4) 0 = 4 ∧ slotPos (slotSetPos (s.fld.readEntry 0) 0 4) 1 = slotPos (s.fld.readEntry 0) 1 := by
  intro q s
  rw [refresh_same (s.fld.stageChange (.place 0 0 4)) (by decide +kernel)]
  decide +kernel
theorem test_publish : let p : Publish := { gen := 1, names := [(1, 0x402)], missing := [{ px := 0, py := 5 }], marks := [({ px := 0, py := 5 }, 3)] }
    let i : Packet := { pkt (.invalidate 0 0 1 { px := 0, py := 5 }) with dest := some { px := 0, py := 5 } }
    let s (p : Publish) : State := { given near i with flds := [{ fx := 0, fy := 0, publish := some p }], tile.net.marks := [{ id := 3, level := .normal, reg := 7, pair := false, scope := 0 }] }
    (s p).tile.phys ∈ p.missing ∧ ((s p).fieldAt (0, 0)).publish = some p ∧ (s p).reached = some i ∧ (got (exec .catalogueInvalidation (s p))).tile.net.names = [] ∧
    ((got (exec .catalogueInvalidation (s p))).fld.publish.map (·.missing)) = some [] ∧ (s p).fld.served = true ∧
    (s p).tile.net.mig = none ∧ (got (exec .publishToken (s { p with missing := [] }))).tile.core.normal.sreg 7 = 1 ∧
    ((got (exec .publishStallTimeout (s { p with clk := 65536, rounds := 3 }))).fld.publish.map (·.rounds)) = some 4 ∧
    ((got (exec .publishStallTimeout (s { p with clk := 65536, rounds := 4 }))).fld.publish.map (·.stalled)) = some true ∧
    (let m : State := { s { p with missing := [], moves := [{ px := 0, py := 5 }] } with tile.net.mig := some { src := { px := 1, py := 4 }, dst := { px := 0, py := 5 }, step := .copied, mark := none, rotation := none } }
     (got (exec .publishToken m)).tile.id.gen = 1 ∧ ((got (exec .publishToken m)).tile.net.mig.map (·.step)) = some .published) := by decide +kernel
theorem test_name_walk : let s : State := { run with tile.net.walks := [0x401], inp.word := 0x401, flds := [serving 49] }
    s.myCarrel = some { num := 1 } ∧ (s.fieldAt (0, 0)).served = true ∧ (s.fieldAt (0, 0)).walkerFree 0 1 = true ∧
    s.locate { num := 1 } 1 1 = some { px := 0, py := 5 } ∧ s.tile.net.names.length < 64 ∧
    ((got (exec .nameWalkDone s)).tile.net.names.map (·.phys)) = [{ px := 0, py := 5 }] ∧
    (let u : State := { s with flds := [{ serving 49 with cat := [(0, { a := 0xFFFFFFFF000, b := 0xFFFFFFFF000 })] }] }
     u.locate { num := 1 } 1 1 = none ∧ (got (exec .nameWalkDone u)).tile.net.unmapped = [0x401]) ∧
    (let w : State := { s with tile.net.walks := [0x100401], inp.word := 0x100401 }
     nameWafer 0x100401 ≠ 0 ∧ (got (exec .nameWalkDone w)).tile.net.walks = [] ∧ (got (exec .nameWalkDone w)).tile.net.names.map (·.phys.py) = [1]) := by decide +kernel
/-- Nonet (0, 1) is of the colour whose slot is 0x900; its centre is free and its member (0, 5) hotter than that by 64/8 degrees. -/
theorem test_rotation : let s : State := { run with flds := [{ fx := 0, fy := 0, slot := 0x900 }], tile.id.temp := 64 }
    s.fld.groupOn s.tile.phys.nonet = some 0 ∧ s.fld.slot = rotationSlot s.tile.phys.nonet ∧ (s.fld.did.contains 80) = false ∧
    hottestMember s (0, 0) (0, 1) (s.fld.readEntry 0) = some s.tile ∧ (coolestFree s (0, 0) (0, 1) (s.fld.readEntry 0)).map (·.phys) = some { px := 1, py := 4 } ∧
    s.immovable s.tile = false ∧ s.tile.id.pin = false ∧ s.tile.stop.archived = false ∧ s.tile.net.fwd = none ∧
    (got (exec .shadeRotation s)).tile.net.mig = some { src := { px := 0, py := 5 }, dst := { px := 1, py := 4 }, step := .requested, mark := none, rotation := some 0x900 } := by decide +kernel

/-- The residency at (0, 5) moves to the centre of its nonet. -/
def move (st : MigStep) : Migration := { src := { px := 0, py := 5 }, dst := { px := 1, py := 4 }, step := st, mark := none, rotation := none }
def moving (st : MigStep) : State := { awake with tile.net.mig := some (move st) }
/-- The copy has come to tile (1, y). -/
def copied (y : Nat) : State :=
  { moving .frozen with net := [{ pkt (.migCopy { px := 0, py := 5 }) with dest := some { px := 1, py := 4 }, place := some ({ px := 1, py := y }, 0) }] }
theorem test_migration : (moving .requested).urgent = false ∧ (moving .requested).nextPend = none ∧ (moving .requested).tile.core.mask = none ∧
    (got (exec .migrationHalt (moving .requested))).tile.net.mig = some (move .halted) ∧ (got (exec .migrationFreezeDone (moving .halted))).tile.net.mig = some (move .frozen) ∧
    (got (exec .migrationHalt { moving .requested with tile.stop.faulted := some .normal })).tile.net.mig = none ∧
    (got (exec .migrationFreezeDone (moving .halted))).net.map (fun p => (p.body, p.dest)) = [(.migCopy { px := 0, py := 5 }, some { px := 1, py := 4 })] ∧
    (move .frozen).src.nonet = (move .frozen).dst.nonet ∧ (moving .frozen).tile.sound = true ∧ ((moving .frozen).tileAt (move .frozen).dst).net.fwd = none ∧
    ((moving .frozen).tileAt (move .frozen).dst).core.phase = .unbound ∧ (moving .frozen).fld.served = true ∧
    ((got (exec .migrationCopyLanded (copied 4))).tile.net.fwd.map (·.dst)) = some { px := 1, py := 4 } ∧ (got (exec .migrationCopyLanded (copied 3))).tile.net.fwd = none ∧
    (got (exec .migrationAbort (moving .frozen))).tile.net.mig = none ∧ (moving .published).tile.task.armed = [] ∧
    (got (exec .migrationResume (moving .published))).tile.net.mig = none := by decide +kernel
theorem test_forwarding : let w : Forward := { dst := here, published := true, markers := [0, 1, 2] }
    let p := { pkt (.rst 0x200 [1, 2, 3, 4] none) with hdr.dst := 0x402 }
    let e := { pkt (.endMarker 3) with dest := some { px := 0, py := 5 } }
    let s (p : Packet) : State := { given awake p with tile.net.fwd := some w }
    forOld p = false ∧ (s p).arrived (s p).tile.phys = [p] ∧ (got (exec .forwardedArrival (s p))).net.map (fun q => (q.fwd, q.way.map (·.dst))) = [(true, some here)] ∧
    (got (exec .endMarker (s e))).tile.net.fwd = some { w with markers := [0, 1, 2, 3] } ∧
    (let r : State := { awake with tile.net.fwd := some { w with markers := [0, 1, 2, 3] } }
     here.nonet = r.tile.phys.nonet ∧ r.arrived r.tile.phys = [] ∧ (got (exec .forwardingRetire r)).tile.net.fwd = none ∧
     (got (exec .forwardingRetire r)).net.map (·.body) = [.finalMarker]) ∧
    (let f := given { awake with tile.net.holding := true } (pkt .finalMarker)
     (f.net.all fun q => !q.fwd) = true ∧ (got (exec .finalMarker f)).tile.net.holding = false) := by decide +kernel
/-- The drain wave reaches the old tile when its neighbours have passed it, and passes a router; an edge agent that owes nothing more sends its marker. -/
theorem test_drain_wave : let w : Forward := { dst := here, published := true, agents := [4], passed := [(1, here), (1, { px := 0, py := 4 }), (1, { px := 0, py := 6 })] }
    let q : Phys := { px := 0, py := 5 }
    let s : State := { awake with tile.net.fwd := some w, inp := { n := 1, word := q.operand } }
    let o : State := { s with tile := { phys := { px := 5, py := 5 } }, rest := [s.tile] }
    let a : State := { s with inp := { n := 4, k := 1, word := q.operand } }
    Phys.ofOperand s.inp.word = q ∧ s.wavePasses q w 1 = true ∧ ((got (exec .endMarker s)).tile.net.fwd.map (·.markers)) = some [1] ∧
    o.wavePasses q w 1 = true ∧ (((got (exec .endMarker o)).tileAt q).net.fwd.map fun f => f.passed.length) = some 4 ∧
    (a.port 4).reqs = [] ∧ a.net = [] ∧ (got (exec .endMarker a)).net.map (fun p => (p.body, p.dest)) = [(.endMarker 1, some q)] := by decide +kernel

def powered (p : Power) (n : Nat) (x : Input) : State := { run with wafer := { power := p, step := n, ready := true }, inp := x }
theorem test_power : (got (exec .vauxValid (powered .off 0 {}))).wafer.power = .aux ∧ (got (exec .vauxLost (powered .aux 0 {}))).wafer.power = .off ∧
    (got (exec .pwrenAsserted (powered .aux 0 {}))).wafer.power = .boot ∧ (got (exec .powerOnStepEnd (powered .boot 2 {}))).wafer.step = 3 ∧
    (got (exec .powerOnStepEnd (powered .boot 4 {}))).wafer.step = 5 ∧ (got (exec .powerOnStepEnd (powered .boot 4 {}))).tile.view.mem = [] ∧
    (got (exec .powerOnStepEnd (powered .boot 6 {}))).wafer.step = 7 ∧
    (got (exec .powerOnStepLimit (powered .boot 3 {}))).wafer.failed = true ∧
    (got (exec .startTimeWrite (powered .boot 7 { j := 9 }))).wafer.startTime = 9 ∧ (got (exec .pwrenDeasserted (powered .run 0 {}))).wafer.power = .aux ∧
    (got (exec .resetNAsserted (powered .run 0 {}))).rest = [] ∧ (got (exec .signedConfiguration (powered .run 0 { n := 1, j := 2, ok := true }))).wafer.policy = (1, 2) ∧
    ((got (exec .signedConfiguration (powered .run 0 { n := 1, k := 1, ok := true, word := 0x10002 }))).carrels.map (·.lw)) = [2] := by decide +kernel
/-- Window 3's base is set to memory of port 4, in units of 2^30; the parent port; a report is refused before an image runs. -/
theorem test_management : let s := powered .run 0 { k := 0, m := 3, j := 2 ^ 43 + 5 }
    s.hostPort 0 = true ∧ s.downstream.contains (farOwner (2 ^ 43)) = true ∧ (got (exec .managementRegisterWrite s)).window 0 3 = { base := 2 ^ 43 } ∧
    (got (exec .managementRegisterWrite { s with inp := { k := 1, m := 3, ok := true } })).window 0 3 = { en := true } ∧
    (got (exec .managementRegisterWrite { s with inp := { k := 2, m := 9 } })).wafer.parent = some 9 ∧
    (got (exec .attestationRequest (powered .boot 5 { bytes := List.replicate 48 0 }))).wafer.reports = [[]] ∧
    (powered .run 0 {}).bootstat = 0x402 ∧ (powered .boot 7 {}).bootstat = 0x471 := by decide +kernel
/-- One of the clauses on the flash's images applies, whichever these are (log entry 7). -/
theorem test_images : (∃ b, b = 0 ∧ accepted 0 = true ∨ b = 1 ∧ accepted 0 = false ∧ accepted 1 = true) ∨ (accepted 0 = false ∧ accepted 1 = false) := by
  cases h : accepted 0
  · cases k : accepted 1
    · exact .inr ⟨rfl, rfl⟩
    · exact .inl ⟨1, .inr ⟨rfl, rfl, rfl⟩⟩
  · exact .inl ⟨0, .inl ⟨rfl, rfl⟩⟩
theorem test_aligned : let s : State := { powered .boot 7 {} with flds := allFields.map fun f => { fx := f.1, fy := f.2, skew := 0 } }
    (∀ f ∈ allFields, (s.fieldAt f).skew ≠ 0xFFFF) ∧ (got (exec .powerOnStepEnd s)).wafer.step = 8 := by decide +kernel

/-- A payload of 240 bytes that begins with those given. -/
def payload (bs : List Byte) : List Byte := bs ++ List.replicate (240 - bs.length) 0
/-- Carrel 1, whose queue holds a payload. -/
def commanded (bs : List Byte) (c : Carrel) (x : Input) : State :=
  { powered .run 0 x with carrels := [{ c with num := 1, queue := { c.queue with fwd := [payload bs] } }] }
theorem test_host_queue : let q : HostQueue := { off := 0x100000 }
    let l : List Byte := [1, 0, 0, 0, 2]
    let s : State := { powered .run 0 { m := 1, k := 0x101000, bytes := [1, 0, 0, 0, 2] } with carrels := [{ num := 1, queue := q }], wafer.edge := [(0, [(0x101040, 1), (0x101080, 1), (0x1010C0, 1)])] }
    let e := (s.edgeMem 0).writeBytes 0x101000 (l.take 64)
    s.hostPort 0 = true ∧ s.inp.bytes = l ∧ q.head = 0x101000 ∧ s.queueAt 0 0x101000 = some 1 ∧ s.forwarded 0 q < 16 ∧ q.rdidx < q.slots ∧ (∀ j, j < 4 → lineStamp e q.head j = q.lap) ∧
    kindKnown false (Machine.field (slotPayload e q.head) 0 1) = true ∧ ((got (exec .hostQueueExamine s)).carrels.map (·.queue.rdidx)) = [1] ∧
    ((got (exec .hostQueueRestart { s with inp.word := 5 })).carrels.map (·.queue.lap)) = [5] ∧
    ((got (exec .cmpidxWrite { s with inp.word := 5 })).carrels.map (·.queue.cmpidx)) = [5] := by decide +kernel
theorem test_host_window : let s : State := { powered .run 0 { k := 0x40000010, bytes := [7, 8] } with wafer.windows := [(0, 1, { en := true, base := 2 ^ 43 })] }
    (s.window 0 1).en = true ∧ s.memoryAt (2 ^ 43 + 0x10) 2 = true ∧ s.wafer.far.wf = true ∧ (s.window 0 0).en = false ∧
    (got (exec .hostWindowWrite s)).wafer.far = [(2 ^ 43 + 0x10, 7), (2 ^ 43 + 0x11, 8)] ∧
    (got (exec .hostWindowWrite s)).hdmRead 0 0x40000010 = natBytes 64 (2 ^ 128 * 0x807) ∧ s.hdmRead 0 5 = natBytes 64 0 := by decide +kernel
/-- A write of two bytes at the last line of the staging area, read again with what stood there; and a queue's control block, whose restart field reads 0. -/
theorem test_staging : let s : State := { powered .run 0 { k := 2 ^ 34 + 0xFFFFF0, bytes := [7, 8] } with carrels := [{ num := 1, queue := { off := 0x100000, rdidx := 5, cmpidx := 9 } }], wafer.edge := [(0, [(0xFFFFC0, 1)])] }
    s.queueAt 0 0xFFFFF0 = none ∧ (s.edgeMem 0).wf = true ∧ ((got (exec .hostWindowWrite s)).edgeMem 0) = [(0xFFFFC0, 1), (0xFFFFF0, 7), (0xFFFFF1, 8)] ∧
    (got (exec .hostWindowWrite s)).hdmRead 0 (2 ^ 34 + 0xFFFFC0) = natBytes 64 (1 + 2 ^ 384 * 0x807) ∧
    s.queueAt 0 0x100000 = some 1 ∧ (s.hqueue 0 1).map (·.off) = some 0x100000 ∧ s.hdmRead 0 (2 ^ 34 + 0x100000) = natBytes 64 (5 + 2 ^ 16 + 2 ^ 96 * 9) := by decide +kernel
def noticing (due : Bool) : State :=
  { powered .run 0 { m := 1 } with flds := [serving 48], carrels := [{ num := 1, msix := 7, ring := { idx := 63, waiting := [[9]], due := due } }] }
theorem test_notice_written : ((noticing false).carrels.map fun c => c.ring.room c.queue.cmpidx) = [true] ∧ (noticing false).carrels.map (noticing false).inService = [true] ∧
    (got (exec .completionNoticeWrite (noticing false))).carrels.map (·.ring) = [{ idx := 63, written := [(63, [9])], due := true }] ∧
    (got (exec .completionNoticeWrite (noticing true))).carrels.map (·.ring) = [{ idx := 64, lap := 2, stamps := [(63, 1)], waiting := [[9]] }] ∧
    (got (exec .completionNoticeWrite (noticing true))).wafer.msi = [(0, 7)] := by decide +kernel
/-- A launch of 4 × 1 members with an image of 32 parcels at 0x2000, and one with no rectangle. -/
def launch41 : List Byte := [1, 3, 0, 0, 4, 0, 1, 0, 0, 0, 0, 0, 7, 0, 0, 0, 0, 0x20, 0, 0, 0, 0, 32, 0]
theorem test_launch : let b := payload launch41
    let s (l : List Byte) : State := { commanded l { num := 1 } { n := 1 } with flds := [serving 48] }
    Machine.field b 0 1 = 1 ∧ (launchOf b).reason { num := 1 } = none ∧ (launchOf b).w = 4 ∧ (launchOf b).stage = 3 ∧ (launchOf b).image = 0x2000 ∧
    (s launch41).inService { num := 1 } = true ∧ ((got (exec .launch (s launch41))).carrels.map fun c => c.held.length) = [1] ∧
    (launchOf (payload [1])).reason { num := 1 } = some 1 ∧ ((got (exec .launch (s [1]))).carrels.map fun c => c.ring.waiting.length) = [1] := by decide +kernel
theorem test_host_message : let b := [2, 0, 0, 0, 1, 4, 0, 0, 3, 0, 0, 0, 9, 0, 0, 0, 2]
    let s := commanded b { num := 1 } { n := 1 }
    Machine.field (payload b) 0 1 = 2 ∧ hostMessageForm (payload b) = true ∧ s.boundAt { num := 1 } 0x401 = true ∧
    ((got (exec .hostMessage s)).net.map (·.body)) = [.send 9 [0, 0]] := by decide +kernel
theorem test_withdraw : let b := [3, 0, 0, 0, 7]
    let l := launchOf (payload launch41)
    let s : State := { commanded b { num := 1, held := [l] } { n := 1 } with flds := [serving 48] }
    Machine.field (payload b) 0 1 = 3 ∧ s.carrels.map s.inService = [true] ∧ l.tag = BitVec.ofNat 32 (Machine.field (payload b) 4 4) ∧ zeros (payload b) 1 4 = true ∧ zeros (payload b) 8 240 = true ∧
    ((got (exec .withdrawLaunch s)).carrels.map fun c => (c.held.length, c.ring.waiting.map fun n => n.getD 2 9)) = [(0, [1])] := by decide +kernel
theorem test_host_cancel : let b : List Byte := [4, 0, 0, 0] ++ natBytes 4 (childScope 0 3).toNat
    let s : State := { commanded b { num := 1 } { n := 1 } with flds := [{ fx := 0, fy := 0, slot := 8 }] }
    let x := BitVec.ofNat 32 (Machine.field (payload b) 4 4)
    Machine.field (payload b) 0 1 = 4 ∧ scopeDepth x ≠ 0 ∧ scopeWellFormed x = true ∧ zeros (payload b) 1 4 = true ∧ zeros (payload b) 8 240 = true ∧
    ({ num := 1 } : Carrel).unrelated x < 8 ∧ s.bound 1 = [{ px := 0, py := 5 }] ∧ ((got (exec .hostCancel s)).carrels.map (·.listed)) = [[x]] := by decide +kernel

/-- A management request of the port 0 queue. -/
def asked (bs : List Byte) (cs : List Carrel) (x : Input) : State :=
  { powered .run 0 x with carrels := cs, wafer.mqueues := [(0, { fwd := [payload bs] })] }
theorem test_carrel_requests : ((asked [0x20] [] {}).request 0 0x20).isSome = true ∧ ((asked [0x20] [] {}).took 0).checkRecord [] 0x20000 = .inl 1 ∧
    ((asked [0x21, 0, 0, 0, 1] [{ num := 1 }] {}).request 0 0x21).map (Machine.field · 4 4) = some 1 ∧
    ((got (exec .destroyCarrel (asked [0x21, 0, 0, 0, 1] [{ num := 1 }] {}))).carrels.map (·.state)) = [.destroying 0] ∧
    ((got (exec .archiveRequest (asked [0x22, 0, 0, 0, 1, 0, 1] [{ num := 1 }] {}))).carrels.map (·.state)) = [.archiving true none 0] ∧
    ((asked [0x23] [] {}).request 0 0x23).isSome = true ∧ ((asked [0x23] [] {}).took 0).checkRecord [] 0x20000 = .inl 1 := by decide +kernel
/-- A carrel of two wafers becomes Active; one that is being destroyed goes; one with no residency is ready to be archived; a request not in form is refused. -/
theorem test_carrel_steps : let s (st : CarrelState) (x : Input) := asked [0x20, 1] [{ num := 2, nw := 2, state := st }] x
    ((got (exec .createCarrel (s (.creating 0) { ok := true, m := 2 }))).carrels.map (·.state)) = [.active] ∧
    ((got (exec .createCarrel (s (.creating 0) { ok := true, m := 2 }))).mring 0).waiting.length = 1 ∧
    (got (exec .destroyCarrel (s (.destroying 0) {}))).carrels = [] ∧ (s .active {}).archiveQuiet { num := 2, nw := 2, state := .archiving true none 0 } = true ∧
    requestForm (payload [0x20, 1]) = false ∧ requestForm (payload [0x20]) = true ∧ ((got (exec .createCarrel (s .active {}))).mring 0).waiting.length = 1 := by decide +kernel
theorem test_gang_done : let l := launchOf (payload launch41)
    let g : Gang := { num := 5, x := 0, y := 0, scope := childScope 0 1, fresh := false, launch := { l with w := 1 }, state := .running, count := 1 }
    let c : Carrel := { num := 1, gangs := [g] }
    let s : State := { run with tile.id.gang := 5, carrels := [c], inp := { n := 1, m := 5 }, flds := [serving 48] }
    (s.fieldAt c.home).served = true ∧ s.inService c = true ∧ c.gang s.inp.m = some g ∧ (got (exec .gangRetire s)).tile.core.phase = .unbound ∧ (s.members c g).map (·.2) = [{ px := 0, py := 3 }] ∧
    ((got (exec .gangRetire s)).carrels.map fun k => (k.gangs.length, k.ring.waiting.length)) = [(0, 1)] := by decide +kernel
theorem test_gang_place : let l := launchOf (payload launch41)
    let c : Carrel := { num := 1, held := [l] }
    let s : State := { run with carrels := [c], inp := { n := 1, m := 0 } }
    s.place c l.w l.h = some (0, 0, 0) ∧ c.freeGang = some 0 ∧ c.launchScope l = some (childScope 0 0) ∧
    ((got (exec .gangPlace s)).carrels.map fun k => k.gangs.map (·.state)) = [[.loading]] := by decide +kernel
/-- With a gang of 4 × 1 at the origin the first free rectangle is the one beside it. -/
theorem test_place_first : let l := launchOf (payload launch41)
    let g : Gang := { num := 0, x := 0, y := 0, scope := childScope 0 0, fresh := true, launch := l }
    let c : Carrel := { num := 1, held := [l], gangs := [g] }
    let s : State := { run with carrels := [c] }
    s.place c l.w l.h = some (0, 4, 0) ∧ s.freeTile c 3 0 = false ∧ s.freeTile c 4 0 = true ∧ c.part 0 = (c.w, c.h) := by decide +kernel
theorem test_control_and_start : let u := { pkt (.control 0x401 5 2 3 [] true) with hdr.scope := 0x10000000 }
    let p := { pkt (.start 5 77) with hdr.cls := 15 }
    let s : State := { given awake p with tile.core.phase := .loading }
    (given awake u).arriving = some u ∧ ((got (exec .stewardControlWrite (given awake u))).tile.id.rank) = 2 ∧ s.arriving = some p ∧ s.loadDone p = true ∧
    s.coveredBy p.hdr.scope = false ∧ (s.tile.handler 15).2 = true ∧ (got (exec .startMessage s)).tile.core.normal.sreg 1 = 77 := by decide +kernel
theorem test_archive : let s : State := { withRegs stew [(2, 0x10001)] with carrels := [{ num := 1 }] }
    s.clear (.archive 5 2 3) [2, 3] = true ∧ s.onSteward = true ∧ s.tile.phys = actingSteward s.tile.phys.field ∧ (s.sr 2).toNat < 2 ^ 17 ∧
    ({ num := 1 } : Carrel).home = s.tile.phys.field ∧ ((got (exec (.archive 5 2 3) s)).carrels.map (·.queue.status)) = [2] := by decide +kernel

/-- Carrel 1 with the far pages of edge port 4 mapped, whose first page holds an image of the launch. -/
theorem test_gang_load : let l := launchOf (payload launch41)
    let g : Gang := { num := 5, x := 0, y := 0, scope := childScope 0 1, fresh := false, launch := { l with w := 1 }, state := .loading, count := 0 }
    let c : Carrel := { num := 1, gangs := [g], ports := [4], extents := [(2 ^ 43, 2 ^ 20, 3)] }
    let s : State := { run with carrels := [c], inp := { n := 1, m := 5 }, wafer.far := [(2 ^ 43 + 0x2002, 9)],
                                wafer.ports := [{ num := 4, tlb := [{ carrel := 1, va := 0, size := 2 ^ 24, phys := 2 ^ 43, write := true }] }] }
    c.gang 5 = some g ∧ (s.readParts c (pageParts g.launch.image (2 * g.launch.parcels))).1 = some ([0, 0, 9] ++ List.replicate 61 0) ∧
    (s.readParts c (pageParts g.launch.image (2 * g.launch.parcels))).2.carrels = [c] ∧
    ((got (exec .gangLoad s)).net.map (·.body)) = [.istore 0 (0 :: 9 :: List.replicate 30 0), .control 0 5 0 3 (g.launch.pw.map fun y => (BitVec.ofNat 2 y.1, y.2.1 / 16 * 16, y.2.2)) false, .start 5 g.launch.arg] ∧ ((got (exec .gangLoad s)).carrels.map fun k => k.gangs.map (·.state)) = [[.running]] := by decide +kernel

/-- A creation record for the rectangle of 32 × 16 at the origin, with one extent, entry port 1, and this wafer's ID (log entry 7). -/
def record : Memory := [(0x20000, 1), (0x2000C, 0x20), (0x2000D, 0x80), (0x20011, 4), (0x20038, 1), (0x20040, 1), (0x2007A, 1), (0x20171, 0x10),
  (0x21000, Config.waferId.setWidth 8), (0x21001, (Config.waferId >>> 8).setWidth 8)]
def created (k : Nat) (cs : List Carrel) : State :=
  { powered .run 0 {} with carrels := cs, wafer.mqueues := [(0, { fwd := [payload [BitVec.ofNat 8 k]] })], wafer.edge := [(0, record)] }
theorem test_record : (recordCarrel record 0x20000).wlist = [Config.waferId.toNat] := by
  have h : (recordCarrel record 0x20000).wlist = [((Config.waferId.setWidth 8 : BitVec 8)).toNat + 256 * (((Config.waferId >>> 8).setWidth 8 : BitVec 8)).toNat] := rfl
  rw [h]
  generalize Config.waferId = w
  have := w.isLt
  simp [BitVec.toNat_setWidth, BitVec.toNat_ushiftRight, Nat.shiftRight_eq_div_pow]
  omega
theorem test_record_checks (k : Nat) (cs : List Carrel) (h : (k = 0x20 ∧ cs = []) ∨ (k = 0x23 ∧ cs = [{ num := 2048, was := 1, state := .archived }])) :
    ((created k cs).took 0).checkRecord ((created k cs).edgeMem 0) 0x20000 = .inr (0, 0x100000) := by
  have hl : waferListOk (recordCarrel record 0x20000) = true := by
    have hk : (recordCarrel record 0x20000).k = 0 := by decide +kernel
    simp [waferListOk, test_record, hk]
  have e : (created k cs).edgeMem 0 = record := rfl
  rw [e]
  unfold State.checkRecord
  simp only [hl]
  rcases h with ⟨rfl, rfl⟩ | ⟨rfl, rfl⟩ <;> decide +kernel
theorem test_created : (∃ b, (created 0x20 []).request 0 0x20 = some b ∧ Machine.field b 4 4 = 0) ∧
    ((created 0x20 []).took 0).checkRecord ((created 0x20 []).edgeMem 0) 0x20000 = .inr (0, 0x100000) :=
  ⟨⟨payload [0x20], by decide +kernel, by decide +kernel⟩, test_record_checks _ _ (.inl ⟨rfl, rfl⟩)⟩
theorem test_restored : let s := created 0x23 [{ num := 2048, was := 1, state := .archived }]
    (∃ b, s.request 0 0x23 = some b ∧ Machine.field b 4 4 = 0) ∧ ∃ k u, (s.took 0).restore 0 0x20000 = .inr (k, u) := by
  refine ⟨⟨payload [0x23], by decide +kernel, by decide +kernel⟩, ?_⟩
  unfold State.restore
  have h := test_record_checks 0x23 _ (.inr ⟨rfl, rfl⟩)
  have e : ((created 0x23 [{ num := 2048, was := 1, state := .archived }]).took 0).edgeMem 0 =
    (created 0x23 [{ num := 2048, was := 1, state := .archived }]).edgeMem 0 := rfl
  have a : ((created 0x23 [{ num := 2048, was := 1, state := .archived }]).took 0).archivedAs (recordCarrel record 0x20000) =
    some { num := 2048, was := 1, state := .archived } := by decide +kernel
  simp only [e, h]
  have e' : (created 0x23 [{ num := 2048, was := 1, state := .archived }]).edgeMem 0 = record := rfl
  rw [e', a]
  exact ⟨_, _, rfl⟩

/- The whole machine: decoding, a step, reset, frames, the canonical form. -/

theorem test_round_trip : (Instr.fshl 5 6 7 8).parcels ≠ 0 ∧ (Instr.fshl 5 6 7 8).wf = true ∧ encode (.fshl 5 6 7 8) = [0xC507, 0x041C] ∧
    decode [0xC507, 0x041C, 9] = some (.fshl 5 6 7 8, [9]) := by decide
/-- fshl s5 = the high word of s6:s7 shifted left by s8[4:0], fetched right after reset and at the pc of a residency. -/
theorem test_first_step : let s := withRegs (State.reset.withFetchWord 32 0x041CC507) [(6, 0x80000001), (7, 0xC0000000), (8, 1)]
    (got (step s)).sr 5 = 3 ∧ (got (step s)).pcNat = s.pcNat + 2 := by decide +kernel
def coded : State := (withRegs (run.withFetchWord 32 0x041CC507) [(6, 1), (7, 0x80000000), (8, 4)])
theorem test_fetches : coded.sched = [] ∧ Fetches coded ∧ coded.tile.view.badIst = [] ∧ coded.pcNat = 0x100 ∧
    decode [coded.tile.view.ist.parcel coded.pcNat, coded.tile.view.ist.parcel (coded.pcNat + 1)] = some (.fshl 5 6 7 8, []) ∧
    (got (step coded)).sr 5 = 24 := by unfold Fetches; decide +kernel
theorem test_scheduled : let s : State := { coded with sched := [.issue { px := 0, py := 5 } 0] }
    let u := ({ s with sched := [] } : State).focus { px := 0, py := 5 }
    Fetches u ∧ (got (step s)).sr 5 = 24 ∧ (Instr.vauxLost).parcels = 0 ∧
    (got (step { coded with sched := [.event { px := 0, py := 5 } .vauxLost {}], wafer.power := .aux })).wafer.power = .off := by unfold Fetches; decide +kernel
theorem test_frames : mem.tile.view.mem.wf = true ∧ (scalar mem (.add 7 2 3)).isSome = true ∧ mem.clear (.add 7 2 3) [2, 3] = true ∧
    (got (exec (.add 7 2 3) mem)).sr 2 = 0x100 ∧ (load (.ldd 6 2 8)).isSome = true ∧ mem.clear (.ldd 6 2 8) [2] = true ∧
    (mem.sr 2 + 8).toNat % 8 = 0 ∧ mem.grants [((mem.sr 2 + 8).toNat, 8, false, true)] = true ∧ (got (exec (.ldd 6 2 8) mem)).sr 7 = 0x7F6E5D4C ∧
    (store mem (.stw 3 2 4)).isSome = true ∧ mem.clear (.stw 3 2 4) [2, 3] = true ∧ mem.grants [((mem.sr 2 + 4).toNat, 4, true, false)] = true ∧
    (got (exec (.stw 3 2 4) mem)).localByte 0x108 = mem.localByte 0x108 ∧ (vector vecs (.vaddF 5 1 2 0 0)).isSome = true ∧
    vecs.clear (.vaddF 5 1 2 0 0) [] = true ∧ vecs.streaming 5 = false ∧ vecs.tile.core.trapen = 0 ∧ (got (exec (.vaddF 5 1 2 0 0) vecs)).vr 1 = vecs.vr 1 := by decide +kernel
theorem test_canonical : let s : State := { mem with tile.view.ist := (run.withFetchWord 32 0x041CC507).tile.view.ist }
    s.memoriesCanonical = true ∧ (got (step s)).memoriesCanonical = true ∧ (got (step s)).pcNat = 0x102 := by decide +kernel
theorem test_reset : State.reset.memoriesCanonical = true ∧ State.reset.wafer.power = .aux ∧ State.reset.ctl 0x1A = 0xFFFF := by decide +kernel

/-- The acting steward of field (0, 0) in an exception, and the mirror of its field, stopped. -/
def excepted : State := { stew with tile.stw.active := true }
theorem test_double_fault : excepted.issues (.trap 5) [] = true ∧ excepted.onSteward = true ∧ (got (exec (.trap 5) excepted)).tile.stop.off = true ∧
    (got (exec (.trap 5) excepted)).tile.stw = excepted.tile.stw ∧ (got (exec (.trap 5) excepted)).bank = excepted.bank ∧
    (got (step (got (exec (.trap 5) excepted)))).pcNat = excepted.pcNat ∧
    (let s : State := { stew with rest := [{ phys := { px := 143, py := 131 }, stop := { off := true } }] }
     (s.tileAt (mirrorSteward (0, 0))).stop.off = true ∧ true ∉ s.fld.stewardsLost ∧ s.liveSteward (0, 0) false = true ∧
     (got (exec .partnerLost s)).fld.stewardsLost = [true]) ∧
    (let s : State := { excepted with tile.stop.off := true, rest := [{ phys := { px := 143, py := 131 } }] }
     (s.tileAt (actingSteward (0, 0))).stop.off = true ∧ false ∉ s.fld.stewardsLost ∧ s.liveSteward (0, 0) true = true ∧
     (got (exec .partnerLost s)).fld.stewardsLost = [false]) ∧
    (excepted.tile.stewardEvent { cause := 0xC1, addr := 0, info := 0 }).stw.exns.length = 1 := by decide +kernel
theorem test_mode_checks : (Instr.archive 5 2 3).wf = true ∧ run.onSteward = false ∧ (Instr.mfc 5 0x60).wf = true ∧ ctlListed 0x60 = true ∧ ctlSteward 0x60 = true ∧
    ctlListed 0x0E = false ∧ (got (exec (.mfc 5 0x0E) run)).tile.stop.fcause.toNat % 256 = 0x03 ∧ readOnly 0x0B = true ∧ run.clear (.mtc 2 0x0B) [2] = true ∧
    (got (exec (.mtc 2 0x0B) regs)).tile.core.cur.scope = regs.tile.core.cur.scope ∧ readOnly 0x61 = true ∧ stew.clear (.mtc 2 0x61) [2] = true ∧ stew.onSteward = true ∧
    (urgent run).urgent = true ∧ (Instr.rqacc 1 2 0 0).wf = true ∧ (got (exec (.rqacc 1 2 0 0) (urgent run))).tile.stop.fcause.toNat % 256 = 0x0C ∧
    (let s : State := { urgent run with tile.view.pw := #v[{ kind := 1 }, {}, {}, {}, {}, {}, {}, {}] }
     s.tile.view.pw[0].kind = 1 ∧ (Instr.ldp 3 4 5 0).wf = true ∧ (got (exec (.ldp 3 4 5 0) s)).tile.stop.fcause.toNat % 256 = 0x0C) := by decide +kernel
theorem test_queue_faults : let s (st : BitVec 2) : State := { powered .run 0 { m := 1, j := 1, word := 5 } with carrels := [{ num := 1, queue := { off := 0x100000, status := st } }] }
    (s 0).hostPort 0 = true ∧ (s 0).hqueue 0 1 = some { off := 0x100000 } ∧ ((5 : Word).setWidth 16 : BitVec 16) ≠ 0 ∧
    (s 2).hqueue 0 1 = some { off := 0x100000, status := 2 } ∧ ((got (exec .hostQueueRestart (s 2))).carrels.map (·.queue.lap)) = [1] ∧
    ((got (exec .hostQueueRestart (s 3))).carrels.map (·.queue.lap)) = [5] := by decide +kernel

end Sys2Proof.Tests
end

section
/-!
What the way of a message depends on: two states that agree in it put the same message on the same way.
-/

namespace Sys2Proof.Machine

/-- What a tile contributes to the way of a message (R63, R140, R387). -/
structure Berth where
  phys : Phys
  id : Ident
  phase : Phase
  router : Router
  names : List NameEntry
  xr : Bool

def Tile.berth (t : Tile) : Berth := ⟨t.phys, t.id, t.core.phase, t.router, t.net.names, t.net.xr⟩

/-- What a carrel contributes to the way of a message and to the class of its acknowledgement (R60, R123, R182). -/
def Carrel.site (c : Carrel) : Nat × Nat × List (Nat × List Nat) × Nat × List Gang := (c.ox, c.oy, c.peers, c.k, c.gangs)

/-- Two states from which messages go the same ways, and in which the same messages are in flight. -/
structure State.RoutesAs (t s : State) : Prop where
  berth : t.tile.berth = s.tile.berth
  rest : t.rest = s.rest
  flds : t.flds = s.flds
  site : ∀ n, (t.carrel n).map Carrel.site = (s.carrel n).map Carrel.site
  net : t.net = s.net
  serial : t.serial = s.serial

theorem Tile.berth_iff (u t : Tile) : u.berth = t.berth ↔ u.phys = t.phys ∧ u.id = t.id ∧ u.core.phase = t.core.phase ∧ u.router = t.router ∧
    u.net.names = t.net.names ∧ u.net.xr = t.net.xr := by
  simp [Tile.berth]

namespace State.RoutesAs

variable {s t : State}

/-- A change of the tile in focus that leaves its berth. -/
theorem of_tile (s : State) {u : Tile} (h : u.berth = s.tile.berth) : State.RoutesAs { s with tile := u } s :=
  ⟨h, rfl, rfl, fun _ => rfl, rfl, rfl⟩

theorem trans {r : State} (h : t.RoutesAs s) (g : s.RoutesAs r) : t.RoutesAs r :=
  ⟨h.berth.trans g.berth, h.rest.trans g.rest, h.flds.trans g.flds, fun n => (h.site n).trans (g.site n), h.net.trans g.net, h.serial.trans g.serial⟩

theorem tileAt (h : t.RoutesAs s) (q : Phys) : (t.tileAt q).berth = (s.tileAt q).berth := by
  have hp := ((Tile.berth_iff _ _).1 h.berth).1
  unfold State.tileAt
  rw [hp, h.rest]
  split
  · exact h.berth
  · rfl

theorem fieldAt (h : t.RoutesAs s) (f : Nat × Nat) : t.fieldAt f = s.fieldAt f := by
  unfold State.fieldAt
  rw [h.flds]

theorem stewardOf (h : t.RoutesAs s) (f : Nat × Nat) : t.stewardOf f = s.stewardOf f := by
  unfold State.stewardOf
  rw [h.fieldAt]

/-- Either state lists no carrel of a number, or both list one of the same site. -/
theorem carrel (h : t.RoutesAs s) (n : Nat) :
    (t.carrel n = none ∧ s.carrel n = none) ∨ ∃ c d, t.carrel n = some c ∧ s.carrel n = some d ∧ c.site = d.site := by
  have hs := h.site n
  cases hc : t.carrel n with
  | none => simp [hc] at hs; exact .inl ⟨rfl, hs⟩
  | some c =>
    cases hd : s.carrel n with
    | none => simp [hc, hd] at hs
    | some d => simp [hc, hd] at hs; exact .inr ⟨c, d, rfl, rfl, hs⟩

theorem onSteward (h : t.RoutesAs s) : t.onSteward = s.onSteward := by
  unfold State.onSteward
  rw [((Tile.berth_iff _ _).1 h.berth).1]

theorem slotOf (h : t.RoutesAs s) {c d : Carrel} (hc : c.site = d.site) (x y : Nat) : t.slotOf c x y = s.slotOf d x y := by
  simp only [Carrel.site, Prod.mk.injEq] at hc
  obtain ⟨hx, hy, -⟩ := hc
  simp only [State.slotOf, Carrel.place, hx, hy, h.fieldAt]

theorem locate (h : t.RoutesAs s) {c d : Carrel} (hc : c.site = d.site) (x y : Nat) : t.locate c x y = s.locate d x y := by
  have hslot := h.slotOf hc x y
  simp only [Carrel.site, Prod.mk.injEq] at hc
  obtain ⟨hx, hy, -⟩ := hc
  simp only [State.locate, hslot, Carrel.place, hx, hy]
  rfl

theorem leads (h : t.RoutesAs s) (q : Phys) (p : Packet) : t.leads q p = s.leads q p := by
  obtain ⟨hp, hi, hph, -, hn, hx⟩ := (Tile.berth_iff _ _).1 (h.tileAt q)
  simp only [State.leads, Tile.inCarrel, hp, hi, hph, hn, hx]
  rcases h.carrel p.hdr.carrel.toNat with ⟨hc, hd⟩ | ⟨c, d, hc, hd, hcd⟩
  · simp only [hc, hd, Option.bind_none]
    rfl
  · have he : c.egress p.hdr.src p.hdr.dst = d.egress p.hdr.src p.hdr.dst := by
      simp only [Carrel.site, Prod.mk.injEq] at hcd
      obtain ⟨-, -, hpeers, -⟩ := hcd
      simp only [Carrel.egress, hpeers]
    simp only [hc, hd, Option.bind_some, he, h.locate hcd, h.slotOf hcd]
    rfl

theorem sender (h : t.RoutesAs s) (p : Packet) : t.sender p = s.sender p := by
  unfold State.sender
  rw [h.onSteward, ((Tile.berth_iff _ _).1 h.berth).1]
  rcases h.carrel p.hdr.carrel.toNat with ⟨hc, hd⟩ | ⟨c, d, hc, hd, hcd⟩
  · simp only [hc, hd, h.stewardOf]
  · have hh : c.home = d.home := by
      simp only [Carrel.site, Prod.mk.injEq] at hcd
      obtain ⟨hx, hy, -⟩ := hcd
      simp only [Carrel.home, hx, hy]
    simp only [hc, hd, h.stewardOf, hh]

theorem cut (h : t.RoutesAs s) : t.cut = s.cut := by
  obtain ⟨hp, -, -, hr, -, -⟩ := (Tile.berth_iff _ _).1 h.berth
  have hoff : ∀ q, (t.tileAt q).router.off = (s.tileAt q).router.off := fun q => by
    obtain ⟨-, -, -, hq, -, -⟩ := (Tile.berth_iff _ _).1 (h.tileAt q)
    rw [hq]
  simp only [State.cut, State.linksGone, hp, hr, hoff]

theorem classOf (h : t.RoutesAs s) (p : Packet) : t.classOf p = s.classOf p := by
  unfold State.classOf
  rcases h.carrel p.hdr.carrel.toNat with ⟨hc, hd⟩ | ⟨c, d, hc, hd, hcd⟩
  · simp only [hc, hd]
  · simp only [Carrel.site, Prod.mk.injEq] at hcd
    obtain ⟨-, -, -, hk, hg⟩ := hcd
    simp only [hc, hd, hk, hg]

theorem sendTo (h : t.RoutesAs s) (q d : Phys) (out : Bool) (p : Packet) : (t.sendTo q d out p).RoutesAs (s.sendTo q d out p) := by
  refine ⟨h.berth, h.rest, h.flds, h.site, ?_, ?_⟩
  · simp only [State.sendTo, h.net, h.serial]
  · simp only [State.sendTo, h.serial]

theorem emitFrom (h : t.RoutesAs s) (q : Phys) (p : Packet) : (t.emitFrom q p).RoutesAs (s.emitFrom q p) := by
  unfold State.emitFrom
  rw [h.leads]
  split
  · exact h
  · exact h.sendTo ..

theorem emit (h : t.RoutesAs s) (p : Packet) : (t.emit p).RoutesAs (s.emit p) := by
  unfold State.emit
  rw [h.sender]
  exact h.emitFrom ..

theorem answerFrom (h : t.RoutesAs s) (p x : Packet) : (t.answerFrom p x).RoutesAs (s.answerFrom p x) := by
  unfold State.answerFrom
  rw [h.cut]
  split
  · exact h.emitFrom ..
  · exact h.emit x

/-- So acknowledgements from both leave the same messages in flight. -/
theorem ackTo (h : t.RoutesAs s) (p : Packet) (how : AckKind) (a : Nat) (copy : Option Nat) :
    (t.ackTo p how a copy).RoutesAs (s.ackTo p how a copy) := by
  unfold State.ackTo
  rw [h.classOf]
  dsimp only
  split
  · exact h
  · exact h.answerFrom ..

end State.RoutesAs

/-- A message whose name leads somewhere joins the messages in flight on its way there. -/
theorem State.emit_net_of_leads {s : State} {p : Packet} {d : Phys} {o : Bool} (h : s.leads (s.sender p) p = some (d, o)) :
    ∃ q, (s.emit p).net = s.net ++ [q] ∧ q.hdr = p.hdr ∧ q.body = p.body ∧ q.way.map (·.dst) = some d := by
  unfold State.emit State.emitFrom
  rw [h]
  exact ⟨_, rfl, rfl, rfl, rfl⟩

/-- An answer changes what is in flight and the number of messages sent alone. -/
theorem State.emitFrom_tile (s : State) (q : Phys) (p : Packet) : (s.emitFrom q p).tile = s.tile := by
  unfold State.emitFrom
  split <;> rfl

@[simp] theorem State.answerFrom_tile (s : State) (p x : Packet) : (s.answerFrom p x).tile = s.tile := by
  unfold State.answerFrom
  split
  · exact s.emitFrom_tile ..
  · exact s.emit_tile x

@[simp] theorem State.ackTo_tile (s : State) (p : Packet) (how : AckKind) (a : Nat) (copy : Option Nat) : (s.ackTo p how a copy).tile = s.tile := by
  unfold State.ackTo
  dsimp only
  split
  · rfl
  · exact s.answerFrom_tile ..

end Sys2Proof.Machine
end

section
/-!
What the operations that arrive at a tile change of it and what they leave: its berth, its memory, its task unit.
-/

namespace Sys2Proof.Machine

/- Memory: numbers and byte strings read back after a write. -/

theorem Memory.bytes_congr {m m' : Memory} {a n : Nat} (h : ∀ b, a ≤ b → b < a + n → m.read b = m'.read b) : m.bytes a n = m'.bytes a n := by
  induction n generalizing a with
  | zero => rfl
  | succ n ih => rw [Memory.bytes, Memory.bytes, h a (by omega) (by omega), ih fun b h1 h2 => h b (by omega) (by omega)]

theorem Memory.bytes_append (m : Memory) (a n k : Nat) : m.bytes a (n + k) = m.bytes a n ++ m.bytes (a + n) k := by
  induction n generalizing a with
  | zero => simp [Memory.bytes]
  | succ n ih => rw [Nat.succ_add, Memory.bytes, Memory.bytes, ih, List.cons_append, Nat.add_assoc, Nat.add_comm 1 n]

/-- The bytes written are the bytes read. -/
theorem Memory.bytes_writeBytes {m : Memory} (a : Nat) (bs : List Byte) (h : m.wf = true) : (m.writeBytes a bs).bytes a bs.length = bs := by
  have key : ∀ (m' : Memory) (cs : List Byte) (a' : Nat), (∀ i, i < cs.length → m'.read (a' + i) = cs.getD i 0) → m'.bytes a' cs.length = cs := by
    intro m' cs
    induction cs with
    | nil => intro _ _; rfl
    | cons c cs ih =>
      intro a' hr
      rw [List.length_cons, Memory.bytes, ih (a' + 1) fun i hi => ?_]
      · rw [show m'.read a' = c by simpa using hr 0 (by simp)]
      · simpa [Nat.add_assoc, Nat.add_comm 1 i] using hr (i + 1) (by simpa using hi)
  refine key _ bs a fun i hi => ?_
  rw [Memory.read_writeBytes a bs _ h, if_pos ⟨by omega, by omega⟩, Nat.add_sub_cancel_left]

/-- A number read where the middle part of a byte string has been written is the number of that part. -/
theorem Memory.getN_writeBytes_append {m : Memory} (a : Nat) (xs ys zs : List Byte) (h : m.wf = true) :
    (m.writeBytes a (xs ++ ys ++ zs)).getN (a + xs.length) ys.length = leNat ys := by
  have hb := Memory.bytes_writeBytes a (xs ++ ys ++ zs) h
  rw [List.length_append, List.length_append, Memory.bytes_append, Memory.bytes_append, List.append_assoc, List.append_assoc] at hb
  obtain ⟨-, hb⟩ := List.append_inj hb (length_bytes ..)
  obtain ⟨hb, -⟩ := List.append_inj hb (length_bytes ..)
  rw [Memory.getN, List.append_assoc, hb]

/-- A number outside the bytes written is as before. -/
theorem Memory.getN_writeBytes_of_disjoint {m : Memory} {a b n : Nat} {bs : List Byte} (h : m.wf = true)
    (hd : b + n ≤ a ∨ a + bs.length ≤ b) : (m.writeBytes a bs).getN b n = m.getN b n :=
  Memory.getN_congr fun i h1 h2 => by rw [Memory.read_writeBytes a bs i h, if_neg (by omega)]

/-- Parcels written are read back, and every other parcel as before (R312). -/
theorem Memory.parcel_setParcels {m : Memory} (p : Nat) (xs : List Parcel) (q : Nat) (h : m.wf = true) :
    (m.setParcels p xs).parcel q = if p ≤ q ∧ q < p + xs.length then xs.getD (q - p) 0 else m.parcel q := by
  induction xs generalizing m p with
  | nil => simp [Memory.setParcels, show ¬ (p ≤ q ∧ q < p) by omega]
  | cons x xs ih =>
    rw [Memory.setParcels, ih (p + 1) (Memory.wf_setN _ _ _ h)]
    have hother : q ≠ p → (m.setN (2 * p) 2 x.toNat).parcel q = m.parcel q := fun hq => by
      unfold Memory.parcel Memory.setN
      rw [Memory.getN_writeBytes_of_disjoint h (by rw [length_natBytes]; omega)]
    have hsame : (m.setN (2 * p) 2 x.toNat).parcel p = x := by
      have hg := Memory.getN_writeBytes_append (2 * p) [] (natBytes 2 x.toNat) [] h
      simp only [List.nil_append, List.append_nil, List.length_nil, length_natBytes, leNat_natBytes, Nat.add_zero] at hg
      unfold Memory.parcel Memory.setN
      rw [hg]
      apply BitVec.eq_of_toNat_eq
      simpa using x.isLt
    rcases Nat.lt_trichotomy q p with hq | rfl | hq
    · rw [if_neg (by omega), if_neg (by omega), hother (by omega)]
    · rw [if_neg (by omega), if_pos ⟨le_refl _, by simp⟩, hsame]
      simp
    · obtain ⟨k, rfl⟩ : ∃ k, q = p + 1 + k := ⟨q - (p + 1), by omega⟩
      rw [hother (by omega)]
      by_cases hk : k < xs.length
      · rw [if_pos ⟨by omega, by omega⟩, if_pos ⟨by omega, by simp only [List.length_cons]; omega⟩]
        simp [show p + 1 + k - p = k + 1 by omega]
      · rw [if_neg (by omega), if_neg (by simp only [List.length_cons]; omega)]

/- The berth of a tile is no business of its memory and its task unit. -/

@[simp] theorem Tile.berth_latch (t : Tile) (b : Nat) : (t.latch b).berth = t.berth := rfl
@[simp] theorem Tile.berth_addPend (t : Tile) (f : FaultRec) : (t.addPend f).berth = t.berth := rfl
@[simp] theorem Tile.berth_store (t : Tile) (a : Nat) (bs : List Byte) : (t.store a bs).berth = t.berth := rfl
@[simp] theorem Tile.berth_istoreParcels (t : Tile) (p : Nat) (xs : List Parcel) : (t.istoreParcels p xs).berth = t.berth := rfl
@[simp] theorem Tile.berth_fillGranules (t : Tile) (gs : List Nat) : (t.fillGranules gs).berth = t.berth := rfl
@[simp] theorem Tile.berth_touch (t : Tile) (a n : Nat) (w c : Bool) : (t.touch a n w c).berth = t.berth := rfl

@[simp] theorem Tile.berth_setTdz (t : Tile) (u : Bool) : (t.setTdz u).berth = t.berth := by
  unfold Tile.setTdz Tile.setSticky
  dsimp only
  split <;> rfl

@[simp] theorem Tile.berth_push (t : Tile) (e : Entry) (u : Bool) : (t.push e u).berth = t.berth := by
  unfold Tile.push
  dsimp only
  split
  · split <;> rfl
  · split <;> rfl

@[simp] theorem Tile.berth_readyRecord (t : Tile) (a : Nat) (u : Bool) : (t.readyRecord a u).berth = t.berth := by
  unfold Tile.readyRecord
  dsimp only
  split
  · rfl
  · split
    · rfl
    · split
      · exact t.berth_push ..
      · rfl

@[simp] theorem Tile.berth_tdec (t : Tile) (a : Nat) (n : Word) (u : Bool) : (t.tdec a n u).berth = t.berth := by
  unfold Tile.tdec Tile.storeN
  dsimp only
  split_ifs <;> simp

/- What noting an access and a write to memory leave. -/

@[simp] theorem Tile.touch_mem (t : Tile) (a n : Nat) (w c : Bool) : (t.touch a n w c).view.mem = t.view.mem := by
  obtain ⟨_, _, _, _, _, _, _, h⟩ := t.touch_eq a n w c
  rw [h]

@[simp] theorem Tile.touch_bad (t : Tile) (a n : Nat) (w c : Bool) : (t.touch a n w c).view.bad = t.view.bad := by
  obtain ⟨_, _, _, _, _, _, _, h⟩ := t.touch_eq a n w c
  rw [h]

@[simp] theorem Tile.touch_task (t : Tile) (a n : Nat) (w c : Bool) : (t.touch a n w c).task = t.task := rfl
@[simp] theorem Tile.touch_normal (t : Tile) (a n : Nat) (w c : Bool) : (t.touch a n w c).core.normal = t.core.normal := rfl
@[simp] theorem Tile.touch_recWord (t : Tile) (a n : Nat) (w c : Bool) (b off : Nat) : (t.touch a n w c).recWord b off = t.recWord b off := by
  simp [Tile.recWord]

@[simp] theorem Tile.touch_recScope (t : Tile) (a n : Nat) (w c : Bool) (b : Nat) : (t.touch a n w c).recScope b = t.recScope b := by
  simp [Tile.recScope]
@[simp] theorem Tile.touch_ringCount (t : Tile) (a n : Nat) (w c : Bool) (k : BitVec 2) : (t.touch a n w c).ringCount k = t.ringCount k := rfl

@[simp] theorem Tile.store_mem (t : Tile) (a : Nat) (bs : List Byte) : (t.store a bs).view.mem = t.view.mem.writeBytes a bs := rfl
@[simp] theorem Tile.store_task (t : Tile) (a : Nat) (bs : List Byte) : (t.store a bs).task = t.task := rfl
@[simp] theorem Tile.store_core (t : Tile) (a : Nat) (bs : List Byte) : (t.store a bs).core = t.core := rfl
theorem Tile.store_bad {t : Tile} (a : Nat) (bs : List Byte) (h : t.view.bad = []) : (t.store a bs).view.bad = [] := by
  simp [Tile.store, h]

@[simp] theorem Tile.agentWrite_mem (t : Tile) (a : Nat) (bs : List Byte) : (t.agentWrite a bs).view.mem = t.view.mem.writeBytes a bs := by
  simp [Tile.agentWrite]
@[simp] theorem Tile.agentWrite_berth (t : Tile) (a : Nat) (bs : List Byte) : (t.agentWrite a bs).berth = t.berth := by simp [Tile.agentWrite]
@[simp] theorem Tile.agentWrite_task (t : Tile) (a : Nat) (bs : List Byte) : (t.agentWrite a bs).task = t.task := rfl
@[simp] theorem Tile.agentWrite_normal (t : Tile) (a : Nat) (bs : List Byte) : (t.agentWrite a bs).core.normal = t.core.normal := rfl
@[simp] theorem Tile.agentWrite_ringCount (t : Tile) (a : Nat) (bs : List Byte) (k : BitVec 2) : (t.agentWrite a bs).ringCount k = t.ringCount k := rfl
theorem Tile.agentWrite_bad {t : Tile} (a : Nat) (bs : List Byte) (h : t.view.bad = []) : (t.agentWrite a bs).view.bad = [] :=
  Tile.store_bad a bs (by simpa using h)

/- Ready rings (R28, R46). -/

/-- A push leaves memory. -/
@[simp] theorem Tile.push_mem (t : Tile) (e : Entry) (u : Bool) : (t.push e u).view.mem = t.view.mem := by
  unfold Tile.push
  dsimp only
  split
  · split <;> rfl
  · split <;> rfl

/-- With room in its ring and no word of it uncorrectable, an entry takes the ring's next place. -/
theorem Tile.push_room {t : Tile} {e : Entry} (u : Bool) (hr : t.ringCount e.prio < 256) (hb : t.view.bad = []) :
    t.push e u = ({ t with task.rings := t.task.rings ++ [{ e with slot := ringPlace t.task.rings e.prio }] }).latch 1 := by
  simp [Tile.push, hr, hb]

theorem Tile.canPush_room {t : Tile} {c : BitVec 2} (h : t.ringCount c < 256) : t.canPush c = true := by simp [Tile.canPush, h]

theorem Tile.push_rings {t : Tile} {e : Entry} (u : Bool) (hr : t.ringCount e.prio < 256) (hb : t.view.bad = []) :
    (t.push e u).task.rings = t.task.rings ++ [{ e with slot := ringPlace t.task.rings e.prio }] := by
  rw [Tile.push_room u hr hb]; rfl

/-- A push leaves the receive queue and the armed slots. -/
@[simp] theorem Tile.push_queue (t : Tile) (e : Entry) (u : Bool) : (t.push e u).task.queue = t.task.queue := by
  unfold Tile.push
  dsimp only
  split
  · split <;> rfl
  · split <;> rfl

@[simp] theorem Tile.push_armed (t : Tile) (e : Entry) (u : Bool) : (t.push e u).task.armed = t.task.armed := by
  unfold Tile.push
  dsimp only
  split
  · split <;> rfl
  · split <;> rfl

/-- Checking a record for a push leaves memory. -/
@[simp] theorem Tile.readyRecord_mem (t : Tile) (a : Nat) (u : Bool) : (t.readyRecord a u).view.mem = t.view.mem := by
  unfold Tile.readyRecord
  dsimp only
  split
  · rfl
  · split
    · rfl
    · split
      · exact t.push_mem ..
      · rfl

/-- A record whose scope no notice covers, whose words are good and whose ring has room is pushed (R27). -/
theorem Tile.readyRecord_pushes {t : Tile} {a : Nat} (u : Bool) (hb : t.view.bad = []) (hc : covered t.task.cancels (t.recScope a) = false)
    (hr : t.ringCount (recPrio (t.recWord a 4)) < 256) :
    (t.readyRecord a u).task.rings = t.task.rings ++
      [{ work := .task (BitVec.ofNat 32 a), prio := recPrio (t.recWord a 4), scope := t.recScope a,
         slot := ringPlace t.task.rings (recPrio (t.recWord a 4)) }] := by
  have hw : t.view.badWord a 16 = none := by simp [View.badWord, hb]
  unfold Tile.readyRecord
  simp only [hw, hc, Tile.canPush_room hr, if_true, Bool.false_eq_true, if_false]
  rw [Tile.push_rings u hr hb]

/- Counters (R161, R163): with no slot armed an advance changes the counter and the latch. -/

/-- A counter advanced by an amount. -/
def Tile.bump (t : Tile) (n : BitVec 4) (x : Word) : Tile :=
  { t with task.cnt := t.task.cnt.set n.toNat { t.task.cnt[n.toNat] with count := (t.task.cnt[n.toNat]).count + x } }

@[simp] theorem Tile.bump_count (t : Tile) (n : BitVec 4) (x : Word) :
    ((t.bump n x).task.cnt[n.toNat]).count = (t.task.cnt[n.toNat]).count + x := by
  simp [Tile.bump]

/-- The state differs in its counters and the event latch alone. -/
def State.CountsFrom (t s : State) : Prop := ∃ cnt l, t = { s with tile := { s.tile with task.cnt := cnt, core.latch := l } }

theorem State.advanceCnt_unarmed {s : State} (n : BitVec 4) (x : Word) (h : s.tile.task.armed = []) :
    s.advanceCnt n x = { s with tile := (s.tile.bump n x).latch 2 } := by
  simp [State.advanceCnt, State.evalSlots, Tile.latch, Tile.bump, h]

theorem State.CountsFrom.refl (s : State) : s.CountsFrom s := ⟨_, _, rfl⟩

theorem State.CountsFrom.advanceCnt {s t : State} (h : t.CountsFrom s) (ha : s.tile.task.armed = []) (n : BitVec 4) (x : Word) :
    (t.advanceCnt n x).CountsFrom s := by
  have ht : t.tile.task.armed = [] := by obtain ⟨_, _, rfl⟩ := h; exact ha
  rw [State.advanceCnt_unarmed n x ht]
  obtain ⟨_, _, rfl⟩ := h
  exact ⟨_, _, rfl⟩

theorem State.CountsFrom.advanceWhere {s t : State} (h : t.CountsFrom s) (ha : s.tile.task.armed = []) (f : Counter → Option Word) :
    (t.advanceWhere f).CountsFrom s := by
  unfold State.advanceWhere
  generalize List.range 16 = l
  induction l generalizing t with
  | nil => exact h
  | cons i l ih =>
    rw [List.foldl_cons]
    apply ih
    split
    · exact h.advanceCnt ha ..
    · exact h

theorem State.countMessage_countsFrom {s : State} (ha : s.tile.task.armed = []) (cls : BitVec 4) (n : Nat) : (s.countMessage cls n).CountsFrom s :=
  (State.CountsFrom.refl s).advanceWhere ha _

theorem State.countBytes_countsFrom {s : State} (c : Option (BitVec 4)) (n : Nat) (ha : c = none ∨ s.tile.task.armed = []) :
    (s.countBytes c n).CountsFrom s := by
  unfold State.countBytes
  split
  · exact .refl s
  · split
    · exact (State.CountsFrom.refl s).advanceCnt (by simpa using ha) ..
    · exact .refl s

theorem State.CountsFrom.routesAs {s t : State} (h : t.CountsFrom s) : t.RoutesAs s := by
  obtain ⟨_, _, rfl⟩ := h
  exact .of_tile s rfl

theorem State.CountsFrom.view {s t : State} (h : t.CountsFrom s) : t.tile.view = s.tile.view := by obtain ⟨_, _, rfl⟩ := h; rfl
theorem State.CountsFrom.normal {s t : State} (h : t.CountsFrom s) : t.tile.core.normal = s.tile.core.normal := by obtain ⟨_, _, rfl⟩ := h; rfl
theorem State.CountsFrom.queue {s t : State} (h : t.CountsFrom s) : t.tile.task.queue = s.tile.task.queue := by obtain ⟨_, _, rfl⟩ := h; rfl
theorem State.CountsFrom.rings {s t : State} (h : t.CountsFrom s) : t.tile.task.rings = s.tile.task.rings := by obtain ⟨_, _, rfl⟩ := h; rfl

end Sys2Proof.Machine
end

section
/-!
O42: what each remote operation does at the residency that it reaches, and what it sends back.
-/

namespace Sys2Proof.Machine

open Sys2Proof.Claims

section Arrivals

variable {s : State} {p : Packet}

/- What arrives and is neither cut off nor unbound nor covered. -/

/-- An operation that lands has not been turned away. -/
theorem State.turnedAway_of_landing_go {a n : Nat} {w r : Bool} {g : BitVec 3} (h : s.landing p a n w r g = .go) : s.turnedAway p true = none := by
  unfold State.landing at h
  split at h
  · cases h
  · assumption

theorem State.not_cut_of_not_turnedAway {d : Bool} (h : s.turnedAway p d = none) : s.cut = false := by
  unfold State.turnedAway at h
  split at h
  · cases h
  · simpa using ‹¬ s.cut = true›

theorem State.not_covered_of_not_turnedAway (h : s.turnedAway p true = none) : s.coveredBy p.hdr.scope = false := by
  unfold State.turnedAway at h
  split_ifs at h
  simpa using ‹¬ (true && s.coveredBy p.hdr.scope) = true›

/-- An operation on the view that lands is performed, then acknowledged. -/
theorem State.performOn_go {a n : Nat} {w r : Bool} {g : BitVec 3} (c : Option Nat) (k : State → State) (h : s.landing p a n w r g = .go) :
    s.performOn p a n w r g c k = (k (s.unsend p)).ackTo p .performed a c := by
  simp only [State.performOn, h]

/-- One that is turned away is acknowledged as such. -/
theorem State.performOn_turnedAway {how : AckKind} (a n : Nat) (w r : Bool) (g : BitVec 3) (c : Option Nat) (k : State → State)
    (h : s.turnedAway p true = some how) : s.performOn p a n w r g c k = (s.unsend p).ackTo p how a c := by
  simp only [State.performOn, State.landing, h]

/-- The messages in flight after an operation that leaves the ways of messages as they are, and its acknowledgement. -/
theorem State.RoutesAs.net_ackTo {t : State} (h : t.RoutesAs (s.unsend p)) (how : AckKind) (a : Nat) (c : Option Nat) :
    (t.ackTo p how a c).net = netAfter s p how a c := (h.ackTo p how a c).net

/- Answers. -/

theorem answered_net {b : Body} {d : Phys} {o : Bool} (hd : p.hdr.dst ≠ 0xFFFFFFFF) (h : s.leads s.tile.phys (answer p b) = some (d, o)) :
    ∃ q, (answered s p b).net = s.net.erase p ++ [q] ∧ q.hdr = backHdr p ∧ q.body = b ∧ q.way.map (·.dst) = some d := by
  have hsender : (s.unsend p).sender (answer p b) = s.tile.phys := by
    unfold State.sender
    rw [if_pos (.inl hd)]
    rfl
  exact State.emit_net_of_leads (s := s.unsend p) (p := answer p b) (o := o) (by rw [hsender]; exact h)

/- Messages (R26, R304). -/

/-- The message that an arriving SEND becomes, and the tile that holds it in its receive queue. -/
def Tile.arrival (t : Tile) (p : Packet) (tag : Word) (bs : List Byte) : Msg :=
  { id := t.task.nextMsg, cls := p.hdr.cls, prio := p.hdr.prio, urgent := false, tag := tag, src := p.hdr.src, scope := p.hdr.scope, payload := bs,
    grans := t.freeGranules bs.length }

def Tile.enqueue (t : Tile) (m : Msg) : Tile := { (t.fillGranules m.grans) with task.queue := t.task.queue ++ [m], task.nextMsg := m.id + 1 }

theorem Tile.enqueue_bad {t : Tile} (m : Msg) (h : t.view.bad = []) : (t.enqueue m).view.bad = [] := by simp [Tile.enqueue, Tile.fillGranules, h]

/-- A message of an enabled class whose ring has room is queued, its activation pushed, and it is counted. -/
theorem State.queueMsg_eq {tag : Word} {bs : List Byte} (hh : (s.tile.handler p.hdr.cls).2 = true) (hr : s.tile.ringCount p.hdr.prio < 256) :
    s.queueMsg p tag bs =
      ({ s with tile := ((s.tile.latch 0).enqueue ((s.tile.latch 0).arrival p tag bs)).push
                  { work := .msg s.tile.task.nextMsg, prio := p.hdr.prio, scope := p.hdr.scope } } : State).countMessage p.hdr.cls bs.length := by
  have hh' : ((s.tile.latch 0).handler p.hdr.cls).2 = true := hh
  have hp : (s.tile.latch 0).canPush p.hdr.prio = true := Tile.canPush_room (by exact hr)
  unfold State.queueMsg
  simp only [hh', hp, Bool.not_true, Bool.false_eq_true, if_false]
  rfl

theorem State.queueMsg_queues {tag : Word} {bs : List Byte} (hh : (s.tile.handler p.hdr.cls).2 = true) (hr : s.tile.ringCount p.hdr.prio < 256)
    (hb : s.tile.view.bad = []) (ha : s.tile.task.armed = []) :
    ∃ m, (s.queueMsg p tag bs).RoutesAs s ∧ (s.queueMsg p tag bs).tile.task.queue = s.tile.task.queue ++ [m] ∧ HasHeader m p tag bs ∧
      (s.queueMsg p tag bs).tile.task.rings = s.tile.task.rings ++
        [{ work := .msg m.id, prio := p.hdr.prio, scope := p.hdr.scope, slot := ringPlace s.tile.task.rings p.hdr.prio }] := by
  have hbad : ((s.tile.latch 0).enqueue ((s.tile.latch 0).arrival p tag bs)).view.bad = [] := Tile.enqueue_bad (t := s.tile.latch 0) _ hb
  rw [State.queueMsg_eq hh hr]
  have hcounts := State.countMessage_countsFrom
    (s := { s with tile := ((s.tile.latch 0).enqueue ((s.tile.latch 0).arrival p tag bs)).push
                     { work := .msg s.tile.task.nextMsg, prio := p.hdr.prio, scope := p.hdr.scope } })
    (by rw [Tile.push_armed]; exact ha) p.hdr.cls bs.length
  refine ⟨(s.tile.latch 0).arrival p tag bs, hcounts.routesAs.trans (.of_tile s (by rw [Tile.berth_push]; rfl)), ?_, ⟨rfl, rfl, rfl, rfl, rfl, rfl⟩, ?_⟩
  · rw [hcounts.queue, Tile.push_queue]
    rfl
  · rw [hcounts.rings, Tile.push_rings false (by exact hr) hbad]
    rfl

theorem messageArrival_queues {tag : Word} {bs : List Byte} (hc : Comes s p (.send tag bs)) (hw : s.sendWay p tag = .queue)
    (hg : s.tile.granulesUsed + granules bs.length ≤ 176) (hh : (s.tile.handler p.hdr.cls).2 = true)
    (hr : s.tile.ringCount p.hdr.prio < 256) (hb : s.tile.view.bad = []) (ha : s.tile.task.armed = []) :
    ∃ t m, exec .messageArrival s = .next t ∧ t.tile.task.queue = s.tile.task.queue ++ [m] ∧ HasHeader m p tag bs ∧
      t.tile.task.rings = s.tile.task.rings ++
        [{ work := .msg m.id, prio := p.hdr.prio, scope := p.hdr.scope, slot := ringPlace s.tile.task.rings p.hdr.prio }] ∧
      t.net = netAfter s p .performed 0 none := by
  obtain ⟨harr, hbody, hta⟩ := hc
  have hx : exec .messageArrival s = .next (((s.unsend p).queueMsg p tag bs).ackTo p .performed 0) := by
    change execMessageArrival s = _
    simp [execMessageArrival, State.become, harr, hbody, hta, hw, Nat.not_lt.2 hg]
  obtain ⟨m, hroute, hqueue, hm, hrings⟩ := State.queueMsg_queues (s := s.unsend p) (p := p) (tag := tag) (bs := bs) hh hr hb ha
  exact ⟨_, m, hx, by simpa using hqueue, hm, by simpa using hrings, hroute.net_ackTo ..⟩

/- Slabs (R299). -/

@[simp] theorem Tile.setFifo_berth (t : Tile) (tb : Bool) (q : Fifo) : (t.setFifo tb q).berth = t.berth := by cases tb <;> rfl
@[simp] theorem Tile.setFifo_task (t : Tile) (tb : Bool) (q : Fifo) : (t.setFifo tb q).task = t.task := by cases tb <;> rfl

/-- The state in which the residency in focus has another tensor operand FIFO. -/
def State.withFifo (s : State) (tb : Bool) (q : Fifo) : State := { s with tile := s.tile.setFifo tb q }

@[simp] theorem fifoOf_withFifo (s : State) (tb : Bool) (q : Fifo) : fifoOf (s.withFifo tb q) tb = q := by cases tb <;> rfl
@[simp] theorem fifoOf_withFifo_not (s : State) (tb : Bool) (q : Fifo) : fifoOf (s.withFifo tb q) (!tb) = fifoOf s (!tb) := by cases tb <;> rfl
@[simp] theorem fifoOf_unsend (s : State) (p : Packet) (tb : Bool) : fifoOf (s.unsend p) tb = fifoOf s tb := rfl
@[simp] theorem fifoOf_ackTo (s : State) (p : Packet) (how : AckKind) (a : Nat) (c : Option Nat) (tb : Bool) :
    fifoOf (s.ackTo p how a c) tb = fifoOf s tb := by simp [fifoOf]

/-- A FIFO with one more slab. -/
def Fifo.add (q : Fifo) (seq : BitVec 16) (x : Slab) : Fifo := { q with slabs := q.slabs ++ [(seq, x)] }

/-- A slab of the right length, whose number is one of the next two and new, enters its FIFO. -/
theorem exec_slabMessage_fits {tag : Word} {bs : List Byte} {tb : Bool} {c : BitVec 4} {hi next : BitVec 16} {sc : Word}
    (hc : Comes s p (.send tag bs)) (hw : s.sendWay p tag = .slab tb) (hl : bs.length = 8 * s.tile.tens.fmt.bytes + 32)
    (hb : (fifoOf s tb).bind = .fabric c hi next sc) (hn : tag.setWidth 16 = next ∨ tag.setWidth 16 = next + 1)
    (hx : ∀ x ∈ (fifoOf s tb).slabs, x.1 ≠ tag.setWidth 16) :
    exec .slabMessage s = .next
      (((s.unsend p).withFifo tb ((fifoOf s tb).add (tag.setWidth 16) (slabOf s.tile.tens.fmt bs))).ackTo p .performed 0) := by
  obtain ⟨harr, hbody, hta⟩ := hc
  have hfits : ((tag.setWidth 16 == next || tag.setWidth 16 == next + 1) && (fifoOf s tb).slabs.all (·.1 ≠ tag.setWidth 16)) = true := by
    simpa using ⟨hn, fun x y hxy => hx (x, y) hxy⟩
  change execSlabMessage s = _
  simp only [execSlabMessage, State.become, harr, hbody, hta, hw, hl, ne_eq, not_true_eq_false, if_false]
  unfold fifoOf at hb hfits
  simp only [hb, hfits, Bool.not_true, Bool.false_eq_true, if_false]
  rw [← hb]
  rfl

theorem slabMessage_fills {tag : Word} {bs : List Byte} {tb : Bool} {c : BitVec 4} {hi next : BitVec 16} {sc : Word}
    (hc : Comes s p (.send tag bs)) (hw : s.sendWay p tag = .slab tb) (hl : bs.length = 8 * s.tile.tens.fmt.bytes + 32)
    (hb : (fifoOf s tb).bind = .fabric c hi next sc) (hn : tag.setWidth 16 = next ∨ tag.setWidth 16 = next + 1)
    (hx : ∀ x ∈ (fifoOf s tb).slabs, x.1 ≠ tag.setWidth 16) :
    ∃ t, exec .slabMessage s = .next t ∧
      (fifoOf t tb).slabs = (fifoOf s tb).slabs ++ [((tag.setWidth 16 : BitVec 16), slabOf s.tile.tens.fmt bs)] ∧
      fifoOf t (!tb) = fifoOf s (!tb) ∧ t.tile.task = s.tile.task ∧ t.net = netAfter s p .performed 0 none := by
  refine ⟨_, exec_slabMessage_fits hc hw hl hb hn hx, ?_, by simp, by simp [State.withFifo], ?_⟩
  · simp [Fifo.add]
  · exact (State.RoutesAs.of_tile (s.unsend p) (Tile.setFifo_berth ..)).net_ackTo ..

/- Remote stores (R307). -/

theorem rstArrival_stores {a : Nat} {bs : List Byte} {c : Option (BitVec 4)} (hwf : s.tile.view.mem.wf = true) (hc : Comes s p (.rst a bs c))
    (hgo : s.landing p a bs.length true (decide (bs.length < 8)) 3 = .go) (ha : c = none ∨ s.tile.task.armed = []) :
    ∃ t, exec .rstArrival s = .next t ∧ Stores s.tile.view.mem a bs t.tile.view.mem ∧ t.net = netAfter s p .performed a none ∧
      t.tile.core.normal = s.tile.core.normal ∧
      ∀ k, c = some k → (s.tile.task.cnt[k.toNat]).mode = 3 →
        (t.tile.task.cnt[k.toNat]).count = (s.tile.task.cnt[k.toNat]).count + BitVec.ofNat 32 bs.length := by
  obtain ⟨harr, hbody, -⟩ := hc
  let u : State := { s.unsend p with tile := s.tile.agentWrite a bs }
  have hexec : exec .rstArrival s = .next ((u.countBytes c bs.length).ackTo p .performed a) := by
    change execRstArrival s = _
    simp only [execRstArrival, State.become, harr, hbody, State.performOn_go _ _ hgo]
    rfl
  have hcounts := State.countBytes_countsFrom (s := u) c bs.length (by simpa [u] using ha)
  have hroute : u.RoutesAs (s.unsend p) := .of_tile (s.unsend p) (Tile.agentWrite_berth s.tile a bs)
  refine ⟨_, hexec, ?_, (hcounts.routesAs.trans hroute).net_ackTo .., ?_, ?_⟩
  · rw [State.ackTo_tile, hcounts.view, Tile.agentWrite_mem]
    exact fun b => Memory.read_writeBytes a bs b hwf
  · rw [State.ackTo_tile, hcounts.normal]
    rfl
  · rintro k rfl hmode
    have harm : u.tile.task.armed = [] := by simpa [u] using ha
    have hmode' : (u.tile.task.cnt[k.toNat]).mode = 3 := hmode
    rw [State.ackTo_tile, State.countBytes]
    simp only [hmode', if_true, State.advanceCnt_unarmed _ _ harm]
    exact Tile.bump_count ..

/- Remote atomics (R83, R308). -/

theorem ratomArrival_performs {a op : Nat} {wide : Bool} {reg : Reg} {m : Nat} {x cmp : DWord} (hwf : s.tile.view.mem.wf = true)
    (hc : Comes s p (.ratom a op wide reg m x cmp)) (hgo : s.landing p a (if wide then 8 else 4) true true 3 = .go) :
    ∃ t, exec .ratomArrival s = .next t ∧
      Stores s.tile.view.mem a (natBytes (if wide then 8 else 4) (atomNew (8 * (if wide then 8 else 4)) op
        (s.tile.view.mem.getN a (if wide then 8 else 4)) x.toNat cmp.toNat)) t.tile.view.mem ∧
      t.net = ((answered s p (.ratomReply reg wide m (BitVec.ofNat 64 (s.tile.view.mem.getN a (if wide then 8 else 4))) .performed)).ackTo p
        .performed a).net := by
  obtain ⟨harr, hbody, hta⟩ := hc
  generalize hn : (if wide then 8 else 4) = n at *
  let old := s.tile.view.mem.getN a n
  let u : State := { s.unsend p with tile := (s.tile.touch a n true false).storeN a n (atomNew (8 * n) op old x.toNat cmp.toNat) }
  have hroute : u.RoutesAs (s.unsend p) := .of_tile (s.unsend p) (by simp [Tile.storeN])
  have hcut : u.cut = false := by
    rw [hroute.cut]
    exact State.not_cut_of_not_turnedAway (d := true) hta
  have hexec : exec .ratomArrival s = .next ((u.emit (answer p (.ratomReply reg wide m (BitVec.ofNat 64 old) .performed))).ackTo p .performed a) := by
    change execRatomArrival s = _
    simp only [execRatomArrival, State.become, harr, hbody, hn, hgo]
    rw [State.answerFrom, if_neg (by exact ne_true_of_eq_false hcut)]
    rfl
  refine ⟨_, hexec, ?_, ((hroute.emit _).ackTo ..).net⟩
  rw [State.ackTo_tile, State.emit_tile]
  exact fun b => by simpa [u, Tile.storeN] using Memory.read_writeBytes a _ b hwf

/- Task records (R27, R310, R311). -/

/-- The words of a record outside the bytes written are as before. -/
theorem Tile.recWord_store {t : Tile} {a off n : Nat} {bs : List Byte} (h : t.view.mem.wf = true) (hd : a + off + 4 ≤ n ∨ n + bs.length ≤ a + off) :
    (t.store n bs).recWord a off = t.recWord a off := by
  simp only [Tile.recWord, Memory.word, Tile.store_mem]
  rw [Memory.getN_writeBytes_of_disjoint h hd]

/-- A TDEC of no more than the count lowers it; with the count at 0 the record is checked for a push. -/
theorem Tile.tdec_le {t : Tile} {a : Nat} {n : Word} (u : Bool) (hn : n.toNat ≤ (t.recWord a 0).toNat) (h0 : t.recWord a 0 ≠ 0) :
    t.tdec a n u = if t.recWord a 0 - n = 0 then (t.storeN a 4 (t.recWord a 0 - n).toNat).readyRecord a u
      else t.storeN a 4 (t.recWord a 0 - n).toNat := by
  unfold Tile.tdec
  simp only [if_neg h0, if_neg (Nat.not_lt.2 hn)]

theorem Tile.tdec_mem {t : Tile} {a : Nat} {n : Word} (u : Bool) (hn : n.toNat ≤ (t.recWord a 0).toNat) (h0 : t.recWord a 0 ≠ 0) :
    (t.tdec a n u).view.mem = t.view.mem.writeBytes a (natBytes 4 (t.recWord a 0 - n).toNat) := by
  rw [Tile.tdec_le u hn h0]
  split
  · rw [Tile.readyRecord_mem]
    rfl
  · rfl

theorem Tile.tdec_task_of_lt {t : Tile} {a : Nat} {n : Word} (u : Bool) (hn : n.toNat < (t.recWord a 0).toNat) : (t.tdec a n u).task = t.task := by
  have hne : t.recWord a 0 - n ≠ 0 := fun h => by
    have := congrArg BitVec.toNat h
    have hlt := (t.recWord a 0).isLt
    rw [BitVec.toNat_sub_of_le hn.le] at this
    simp at this
    omega
  have h0 : t.recWord a 0 ≠ 0 := fun h => by rw [h] at hn; simp at hn
  rw [Tile.tdec_le u hn.le h0, if_neg hne]
  rfl

/-- The last decrement makes the record ready. -/
theorem Tile.tdec_rings {t : Tile} {a : Nat} (u : Bool) (hwf : t.view.mem.wf = true) (h0 : t.recWord a 0 ≠ 0) (hb : t.view.bad = [])
    (hc : covered t.task.cancels (t.recScope a) = false) (hr : t.ringCount (recPrio (t.recWord a 4)) < 256) :
    (t.tdec a (t.recWord a 0) u).task.rings = t.task.rings ++
      [{ work := .task (BitVec.ofNat 32 a), prio := recPrio (t.recWord a 4), scope := t.recScope a,
         slot := ringPlace t.task.rings (recPrio (t.recWord a 4)) }] := by
  have hprio : (t.storeN a 4 0).recWord a 4 = t.recWord a 4 := Tile.recWord_store hwf (.inr (by simp [length_natBytes]))
  have hscope : (t.storeN a 4 0).recScope a = t.recScope a := by
    unfold Tile.recScope Tile.storeN
    rw [Tile.recWord_store hwf (.inr (by simp [length_natBytes]))]
  rw [Tile.tdec_le u le_rfl h0, BitVec.sub_self]
  simp only [BitVec.ofNat_eq_ofNat, if_true, BitVec.toNat_zero]
  have hpush := Tile.readyRecord_pushes (t := t.storeN a 4 0) (a := a) u (Tile.store_bad _ _ hb) (by rw [hscope]; exact hc) (by rw [hprio]; exact hr)
  rw [hprio, hscope] at hpush
  exact hpush

theorem tdecArrival_lowers {a : Nat} {n : Word} (hwf : s.tile.view.mem.wf = true) (hc : Comes s p (.tdec a n))
    (hgo : s.landing p a (if s.tile.completes a n then 16 else 8) true true 3 = .go) (hn : n.toNat ≤ (s.tile.recWord a 0).toNat)
    (h0 : s.tile.recWord a 0 ≠ 0) :
    ∃ t, exec .tdecArrival s = .next t ∧ Stores s.tile.view.mem a (natBytes 4 (s.tile.recWord a 0 - n).toNat) t.tile.view.mem ∧
      t.net = netAfter s p .performed a none ∧
      (n.toNat < (s.tile.recWord a 0).toNat → t.tile.task = s.tile.task) ∧
      (n = s.tile.recWord a 0 → s.tile.view.bad = [] → s.coveredBy (s.tile.recScope a) = false →
        s.tile.ringCount (recPrio (s.tile.recWord a 4)) < 256 → t.tile.task.rings = s.tile.task.rings ++
          [{ work := .task (BitVec.ofNat 32 a), prio := recPrio (s.tile.recWord a 4), scope := s.tile.recScope a,
             slot := ringPlace s.tile.task.rings (recPrio (s.tile.recWord a 4)) }]) := by
  obtain ⟨harr, hbody, -⟩ := hc
  have hexec : exec .tdecArrival s =
      .next (({ s.unsend p with tile := (s.tile.touch a 16 true false).tdec a n p.ownUrgent } : State).ackTo p .performed a) := by
    change execTdecArrival s = _
    simp only [execTdecArrival, State.become, harr, hbody, State.performOn_go _ _ hgo]
    rfl
  refine ⟨_, hexec, ?_, (State.RoutesAs.of_tile (s.unsend p) (by simp)).net_ackTo .., ?_, ?_⟩
  · rw [State.ackTo_tile, Tile.tdec_mem _ (by rwa [Tile.touch_recWord]) (by rwa [Tile.touch_recWord]), Tile.touch_recWord, Tile.touch_mem]
    exact fun b => Memory.read_writeBytes a _ b hwf
  · intro hlt
    rw [State.ackTo_tile, Tile.tdec_task_of_lt _ (by simpa using hlt)]
    rfl
  · rintro rfl hbad hcov hroom
    have hrings := Tile.tdec_rings (t := s.tile.touch a 16 true false) (a := a) p.ownUrgent (by simpa using hwf) (by simpa using h0) (by simpa using hbad)
      (by rw [Tile.touch_recScope]; exact hcov) (by simpa using hroom)
    rw [State.ackTo_tile]
    simpa using hrings

/-- The reserved bit of a scope is ignored (R3, R31). -/
theorem isDescendant_and_7FFFFFFF (x y : Word) : isDescendant (x &&& 0x7FFFFFFF) y = isDescendant x y := by
  have hx : (x &&& 0x7FFFFFFF).toNat = x.toNat % 2 ^ 31 := by
    rw [BitVec.toNat_and]
    exact Nat.and_two_pow_sub_one_eq_mod x.toNat 31
  have hdepth : scopeDepth (x &&& 0x7FFFFFFF) = scopeDepth x := by
    simp only [scopeDepth, hx]
    omega
  have hpath : (x &&& 0x7FFFFFFF).toNat % 2 ^ 28 = x.toNat % 2 ^ 28 := by
    rw [hx]
    omega
  simp only [isDescendant, hdepth, hpath]

theorem covered_and_7FFFFFFF (l : List Word) (x : Word) : covered l (x &&& 0x7FFFFFFF) = covered l x := by
  simp only [covered]
  congr 1
  funext y
  exact isDescendant_and_7FFFFFFF x y

theorem entryWord_toNat (w : Word) : (entryWord w).toNat = w.toNat % 2 ^ 15 := by
  unfold entryWord
  rw [BitVec.toNat_and]
  exact Nat.and_two_pow_sub_one_eq_mod w.toNat 15

theorem recPrio_entryWord (w : Word) : recPrio (entryWord w) = recPrio w := by
  apply BitVec.eq_of_toNat_eq
  simp only [recPrio, BitVec.toNat_setWidth, BitVec.toNat_ushiftRight, entryWord_toNat, Nat.shiftRight_eq_div_pow]
  omega

/-- The record that a SPAWN writes, and what is read of it. -/
def spawnRecord (w arg scope : Word) : List Byte := natBytes 4 0 ++ natBytes 4 (entryWord w).toNat ++ natBytes 4 arg.toNat ++ natBytes 4 scope.toNat

@[simp] theorem length_spawnRecord (w arg scope : Word) : (spawnRecord w arg scope).length = 16 := by simp [spawnRecord, length_natBytes]

theorem ofNat_leNat_natBytes (x : Word) : BitVec.ofNat 32 (leNat (natBytes 4 x.toNat)) = x := by
  rw [leNat_natBytes]
  apply BitVec.eq_of_toNat_eq
  simpa using x.isLt

theorem Memory.word_spawnRecord {m : Memory} (a : Nat) (w arg scope : Word) (h : m.wf = true) :
    (m.writeBytes a (spawnRecord w arg scope)).word (a + 4) = entryWord w ∧ (m.writeBytes a (spawnRecord w arg scope)).word (a + 12) = scope := by
  constructor
  · have hword := Memory.getN_writeBytes_append a (natBytes 4 0) (natBytes 4 (entryWord w).toNat) (natBytes 4 arg.toNat ++ natBytes 4 scope.toNat) h
    rw [length_natBytes, length_natBytes, ← List.append_assoc] at hword
    rw [Memory.word, spawnRecord, hword, ofNat_leNat_natBytes]
  · have hword := Memory.getN_writeBytes_append a (natBytes 4 0 ++ natBytes 4 (entryWord w).toNat ++ natBytes 4 arg.toNat) (natBytes 4 scope.toNat) [] h
    simp only [List.length_append, length_natBytes, List.append_nil] at hword
    rw [Memory.word, spawnRecord, hword, ofNat_leNat_natBytes]

theorem spawnArrival_spawns {a : Nat} {w arg : Word} (hwf : s.tile.view.mem.wf = true) (hc : Comes s p (.spawn a w arg))
    (hgo : s.landing p a 16 true false 3 = .go) (hb : s.tile.view.bad = []) (hr : s.tile.ringCount (recPrio w) < 256) :
    ∃ t, exec .spawnArrival s = .next t ∧ t.net = netAfter s p .performed a none ∧
      Stores s.tile.view.mem a (natBytes 4 0 ++ natBytes 4 (w.toNat % 2 ^ 15) ++ natBytes 4 arg.toNat ++ natBytes 4 p.hdr.scope.toNat)
        t.tile.view.mem ∧
      t.tile.task.rings = s.tile.task.rings ++
        [{ work := .task (BitVec.ofNat 32 a), prio := recPrio w, scope := p.hdr.scope &&& 0x7FFFFFFF,
           slot := ringPlace s.tile.task.rings (recPrio w) }] := by
  obtain ⟨harr, hbody, hta⟩ := hc
  have hexec : exec .spawnArrival s =
      .next (({ s.unsend p with tile := (s.tile.agentWrite a (spawnRecord w arg p.hdr.scope)).readyRecord a p.ownUrgent } : State).ackTo p .performed a) := by
    change execSpawnArrival s = _
    simp only [execSpawnArrival, State.become, harr, hbody, State.performOn_go _ _ hgo]
    rfl
  generalize hu : s.tile.agentWrite a (spawnRecord w arg p.hdr.scope) = u at hexec
  have hmem : u.view.mem = s.tile.view.mem.writeBytes a (spawnRecord w arg p.hdr.scope) := by rw [← hu, Tile.agentWrite_mem]
  have htask : u.task = s.tile.task := by rw [← hu, Tile.agentWrite_task]
  have hberth : u.berth = s.tile.berth := by rw [← hu, Tile.agentWrite_berth]
  have hbad : u.view.bad = [] := by rw [← hu, Tile.agentWrite_bad _ _ hb]
  obtain ⟨hentry, hscope⟩ := Memory.word_spawnRecord a w arg p.hdr.scope hwf
  have hprio : recPrio (u.recWord a 4) = recPrio w := by rw [Tile.recWord, hmem, hentry, recPrio_entryWord]
  have hsc : u.recScope a = p.hdr.scope &&& 0x7FFFFFFF := by rw [Tile.recScope, Tile.recWord, hmem, hscope]
  have hcov : covered u.task.cancels (u.recScope a) = false := by
    rw [hsc, covered_and_7FFFFFFF, htask]
    exact State.not_covered_of_not_turnedAway hta
  have hroom : u.ringCount (recPrio (u.recWord a 4)) < 256 := by rw [hprio, Tile.ringCount, htask]; exact hr
  refine ⟨_, hexec, (State.RoutesAs.of_tile (s.unsend p) (by rw [Tile.berth_readyRecord, hberth]; rfl)).net_ackTo .., ?_, ?_⟩
  · rw [State.ackTo_tile, Tile.readyRecord_mem, hmem, ← entryWord_toNat]
    exact fun b => Memory.read_writeBytes a (spawnRecord w arg p.hdr.scope) b hwf
  · rw [State.ackTo_tile, Tile.readyRecord_pushes p.ownUrgent hbad hcov hroom, hprio, hsc, htask]

/- Instruction stores (R312). -/

theorem istoreArrival_stores {a : Nat} {xs : List Parcel} (harr : s.arriving = some p) (hbody : p.body = .istore a xs)
    (hta : s.turnedAway p false = none ∨ p.dest ≠ none ∧ s.cut = false) (hwf : s.tile.view.ist.wf = true) :
    ∃ t, exec .istoreArrival s = .next t ∧ t.net = netAfter s p .performed a none ∧
      ∀ q, t.tile.view.ist.parcel q = if a ≤ q ∧ q < a + xs.length then xs.getD (q - a) 0 else s.tile.view.ist.parcel q := by
  have htaken : (if p.dest.isSome && !s.cut then none else s.turnedAway p false) = none := by
    rcases hta with h | ⟨hd, hcut⟩
    · rw [h, ite_self]
    · simp [Option.isSome_iff_ne_none.2 hd, hcut]
  have hexec : exec .istoreArrival s = .next (({ s.unsend p with tile := s.tile.istoreParcels a xs } : State).ackTo p .performed a) := by
    change execIstoreArrival s = _
    simp only [execIstoreArrival, State.become, harr, hbody, htaken]
    rfl
  refine ⟨_, hexec, (State.RoutesAs.of_tile (s.unsend p) (by simp)).net_ackTo .., ?_⟩
  rw [State.ackTo_tile]
  exact fun q => Memory.parcel_setParcels a xs q hwf

/- Replies (R308). -/

theorem Bank.sreg_setS (b : Bank) (r q : Reg) (x : Word) : (b.setS r x).sreg q = if q = r ∧ r ≠ 0 then x else b.sreg q := by
  unfold Bank.setS Bank.sreg
  by_cases hr : r = 0
  · simp [hr]
  · by_cases hq : q = r
    · simp only [hq, if_neg hr, Vector.getElem_set_self, true_and, if_pos (show r ≠ 0 from hr)]
    · have hn : r.toNat ≠ q.toNat := fun h => hq (BitVec.eq_of_toNat_eq h.symm)
      simp only [if_neg hr, if_neg (fun h : q = r ∧ r ≠ 0 => hq h.1), Vector.getElem_set_ne _ _ hn]

theorem Reg.add_one_ne (r : Reg) : r + 1 ≠ r := by
  intro h
  have := congrArg BitVec.toNat h
  simp [BitVec.toNat_add] at this
  omega

theorem Reg.add_one_ne_zero {r : Reg} (h : r ≠ 31) : r + 1 ≠ 0 := by
  intro h0
  apply h
  apply BitVec.eq_of_toNat_eq
  have := congrArg BitVec.toNat h0
  simp [BitVec.toNat_add] at this ⊢
  omega

/-- The token of a mark of the normal level writes its register, of a pair the two, and clears the mark (R93). -/
theorem Tile.writeToken_normal {t : Tile} {mk : Mark} (x : DWord) (hm : t.net.marks = [mk]) (hl : mk.level = .normal) (hr : mk.reg ≠ 0) :
    (t.writeToken (some mk.id) x).net.marks = [] ∧ (t.writeToken (some mk.id) x).core.normal.sreg mk.reg = x.setWidth 32 ∧
      (mk.pair = true → mk.reg ≠ 31 → (t.writeToken (some mk.id) x).core.normal.sreg (mk.reg + 1) = (x >>> 32).setWidth 32) := by
  have hw : t.writeToken (some mk.id) x =
      ({ t with core := t.core.setBank .normal (if mk.pair then (t.core.normal.setS mk.reg (x.setWidth 32)).setS (mk.reg + 1) ((x >>> 32).setWidth 32)
                  else t.core.normal.setS mk.reg (x.setWidth 32)), net.marks := [] } : Tile).latch 3 := by
    simp [Tile.writeToken, hm, hl]
  rw [hw]
  refine ⟨rfl, ?_, fun hp h31 => ?_⟩
  · change Bank.sreg (if mk.pair then _ else _) mk.reg = _
    split
    · rw [Bank.sreg_setS, if_neg (fun h => Reg.add_one_ne _ h.1.symm), Bank.sreg_setS, if_pos ⟨rfl, hr⟩]
    · rw [Bank.sreg_setS, if_pos ⟨rfl, hr⟩]
  · change Bank.sreg (if mk.pair then _ else _) (mk.reg + 1) = _
    rw [if_pos hp, Bank.sreg_setS, if_pos ⟨rfl, Reg.add_one_ne_zero h31⟩]

theorem ratomReply_writes {reg : Reg} {w : Bool} {x : DWord} {how : AckKind} {mk : Mark} (harr : s.arriving = some p)
    (hbody : p.body = .ratomReply reg w mk.id x how) (hhow : how ≠ .dropped) (hm : s.tile.net.marks = [mk]) (hl : mk.level = .normal) (hr : mk.reg ≠ 0) :
    ∃ t, exec .ratomReply s = .next t ∧ t.net = s.net.erase p ∧ t.tile.net.marks = [] ∧ t.tile.core.normal.sreg mk.reg = x.setWidth 32 ∧
      (mk.pair = true → mk.reg ≠ 31 → t.tile.core.normal.sreg (mk.reg + 1) = (x >>> 32).setWidth 32) := by
  have hexec : exec .ratomReply s = .next { s.unsend p with tile := s.tile.writeToken (some mk.id) x } := by
    change execRatomReply s = _
    simp only [execRatomReply, State.become, harr, hbody, if_neg hhow]
    rfl
  exact ⟨_, hexec, rfl, Tile.writeToken_normal x hm hl hr⟩

/- What is turned away (R37, R375, R387). -/

/-- The operations that the last clause of O42 speaks of, with the address that their acknowledgement names. -/
def turnsAway (p : Packet) (i : Instr) (a : Nat) : Prop :=
  (∃ tag bs, i = .messageArrival ∧ p.body = .send tag bs ∧ a = 0) ∨ (∃ bs c, i = .rstArrival ∧ p.body = .rst a bs c) ∨
    (∃ n, i = .tdecArrival ∧ p.body = .tdec a n) ∨ ∃ w g, i = .spawnArrival ∧ p.body = .spawn a w g

theorem exec_turnedAway {how : AckKind} {i : Instr} {a : Nat} (harr : s.arriving = some p) (hta : s.turnedAway p true = some how) (hhow : how ≠ .dropped)
    (hi : turnsAway p i a) : exec i s = .next ((s.unsend p).ackTo p how a) := by
  rcases hi with ⟨tag, bs, rfl, hbody, rfl⟩ | ⟨bs, c, rfl, hbody⟩ | ⟨n, rfl, hbody⟩ | ⟨w, g, rfl, hbody⟩
  · change execMessageArrival s = _
    simp [execMessageArrival, State.become, harr, hbody, hta, hhow]
  · change execRstArrival s = _
    simp only [execRstArrival, State.become, harr, hbody, State.performOn_turnedAway _ _ _ _ _ _ _ hta]
  · change execTdecArrival s = _
    simp only [execTdecArrival, State.become, harr, hbody, State.performOn_turnedAway _ _ _ _ _ _ _ hta]
  · change execSpawnArrival s = _
    simp only [execSpawnArrival, State.become, harr, hbody, State.performOn_turnedAway _ _ _ _ _ _ _ hta]

end Arrivals

/-- Settles O42, clause by clause: each operation's meaning is one equation for the arrival that its hypotheses allow, and the acknowledgement takes the same way from the
state before and after the effect, which moves no tile, name or carrel. -/
theorem operationsArrive : Obligations.OperationsArrive := by
  intro s p
  refine ⟨fun b d o hd h => answered_net hd h, fun tag bs hc hw hg hh hr hb ha => messageArrival_queues hc hw hg hh hr hb ha,
    fun tag bs tb c hi next sc hc hw hl hb hn hx => slabMessage_fills hc hw hl hb hn hx,
    fun hwf => ⟨fun a bs c hc hgo ha => rstArrival_stores hwf hc hgo ha, fun a op wide reg m x cmp hc hgo => ratomArrival_performs hwf hc hgo,
      fun a n hc hgo hn h0 => tdecArrival_lowers hwf hc hgo hn h0, fun a w arg hc hgo hb hr => spawnArrival_spawns hwf hc hgo hb hr⟩,
    fun a xs harr hbody hta hwf => istoreArrival_stores harr hbody hta hwf, ?_,
    fun how i a harr hta hhow hi => exec_turnedAway harr hta hhow hi⟩
  rintro reg w id x how mk harr hbody hhow hm rfl hl hr
  exact ratomReply_writes harr hbody hhow hm hl hr

end Sys2Proof.Machine
end

section
/-!
O41: cancel notices, their acknowledgement and the retirement of scopes.
-/

namespace Sys2Proof.Machine

section Cancels

variable {s : State} {c : Carrel} {w : Sweep} {p : Packet}

/- The carrels after a change of one. -/

theorem State.carrel_updCarrel (s : State) (n m : Nat) (f : Carrel → Carrel) (hf : ∀ k, (f k).num = k.num) :
    (s.updCarrel n f).carrel m = (s.carrel m).map fun k => if k.num = n then f k else k := by
  simp only [State.carrel, State.updCarrel, List.find?_map]
  congr 2
  funext k
  simp only [Function.comp_apply]
  split
  · rw [hf]
  · rfl

/-- A change that leaves a carrel's site leaves the ways of messages. -/
theorem State.updCarrel_routesAs (s : State) (n : Nat) (f : Carrel → Carrel) (hf : ∀ k, (f k).num = k.num) (hs : ∀ k, (f k).site = k.site) :
    (s.updCarrel n f).RoutesAs s := by
  refine ⟨rfl, rfl, rfl, fun m => ?_, rfl, rfl⟩
  rw [State.carrel_updCarrel s n m f hf, Option.map_map]
  congr 1
  funext k
  simp only [Function.comp_apply]
  split
  · exact hs k
  · rfl

theorem State.updCarrel_singleton (h : s.carrels = [c]) (f : Carrel → Carrel) : (s.updCarrel c.num f).carrels = [f c] := by
  simp [State.updCarrel, h]

theorem State.carrel_singleton (h : s.carrels = [c]) : s.carrel c.num = some c := by
  simp [State.carrel, h]

theorem State.num_of_myCarrel (h : s.myCarrel = some c) : c.num = s.tile.id.carrel.toNat := by
  simpa using List.find?_some h

/-- The carrel of a message to the residency in focus is the residency's. -/
theorem State.carrel_of_hdr (h : s.myCarrel = some c) (hp : p.hdr.carrel = s.tile.id.carrel) : s.carrel p.hdr.carrel.toNat = some c := by
  rw [hp]; exact h

/-- What arrives is what the step was given. -/
theorem State.pkt_of_arriving (h : s.arriving = some p) : ∃ q, s.inp.pkt = some q := by
  cases hp : s.inp.pkt with
  | none => simp [State.arriving, hp] at h
  | some q => exact ⟨q, rfl⟩

@[simp] theorem State.tell_carrels (s : State) (n : Nat) (src dst x : Word) (b : Body) : (s.tell n src dst x b).carrels = s.carrels := State.emit_carrels ..
@[simp] theorem State.tell_tile (s : State) (n : Nat) (src dst x : Word) (b : Body) : (s.tell n src dst x b).tile = s.tile := State.emit_tile ..

/- A notice reaches a tile (R34 to R36, R38). -/

/-- Withdrawal changes the membership entries of the tile in focus alone (R38). -/
theorem State.withdrawAll_tile (s : State) (f : Word → Bool) (notice : Bool) :
    ∃ ms, (s.withdrawAll f notice).tile = { s.tile with task.members := ms } := by
  have hmember : ∀ (s : State) m, (s.withdrawMember m notice).tile = s.tile := fun s m => by
    unfold State.withdrawMember
    split
    · split
      · rfl
      · exact s.emit_tile _
    · rfl
  unfold State.withdrawAll
  generalize List.range 4 = l
  induction l generalizing s with
  | nil => exact ⟨_, rfl⟩
  | cons i l ih =>
    rw [List.foldl_cons]
    split
    · exact ih s
    · split
      · obtain ⟨ms, h⟩ := ih { (if notice && Member.spent ‹_› f then s else s.withdrawMember ‹_› notice) with tile.task.members := _ }
        refine ⟨ms, h.trans ?_⟩
        split <;> simp [hmember]
      · exact ih s

/-- With no overflowed push there is nothing to refill the rings with. -/
theorem Tile.dropEntries_rings {t : Tile} (f : Word → Bool) (h : t.task.overflow = []) :
    (t.dropEntries f).task.rings = t.task.rings.filter fun e => !f e.scope := by
  simp [Tile.dropEntries, Tile.refill, refillRings, h]

theorem listScope_ne_nil (l : List Word) (x : Word) : listScope l x ≠ [] := by
  unfold listScope
  split
  · rintro rfl
    simp_all
  · simp

/-- No work is spared where none is under way. -/
theorem Core.spares_eq_false {k : Core} (hb : k.busy = false) (hl : k.level ≠ .urgent) (o : Nat) : k.spares o = false := by
  simp [Core.spares, hb, hl]

/-- A tile whose cancel list a notice has joined, with the count of what it kills there. -/
def Tile.noticed (t : Tile) (x : Word) : Tile :=
  { t with task.cancels := listScope t.task.cancels x, task.drops := t.task.drops ++ [(x, 0)] }

/-- A notice at a residency with no work under way: the list, the dropped entries, what carries a covered scope, the withdrawals. -/
theorem State.applyNotice_idle (x : Word) (hb : s.tile.core.busy = false) (hu : s.urgent = false) :
    ∃ ms, (s.applyNotice x).tile = { ((s.tile.noticed x).dropEntries (covered (listScope s.tile.task.cancels x))).killObjects
      (fun y _ => covered (listScope s.tile.task.cancels x) y) with task.members := ms } := by
  have hsweep : State.sweepCovered { s with tile := (s.tile.noticed x).dropEntries (covered (listScope s.tile.task.cancels x)) } =
      { s with tile := ((s.tile.noticed x).dropEntries (covered (listScope s.tile.task.cancels x))).killObjects
                 (fun y _ => covered (listScope s.tile.task.cancels x) y) } := by
    have hspares := Core.spares_eq_false hb (of_decide_eq_false hu)
    unfold State.sweepCovered
    rw [if_neg (by exact listScope_ne_nil _ x)]
    congr 2
    funext y o
    change (covered (listScope s.tile.task.cancels x) y && !s.tile.core.spares o) = _
    rw [hspares o]
    exact Bool.and_true _
  have happly : s.applyNotice x = (State.sweepCovered
      { s with tile := (s.tile.noticed x).dropEntries (covered (listScope s.tile.task.cancels x)) }).withdrawAll
        (covered (listScope s.tile.task.cancels x)) true := by
    simp only [State.applyNotice, hb, Bool.false_and, Bool.not_false, if_true]
    rfl
  rw [happly, hsweep]
  exact State.withdrawAll_tile ..

theorem cancelNotice_exec {x : Word} (hcar : s.carrel p.hdr.carrel.toNat = some c)
    (hdue : (c.sweeps.any fun w => w.scope == x && w.missing.contains s.tile.phys) = true) (harr : s.arriving = some p)
    (hbody : p.body = .cancelNotice x) (harch : s.tile.stop.archived = false) (hmov : s.tile.moving = false)
    (hdrops : ∀ d ∈ s.tile.task.drops, d.1 ≠ x) (hheld : x ∉ s.tile.net.heldCancels) (hph : s.tile.core.phase ≠ .unbound) :
    exec .cancelNotice s = .next ((s.unsend p).applyNotice x) := by
  have hany : s.tile.task.drops.any (·.1 = x) = false := by simpa using fun a b h => hdrops (a, b) h
  change execCancelNotice s = _
  simp only [execCancelNotice, State.become, harr, hbody, harch, hcar, Option.map_some, Option.getD_some, hdue, State.unsend_tile, hany, hmov]
  simp [hheld, hph]

/-- A notice that is due applies (R34 to R36): nothing of a listed scope is left at an idle residency. -/
theorem cancelNotice_drops {x : Word} (hcar : s.carrel p.hdr.carrel.toNat = some c)
    (hdue : (c.sweeps.any fun w => w.scope == x && w.missing.contains s.tile.phys) = true) (harr : s.arriving = some p)
    (hbody : p.body = .cancelNotice x) (harch : s.tile.stop.archived = false) (hmov : s.tile.moving = false)
    (hdrops : ∀ d ∈ s.tile.task.drops, d.1 ≠ x) (hheld : x ∉ s.tile.net.heldCancels) (hph : s.tile.core.phase ≠ .unbound)
    (hb : s.tile.core.busy = false) (hu : s.urgent = false) :
    ∃ t, exec .cancelNotice s = .next t ∧ t.tile.task.cancels = listScope s.tile.task.cancels x ∧
      (s.tile.task.overflow = [] → t.tile.task.rings = s.tile.task.rings.filter fun e => !covered t.tile.task.cancels e.scope) ∧
      (∀ a ∈ t.tile.task.armed ++ t.tile.task.fires, covered t.tile.task.cancels a.scope = false) ∧
      (∀ y ∈ t.tile.strm.copies, covered t.tile.task.cancels y.scope = false) ∧
      (∀ y ∈ t.tile.strm.regs, covered t.tile.task.cancels y.pat.scope = false) := by
  refine ⟨_, cancelNotice_exec hcar hdue harr hbody harch hmov hdrops hheld hph, ?_⟩
  obtain ⟨ms, ht⟩ := State.applyNotice_idle (s := s.unsend p) x hb hu
  rw [ht]
  refine ⟨rfl, fun ho => Tile.dropEntries_rings (t := s.tile.noticed x) _ ho, ?_, ?_, ?_⟩
  · intro a ha
    obtain h | h := List.mem_append.1 ha
    · exact Bool.not_eq_true' _ ▸ (List.mem_filter.1 h).2
    · exact Bool.not_eq_true' _ ▸ (List.mem_filter.1 h).2
  · intro y hy
    exact Bool.not_eq_true' _ ▸ (List.mem_filter.1 hy).2
  · intro y hy
    exact Bool.not_eq_true' _ ▸ (List.mem_filter.1 hy).2

/- A tile acknowledges (R39). -/

theorem cancelAck_sends {n : Nat} (hmy : s.myCarrel = some c) (hcs : s.carrels = [c]) (hsw : c.sweeps = [w]) (hmiss : s.tile.phys ∈ w.missing)
    (hpkt : s.inp.pkt = none) (hword : s.inp.word = w.scope) (hdrops : s.tile.task.drops = [(w.scope, n)]) (hrid : s.tile.rid w.scope = true) :
    ∃ t v, exec .cancelAck s = .next t ∧ t.tile.task.drops = [] ∧ t.carrels.head?.map (·.sweeps) = some [v] ∧
      v.missing = w.missing.erase s.tile.phys ∧ v.coming = w.coming + 1 ∧ v.total = w.total ∧
      t.net = (s.tell c.num s.tile.id.name w.root w.scope (.cancelAck w.scope (BitVec.ofNat 32 n))).net := by
  have hexec : exec .cancelAck s = .next (State.ackSweep { s with tile.task.drops := [] } c w n) := by
    change execCancelAck s = _
    simp [execCancelAck, State.become, hpkt, hword, hdrops, hmy, hsw, hmiss, hrid]
  refine ⟨_, w.sent s.tile.phys, hexec, ?_, ?_, rfl, rfl, rfl, ?_⟩
  · simp [State.ackSweep]
  · rw [State.ackSweep, State.tell_carrels, State.updCarrel_singleton (by exact hcs)]
    simp [hsw]
  · have hcar := State.updCarrel_routesAs { s with tile.task.drops := [] } c.num
      (fun k => { k with sweeps := k.sweeps.map fun z => if z = w then w.sent s.tile.phys else z }) (fun _ => rfl) (fun _ => rfl)
    exact ((hcar.trans (.of_tile s rfl)).emit _).net

/- The acknowledgements add up at the root (R39). -/

@[simp] theorem State.setTile_carrels (s : State) (t : Tile) : (s.setTile t).carrels = s.carrels := by
  unfold State.setTile
  split <;> rfl

@[simp] theorem State.tokenAt_carrels (s : State) (q : Phys) (id : Option Nat) (x : Word) : (s.tokenAt q id x).carrels = s.carrels :=
  State.setTile_carrels ..

theorem State.notify_sweeps (s : State) (n : Nat) (bs : List Byte) : (s.notify n bs).carrels.map (·.sweeps) = s.carrels.map (·.sweeps) := by
  simp only [State.notify, State.updCarrel, List.map_map]
  congr 1
  funext k
  simp only [Function.comp_apply]
  split <;> rfl

/-- The token of a cancel is written with the total (R39). -/
def State.payTotal (s : State) (v : Sweep) : State := match v.token with
  | some (q, id) => s.tokenAt q (some id) v.total
  | none => s

/-- The wafer that asked for a cancel is answered with the total (R184). -/
def State.answerWafer (s : State) (c : Carrel) (v : Sweep) : State := match v.origin with
  | some k => s.emit { hdr := { dst := mkName k 0 0, src := mkName 0 0 0, scope := v.scope, cls := 0, prio := 0, urgent := false,
                                carrel := BitVec.ofNat 11 c.num }, body := .cancelAck v.scope v.total }
  | none => s

theorem State.endSweep_eq (s : State) (c : Carrel) (v : Sweep) : s.endSweep c v =
    if v.host then ((s.payTotal v).answerWafer c v).notify c.num
      (plainNotice 0x83 0 c.num v.total (((s.payTotal v).answerWafer c v).fieldAt c.home).ns) else (s.payTotal v).answerWafer c v := rfl

@[simp] theorem State.payTotal_carrels (s : State) (v : Sweep) : (s.payTotal v).carrels = s.carrels := by
  unfold State.payTotal
  split <;> simp

@[simp] theorem State.answerWafer_carrels (s : State) (c : Carrel) (v : Sweep) : (s.answerWafer c v).carrels = s.carrels := by
  unfold State.answerWafer
  split <;> simp

@[simp] theorem State.answerWafer_tile (s : State) (c : Carrel) (v : Sweep) : (s.answerWafer c v).tile = s.tile := by
  unfold State.answerWafer
  split <;> simp

/-- The end of a sweep changes no carrel's list of sweeps. -/
theorem State.endSweep_sweeps (s : State) (c : Carrel) (v : Sweep) : (s.endSweep c v).carrels.map (·.sweeps) = s.carrels.map (·.sweeps) := by
  rw [State.endSweep_eq]
  split
  · rw [State.notify_sweeps]
    simp
  · simp

theorem State.endSweep_tile (s : State) (c : Carrel) (v : Sweep) : (s.endSweep c v).tile = (s.payTotal v).tile := by
  rw [State.endSweep_eq]
  split <;> simp

theorem State.stepSweep_sweeps {v : Sweep} (hcs : s.carrels = [c]) (hsw : c.sweeps = [w]) :
    (s.stepSweep c w v).carrels.head?.map (·.sweeps) = some [{ v with reported := v.missing.isEmpty && v.abroad.isEmpty && v.coming == 0 }] := by
  rw [← List.head?_map]
  unfold State.stepSweep
  dsimp only
  split
  · rw [State.endSweep_sweeps, State.updCarrel_singleton hcs]
    simp [hsw]
  · rw [State.updCarrel_singleton hcs]
    simp [hsw]

/-- A token of the running level is written in the register of its mark (R93). -/
theorem Tile.writeToken_running {t : Tile} {k : Mark} {id : Nat} (x : DWord) (hk : t.net.marks.find? (·.id = id) = some k) (hl : k.level = t.core.level)
    (hp : k.pair = false) (hr : k.reg ≠ 0) : (t.writeToken (some id) x).core.bank.sreg k.reg = x.setWidth 32 := by
  have hw : (t.writeToken (some id) x).core.bank = (t.core.bank.setS k.reg (x.setWidth 32)) := by
    simp only [Tile.writeToken, hk, hp, Bool.false_eq_true, if_false]
    cases hlev : t.core.level <;> rw [hlev] at hl <;> simp [hl, hlev, Core.bank, Core.setBank, Tile.latch]
  rw [hw, Bank.sreg_setS, if_pos ⟨rfl, hr⟩]

theorem cancelAck_adds {n : Word} (hmy : s.myCarrel = some c) (hcs : s.carrels = [c]) (hsw : c.sweeps = [w]) (harr : s.arriving = some p)
    (hbody : p.body = .cancelAck w.scope n) (hcar : p.hdr.carrel = s.tile.id.carrel) (hdst : p.hdr.dst = w.root) (hcom : 0 < w.coming)
    (hhost : w.host = true → (s.fieldAt c.home).slot % 16 = 8) :
    ∃ t v, exec .cancelAck s = .next t ∧ t.carrels.head?.map (·.sweeps) = some [v] ∧ v.missing = w.missing ∧ v.coming = w.coming - 1 ∧
      v.total = w.total + n ∧ v.reported = (w.missing.isEmpty && w.abroad.isEmpty && v.coming == 0) ∧
      ∀ id k, w.token = some (s.tile.phys, id) → v.reported = true → s.tile.net.marks.find? (·.id = id) = some k → k.level = s.tile.core.level →
        k.pair = false → k.reg ≠ 0 → t.sr k.reg = w.total + n := by
  obtain ⟨q, hpkt⟩ := State.pkt_of_arriving harr
  have hslot : (w.host && (s.fieldAt c.home).slot % 16 != 8) = false := by
    cases h : w.host <;> simp [h, hhost]
  have hexec : exec .cancelAck s = .next ((s.unsend p).stepSweep c w (w.came n)) := by
    change execCancelAck s = _
    simp [execCancelAck, State.become, hpkt, harr, hbody, State.carrel_of_hdr hmy hcar, hsw, hdst, hcom, hslot]
  refine ⟨_, _, hexec, State.stepSweep_sweeps hcs hsw, rfl, rfl, rfl, rfl, ?_⟩
  intro id k htok hrep hk hl hp hr
  have hstep : ((s.unsend p).stepSweep c w (w.came n)).tile = s.tile.writeToken (some id) ((w.total + n).setWidth 64) := by
    unfold State.stepSweep
    rw [if_pos hrep, State.endSweep_tile]
    simp only [State.payTotal, Sweep.came, htok, State.tokenAt, State.updTile, State.setTile, State.tileAt, State.updCarrel_tile, State.unsend_tile, if_true]
    rw [if_pos]
    unfold Tile.writeToken
    simp only [hk]
    rfl
  rw [State.sr, State.bank, hstep, Tile.writeToken_running _ hk hl hp hr]
  apply BitVec.eq_of_toNat_eq
  simp

/- The report to the home steward (R39, R56). -/

/-- What the home steward makes of a gang once a scope is reported cancelled. -/
def Gang.cancelled (g : Gang) (x : Word) : Gang :=
  if isDescendant g.scope x && (g.state == .running || g.state == .loading) then { g with state := .ended 1 } else g

theorem Gang.cancelled_ended (g : Gang) (x : Word) :
    isDescendant (g.cancelled x).scope x = true → (g.cancelled x).state ≠ .running ∧ (g.cancelled x).state ≠ .loading := by
  unfold Gang.cancelled
  split
  · exact fun _ => ⟨nofun, nofun⟩
  · rename_i h
    intro hd
    simpa [hd] using h

theorem cancelDoneReport_ends {l r : List Sweep} (hcs : s.carrels = [c]) (hsw : c.sweeps = l ++ w :: r) (hl : ∀ z ∈ l, z.reported = false)
    (hw : w.reported = true) (hn : s.inp.n = c.num) (hserv : s.inService c = true) :
    ∃ t k, exec .cancelDoneReport s = .next t ∧ t.carrels = [k] ∧ k.gangs.length = c.gangs.length ∧
      ∀ g ∈ k.gangs, isDescendant g.scope w.scope = true → g.state ≠ .running ∧ g.state ≠ .loading := by
  have hfind : c.sweeps.find? (·.reported) = some w := by
    have hnone : l.find? (·.reported) = none := List.find?_eq_none.2 fun z hz => by simp [hl z hz]
    simp [hsw, List.find?_append, hnone, hw]
  have hexec : exec .cancelDoneReport s = .next (s.updCarrel c.num fun c => match c.sweeps.find? (·.reported) with
      | none => c
      | some w => { c with sweeps := c.sweeps.erase w, gangs := c.gangs.map (·.cancelled w.scope) }) := by
    change execCancelDoneReport s = _
    simp only [execCancelDoneReport, State.become, hn, State.carrel_singleton hcs, Option.any_some, hserv]
    rfl
  refine ⟨_, _, hexec, State.updCarrel_singleton hcs _, ?_, ?_⟩
  · simp [hfind]
  · simp only [hfind]
    intro g hg
    obtain ⟨g', -, rfl⟩ := List.mem_map.1 hg
    exact g'.cancelled_ended w.scope

/- A retirement reaches a tile (R32, R332). -/

theorem State.ackSweep_carrels (hcs : s.carrels = [c]) (d : Carrel) (hd : d.num = c.num) (w : Sweep) (n : Nat) :
    (s.ackSweep d w n).carrels = [{ c with sweeps := c.sweeps.map fun z => if z = w then w.sent s.tile.phys else z }] := by
  rw [State.ackSweep, State.tell_carrels, hd, State.updCarrel_singleton hcs]

/-- Acknowledging sweeps changes the carrel's sweeps and what is in flight. -/
theorem State.foldl_ackSweep (l : List Sweep) (f : State → Sweep → Nat) (d : Carrel) (hcs : s.carrels = [c]) (hd : d.num = c.num) :
    (l.foldl (fun s w => s.ackSweep d w (f s w)) s).tile = s.tile ∧
      ∃ ws, (l.foldl (fun s w => s.ackSweep d w (f s w)) s).carrels = [{ c with sweeps := ws }] := by
  induction l generalizing s c with
  | nil => exact ⟨rfl, _, hcs⟩
  | cons w l ih =>
    obtain ⟨htile, ws, hws⟩ := ih (State.ackSweep_carrels hcs d hd w (f s w)) hd
    exact ⟨htile.trans (State.tell_tile ..), ws, hws⟩

/-- What a tile that takes up a retirement leaves of the sweeps under it. -/
theorem State.absorbSweeps_singleton (x : Word) (hmy : s.myCarrel = some c) (hcs : s.carrels = [c]) :
    (s.absorbSweeps x).tile = { s.tile with task.drops := s.tile.task.drops.filter fun d => !isDescendant d.1 x } ∧
      ∃ ws, (s.absorbSweeps x).carrels = [{ c with sweeps := ws }] ∧
        ∀ z, c.sweeps = [z] → isDescendant z.scope x = true → s.tile.phys ∈ z.missing → ws = [z.sent s.tile.phys] := by
  obtain ⟨htile, ws, hws⟩ := State.foldl_ackSweep (c.sweeps.filter fun w => isDescendant w.scope x && w.missing.contains s.tile.phys)
    (fun s w => ((s.tile.task.drops.find? (·.1 = w.scope)).map (·.2)).getD 0) c hcs rfl
  simp only [State.absorbSweeps, hmy]
  refine ⟨by rw [htile], ws, hws, fun z hz hdesc hmiss => ?_⟩
  have hone : (c.sweeps.filter fun w => isDescendant w.scope x && w.missing.contains s.tile.phys) = [z] := by simp [hz, hdesc, hmiss]
  rw [hone, List.foldl_cons, List.foldl_nil, State.ackSweep_carrels hcs c rfl] at hws
  have hsame := congrArg Carrel.sweeps (List.singleton_inj.1 hws)
  simpa [hz] using hsame.symm

/-- The tile that takes a scope and what is under it off its lists of cancelled scopes (R32). -/
def Tile.unlist (t : Tile) (x : Word) : Tile :=
  { t with task.cancels := t.task.cancels.filter fun y => !isDescendant y x, net.heldCancels := t.net.heldCancels.filter fun y => !isDescendant y x }

@[simp] theorem Tile.unlist_phys (t : Tile) (x : Word) : (t.unlist x).phys = t.phys := rfl
@[simp] theorem Tile.unlist_id (t : Tile) (x : Word) : (t.unlist x).id = t.id := rfl
@[simp] theorem Tile.unlist_drops (t : Tile) (x : Word) : (t.unlist x).task.drops = t.task.drops := rfl
@[simp] theorem Tile.unlist_cancels (t : Tile) (x : Word) : (t.unlist x).task.cancels = t.task.cancels.filter fun y => !isDescendant y x := rfl

/-- What a retirement does at the tile before the sweeps under it: the tile unlists the scope and its acknowledgement leaves for the root (R32, R332). -/
def State.ackRetire (s : State) (p : Packet) (c : Carrel) (w : Sweep) : State :=
  (({ s.unsend p with tile := s.tile.unlist w.scope } : State).updCarrel c.num fun k =>
    { k with retires := k.retires.map fun z => if z = w then w.sent s.tile.phys else z }).tell c.num s.tile.id.name w.root w.scope (.retireAck w.scope)

@[simp] theorem State.ackRetire_tile (s : State) (p : Packet) (c : Carrel) (w : Sweep) : (s.ackRetire p c w).tile = s.tile.unlist w.scope :=
  State.tell_tile ..

theorem State.ackRetire_carrels (hcs : s.carrels = [c]) (hret : c.retires = [w]) (p : Packet) :
    (s.ackRetire p c w).carrels = [{ c with retires := [w.sent s.tile.phys] }] := by
  rw [State.ackRetire, State.tell_carrels, State.updCarrel_singleton (s := { s.unsend p with tile := s.tile.unlist w.scope }) hcs]
  simp [hret]

theorem retireNotice_retires (hmy : s.myCarrel = some c) (hcs : s.carrels = [c]) (hret : c.retires = [w]) (harr : s.arriving = some p)
    (hbody : p.body = .retireNotice w.scope) (hcar : p.hdr.carrel = s.tile.id.carrel) (hmiss : s.tile.phys ∈ w.missing)
    (hmov : s.tile.moving = false) (harch : s.tile.stop.archived = false) :
    ∃ t k, exec .retireNotice s = .next t ∧ t.carrels = [k] ∧
      k.retires = [{ w with missing := w.missing.erase s.tile.phys, coming := w.coming + 1 }] ∧
      (∀ z, c.sweeps = [z] → isDescendant z.scope w.scope = true → s.tile.phys ∈ z.missing →
        k.sweeps = [{ z with missing := z.missing.erase s.tile.phys, coming := z.coming + 1 }]) ∧
      (t.tile.task.cancels = s.tile.task.cancels.filter fun y => !isDescendant y w.scope) ∧
      t.tile.task.drops = s.tile.task.drops.filter fun d => !isDescendant d.1 w.scope := by
  have hnum : p.hdr.carrel.toNat = c.num := by rw [hcar, State.num_of_myCarrel hmy]
  have hexec : exec .retireNotice s = .next ((s.ackRetire p c w).absorbSweeps w.scope) := by
    have hfind : ((s.carrel p.hdr.carrel.toNat).bind fun c => c.retires.find? fun z => z.scope == w.scope && z.missing.contains s.tile.phys) = some w := by
      simp [State.carrel_of_hdr hmy hcar, hret, hmiss]
    change execRetireNotice s = _
    simp only [execRetireNotice, State.become, harr, hbody, hmov, harch, Bool.or_self, Bool.false_eq_true, if_false]
    rw [show (((s.unsend p).carrel p.hdr.carrel.toNat).bind fun c => c.retires.find? fun z => z.scope == w.scope && z.missing.contains (s.unsend p).tile.phys) =
      some w from hfind, hnum]
    rfl
  have hvcs := State.ackRetire_carrels hcs hret p
  have hvmy : (s.ackRetire p c w).myCarrel = some { c with retires := [w.sent s.tile.phys] } := by
    rw [State.myCarrel, State.ackRetire_tile, Tile.unlist_id, ← State.num_of_myCarrel hmy]
    exact State.carrel_singleton hvcs
  obtain ⟨htile, ws, hws, hone⟩ := State.absorbSweeps_singleton w.scope hvmy hvcs
  simp only [State.ackRetire_tile, Tile.unlist_phys] at hone
  refine ⟨_, _, hexec, hws, rfl, fun z hz hdesc hmz => hone z hz hdesc hmz, ?_, ?_⟩
  · simp [htile]
  · simp [htile]

/- The retirement is acknowledged and completes (R32, R332). -/

/-- The carrel whose retirement of a scope, if it waits at this root, has one acknowledgement less to come (R32). -/
def Carrel.retireCame (c : Carrel) (x root : Word) : Carrel :=
  { c with retires := (c.retires.find? fun z => z.scope == x && z.root == root && decide (0 < z.coming)).elim c.retires
             fun y => c.retires.map fun z => if z = y then y.came 0 else z }

theorem retireAck_adds (hmy : s.myCarrel = some c) (hcs : s.carrels = [c]) (hret : c.retires = [w]) (harr : s.arriving = some p)
    (hbody : p.body = .retireAck w.scope) (hcar : p.hdr.carrel = s.tile.id.carrel) (hdst : p.hdr.dst = w.root) (hcom : 0 < w.coming) :
    ∃ t k, exec .retireAckComplete s = .next t ∧ t.carrels = [k] ∧ k.retires = [{ w with coming := w.coming - 1 }] := by
  obtain ⟨q, hpkt⟩ := State.pkt_of_arriving harr
  have hexec : exec .retireAckComplete s = .next ((s.unsend p).updCarrel c.num (·.retireCame w.scope p.hdr.dst)) := by
    change execRetireAckComplete s = _
    simp only [execRetireAckComplete, State.become, hpkt, harr, hbody]
    rw [State.num_of_myCarrel hmy, hcar]
    congr 2
    funext k
    unfold Carrel.retireCame
    cases k.retires.find? fun z => z.scope == w.scope && z.root == p.hdr.dst && decide (0 < z.coming) with
    | none => rfl
    | some y => rfl
  refine ⟨_, _, hexec, State.updCarrel_singleton (s := s.unsend p) hcs _, ?_⟩
  simp [Carrel.retireCame, hret, hdst, hcom, Sweep.came]

/-- The carrel without the retirement and the scopes that it took off the lists. -/
def Carrel.dropRetire (c : Carrel) (w : Sweep) : Carrel :=
  { c with retires := c.retires.erase w, listed := c.listed.filter fun y => !isDescendant y w.scope }

/-- The carrel whose child scope of the retirement has its index free again (R32). -/
def Carrel.freeChild (c : Carrel) (w : Sweep) : Carrel := { c with kids := c.kids &&& ~~~(BitVec.ofNat 16 (2 ^ scopeIndex w.scope)) }

/-- The home steward once the retirement of a launch scope is over, but for the completion message that waited for it. -/
def State.closeRetire (s : State) (n : Nat) (w : Sweep) : State := (s.updCarrel n (·.dropRetire w)).updCarrel n (·.freeChild w)

theorem State.closeRetire_carrels (hcs : s.carrels = [c]) (w : Sweep) : (s.closeRetire c.num w).carrels = [(c.dropRetire w).freeChild w] :=
  State.updCarrel_singleton (c := c.dropRetire w) (State.updCarrel_singleton hcs _) _

theorem retireAckComplete_exec (hcs : s.carrels = [c]) (hret : c.retires = [w]) (hpkt : s.inp.pkt = none) (hword : w.scope = s.inp.word)
    (hn : s.inp.n = c.num) (hmiss : w.missing = []) (habroad : w.abroad = []) (hcom : w.coming = 0) (htok : w.token = none)
    (horig : w.origin = none) (hserv : s.inService c = true) :
    exec .retireAckComplete s = .next (match w.note with
      | none => s.closeRetire c.num w
      | some b => (s.closeRetire c.num w).notify c.num (b ++ natBytes 8 (s.fieldAt c.home).ns)) := by
  have hfind : ((s.carrel s.inp.n).bind fun c => c.retires.find? fun z => z.scope == s.inp.word && z.missing.isEmpty && z.abroad.isEmpty && z.coming == 0) =
      some w := by
    simp [hn, State.carrel_singleton hcs, hret, hword, hmiss, habroad, hcom]
  have hdrop : (s.updCarrel c.num (·.dropRetire w)).carrel c.num = some (c.dropRetire w) :=
    State.carrel_singleton (c := c.dropRetire w) (State.updCarrel_singleton hcs _)
  have hclose : (s.closeRetire c.num w).carrel c.num = some ((c.dropRetire w).freeChild w) :=
    State.carrel_singleton (c := (c.dropRetire w).freeChild w) (State.closeRetire_carrels hcs w)
  have hheld : (!((s.updCarrel c.num (·.dropRetire w)).carrel c.num).any (s.updCarrel c.num (·.dropRetire w)).inService) = false := by
    rw [hdrop, Option.any_some, show (s.updCarrel c.num (·.dropRetire w)).inService (c.dropRetire w) = true from hserv]
    rfl
  change execRetireAckComplete s = _
  simp only [execRetireAckComplete, State.become, hpkt, hfind, htok, horig]
  simp only [State.updCarrel_inp, ← hword, hn]
  rw [if_neg (by rw [Bool.not_eq_true]; exact hheld)]
  cases hnote : w.note with
  | none => rfl
  | some b =>
    simp only [State.closeRetire, Carrel.dropRetire, Carrel.freeChild] at hclose ⊢
    rw [hclose]
    rfl

theorem retireAckComplete_closes (hcs : s.carrels = [c]) (hret : c.retires = [w]) (hpkt : s.inp.pkt = none) (hword : w.scope = s.inp.word)
    (hn : s.inp.n = c.num) (hmiss : w.missing = []) (habroad : w.abroad = []) (hcom : w.coming = 0) (htok : w.token = none)
    (horig : w.origin = none) (hserv : s.inService c = true) :
    ∃ t k, exec .retireAckComplete s = .next t ∧ t.carrels = [k] ∧ k.retires = [] ∧
      k.listed = c.listed.filter (fun y => !isDescendant y w.scope) ∧ k.kids = c.kids &&& ~~~(BitVec.ofNat 16 (2 ^ scopeIndex w.scope)) ∧
      ∀ b, w.note = some b → k.ring.waiting = c.ring.waiting ++ [b ++ natBytes 8 (s.fieldAt c.home).ns] := by
  have hexec := retireAckComplete_exec hcs hret hpkt hword hn hmiss habroad hcom htok horig hserv
  have hcarrels := State.closeRetire_carrels hcs w
  have hempty : (c.dropRetire w).retires = [] := by simp [Carrel.dropRetire, hret]
  cases hnote : w.note with
  | none =>
    rw [hnote] at hexec
    exact ⟨_, _, hexec, hcarrels, hempty, rfl, rfl, nofun⟩
  | some b =>
    rw [hnote] at hexec
    refine ⟨_, _, hexec, State.updCarrel_singleton hcarrels _, hempty, rfl, rfl, ?_⟩
    rintro b' ⟨⟩
    rfl

end Cancels

/-- Settles O41, clause by clause: a notice at an idle tile spares nothing, the acknowledgements are counted in the one sweep that they name, and a retirement takes the
sweeps under it along. -/
theorem cancels : Obligations.Cancels := by
  intro s c w l r p hmy hcs
  have hnum := State.num_of_myCarrel hmy
  refine ⟨fun hsw hl hmiss hmov harch => ⟨?_, ?_⟩, fun n hsw harr hbody hcar hdst hcom hhost => cancelAck_adds hmy hcs hsw harr hbody hcar hdst hcom hhost,
    fun hsw hl hw hn hserv => cancelDoneReport_ends hcs hsw hl hw hn hserv,
    fun hret harr hbody hcar hmiss hmov harch => retireNotice_retires hmy hcs hret harr hbody hcar hmiss hmov harch,
    fun hret harr hbody hcar hdst hcom => retireAck_adds hmy hcs hret harr hbody hcar hdst hcom,
    fun hret hpkt hword hn hmiss habroad hcom htok horig hserv => retireAckComplete_closes hcs hret hpkt hword hn hmiss habroad hcom htok horig hserv⟩
  · intro harr hbody hcar hdrops hheld hph hb hu
    have hdue : (c.sweeps.any fun z => z.scope == w.scope && z.missing.contains s.tile.phys) = true := by
      rw [hsw]
      simp [hmiss]
    exact cancelNotice_drops (State.carrel_of_hdr hmy hcar) hdue harr hbody harch hmov hdrops hheld hph hb hu
  · rintro n hpkt hword hdrops hrid rfl rfl
    exact cancelAck_sends hmy hcs hsw hmiss hpkt hword hdrops hrid

end Sys2Proof.Machine
end

section
/-!
O54 fails: its clause on ARCHIVE (R259) asks that the tile be the acting steward of the field by place, where R12 and R367 have the mirror act once that steward is lost.
-/

namespace Sys2Proof.Machine

/-- The acting steward of field (0, 0), lost, so that its mirror acts for the field (R367), at an ARCHIVE of carrel 1 whose home field this is. -/
def lostSteward : State :=
  { tile := { phys := { px := 0, py := 0 }, core := { normal := ({} : Bank).setS 2 0x10001, phase := .running } },
    flds := [{ fx := 0, fy := 0, stewardsLost := [false] }], carrels := [{ num := 1 }] }

theorem lostSteward_archives : lostSteward.clear (.archive 5 2 3) [2, 3] = true ∧ lostSteward.onSteward = true ∧
    lostSteward.tile.phys = actingSteward lostSteward.tile.phys.field ∧ (lostSteward.sr 2).toNat < 2 ^ 17 ∧ (lostSteward.sr 2).toNat % 65536 = 1 := by
  decide +kernel

/-- The mirror acts for the field, so the tile is not the steward that may archive the carrel: ARCHIVE answers code 2 in its token. -/
theorem lostSteward_mirrored : lostSteward.stewardOf lostSteward.tile.phys.field = mirrorSteward lostSteward.tile.phys.field := by decide +kernel

/-- The carrels that an outcome leaves. -/
def carrelsAfter : Host.Outcome State Fault Refusal → List Carrel
  | .next t => t.carrels
  | _ => []

theorem carrelsAfter_archive_lostSteward : carrelsAfter (exec (.archive 5 2 3) lostSteward) = [{ num := 1 }] := by decide +kernel

/-- Refutes O54 by its last clause: ARCHIVE asks that the tile be the steward that acts for its field (R12), which the clause's hypotheses do not say. At the acting
steward's place with that steward lost the mirror acts (R367), the instruction answers code 2, and the carrel stays Active. -/
theorem not_carrelsAndGangsWork : ¬ Obligations.CarrelsAndGangsWork := by
  intro h
  obtain ⟨-, -, -, -, -, -, -, -, -, archive⟩ := h lostSteward { num := 1 } 0 rfl
  obtain ⟨hclear, hsteward, hplace, hsize, hnum⟩ := lostSteward_archives
  obtain ⟨t, k, m, ht, hk, hstate, -⟩ := archive 5 2 3 hclear hsteward hplace rfl hsize hnum (by decide) rfl rfl
  have hkept : t.carrels = [{ num := 1 }] := by simpa only [ht, carrelsAfter] using carrelsAfter_archive_lostSteward
  obtain rfl : k = { num := 1 } := List.singleton_inj.1 (hk.symm.trans hkept)
  exact absurd hstate nofun

end Sys2Proof.Machine
end

section
/-!
What the task unit selects, takes out of its rings and reads from a record (R27, R28, R46, R47, R54).
-/

namespace Sys2Proof.Machine

/- Taking an entry out of its ring (R28). -/

theorem Tile.refill_of_no_overflow {t : Tile} (h : t.task.overflow = []) : t.refill = t := by
  unfold Tile.refill
  rw [h, refillRings, ← h]

/-- With no push overflowed, an entry that leaves its ring leaves all else as it is. -/
theorem Tile.unring_eq {t : Tile} (e : Entry) (h : t.task.overflow = []) : t.unring e = { t with task.rings := t.task.rings.erase e } :=
  Tile.refill_of_no_overflow (by exact h)

/- Performing stores looks at the view of memory alone (R118). -/

theorem Tile.storeOp_view_congr {t u : Tile} (h : t.view = u.view) (e : StoreOp) : (t.storeOp e).view = (u.storeOp e).view := by
  cases e <;> simp only [Tile.storeOp, Tile.store, h]

theorem Tile.perform_view_congr {t u : Tile} (h : t.view = u.view) (l : List StoreOp) : (t.perform l).view = (u.perform l).view := by
  induction l generalizing t u with
  | nil => exact h
  | cons e l ih => exact ih (Tile.storeOp_view_congr h e)

theorem Tile.drain_view_congr {t u : Tile} (h : t.view = u.view) : t.drain.view = u.drain.view := by
  unfold Tile.drain
  rw [h]
  exact Tile.perform_view_congr (by rfl) _

/-- A record reads the same in two tiles of one view. -/
theorem Tile.recWord_congr {t u : Tile} (h : t.view = u.view) (a off : Nat) : t.recWord a off = u.recWord a off := by
  unfold Tile.recWord
  rw [h]

theorem Tile.recScope_congr {t u : Tile} (h : t.view = u.view) (a : Nat) : t.recScope a = u.recScope a := by
  unfold Tile.recScope
  rw [Tile.recWord_congr h]

/-- An access that is no core access leaves the masked window's pages too. -/
@[simp] theorem Tile.touch_agent_core (t : Tile) (a n : Nat) (w : Bool) : (t.touch a n w false).core = t.core := rfl

/- Selection (R47, R54). -/

section Selection

variable {t : Tile}

/-- With no membership entry nothing is boosted. -/
theorem Tile.boostOf_of_no_members (h : ∀ m ∈ t.task.members.toList, m = none) (e : Entry) : t.boostOf e = 3 := by
  unfold Tile.boostOf
  generalize (3 : BitVec 2) = c
  generalize t.task.members.toList = l at h
  induction l with
  | nil => rfl
  | cons m l ih =>
    obtain rfl : m = none := h m (by simp)
    exact ih fun m hm => h m (by simp [hm])

/-- Without boosts the oldest entry of a class is the first native one. -/
theorem Tile.oldestIn_of_no_members (h : ∀ m ∈ t.task.members.toList, m = none) (c : Nat) :
    t.oldestIn c = t.task.rings.find? (·.prio.toNat = c) := by
  have hboosted : (t.task.rings.find? fun e => decide (c < e.prio.toNat) && (t.boostOf e).toNat == c) = none := by
    refine List.find?_eq_none.2 fun e _ he => ?_
    have hlt := e.prio.isLt
    rw [Tile.boostOf_of_no_members h, Bool.and_eq_true, decide_eq_true_eq, beq_iff_eq, show (3 : BitVec 2).toNat = 3 from rfl] at he
    omega
  unfold Tile.oldestIn
  rw [hboosted]
  split
  · exact Eq.symm ‹_›
  · exact Eq.symm ‹_›

/-- The class looked up before all that hold an entry is the one selected from. -/
theorem Tile.select_of_oldestIn {e : Entry} {c : Nat} (hc : c < 4) (he : t.oldestIn c = some e) (hlow : ∀ k < c, t.oldestIn k = none) :
    t.select = some e := by
  obtain ⟨l, r, hlr⟩ := List.append_of_mem (List.mem_range.2 hc)
  refine List.findSome?_eq_some_iff.2 ⟨l, c, r, hlr, he, fun k hk => hlow k ?_⟩
  obtain ⟨-, -, hbefore⟩ := List.pairwise_append.1 (hlr ▸ List.pairwise_lt_range (n := 4))
  exact hbefore k hk c (by simp)

theorem Tile.select_first {x : Entry} {l r : List Entry} (hm : ∀ m ∈ t.task.members.toList, m = none) (hrings : t.task.rings = l ++ x :: r)
    (hl : ∀ y ∈ l, x.prio < y.prio) (hr : ∀ y ∈ r, x.prio ≤ y.prio) : t.select = some x := by
  refine Tile.select_of_oldestIn x.prio.isLt ?_ fun k hk => ?_
  · rw [Tile.oldestIn_of_no_members hm, hrings]
    refine List.find?_eq_some_iff_append.2 ⟨by simp, l, r, rfl, fun y hy => ?_⟩
    have hlt : x.prio.toNat < y.prio.toNat := hl y hy
    simpa using hlt.ne'
  · rw [Tile.oldestIn_of_no_members hm, hrings]
    refine List.find?_eq_none.2 fun y hy => ?_
    have hle : x.prio.toNat ≤ y.prio.toNat := by
      rcases List.mem_append.1 hy with h | h
      · exact Nat.le_of_lt (hl y h)
      · rcases List.mem_cons.1 h with rfl | h
        · exact Nat.le_refl _
        · exact hr y h
    have hne : y.prio.toNat ≠ k := by omega
    simpa using hne

end Selection

end Sys2Proof.Machine
end

section
/-!
O38: dispatch, aging and boosts (R47, R48, R54).
-/

namespace Sys2Proof.Machine

section TaskUnit

variable {s : State} {e : Entry}

/- Dispatch (R27, R35, R47). -/

/-- What the task unit does with the entry that it has selected. -/
def State.dispatch (s : State) (e : Entry) : State :=
  if s.tile.view.bad.contains e.word then { s with tile := (s.tile.unring e).addPend (hardwareFault e.word false) }
  else match e.work with
    | .task a => s.dispatchTask e a.toNat
    | .msg n => s.dispatchMsg e n
    | _ => { s with tile := s.tile.unring e }

theorem State.dispatch_task {a : Word} (hbad : e.word ∉ s.tile.view.bad) (hwork : e.work = .task a) : s.dispatch e = s.dispatchTask e a.toNat := by
  simp only [State.dispatch, List.contains_eq_mem, hbad, hwork, decide_false, Bool.false_eq_true, if_false]

theorem State.dispatch_msg {n : Nat} (hbad : e.word ∉ s.tile.view.bad) (hwork : e.work = .msg n) : s.dispatch e = s.dispatchMsg e n := by
  simp only [State.dispatch, List.contains_eq_mem, hbad, hwork, decide_false, Bool.false_eq_true, if_false]

theorem State.dispatch_bad (hbad : e.word ∈ s.tile.view.bad) :
    s.dispatch e = { s with tile := (s.tile.unring e).addPend (hardwareFault e.word false) } := by
  simp only [State.dispatch, List.contains_eq_mem, hbad, decide_true, if_true]

theorem State.level_of_selectable (h : s.selectable = true) : s.tile.core.level = .normal := by
  have hu : s.urgent = false := by
    simp only [State.selectable, Bool.and_eq_true, Bool.not_eq_true'] at h
    obtain ⟨⟨⟨hu, -⟩, -⟩, -⟩ := h
    exact hu
  cases hl : s.tile.core.level with
  | normal => rfl
  | urgent => simp [State.urgent, hl] at hu

/-- The entry is out of its ring and its record, which follows the stores of the queue, is about to be read. -/
def State.atRecord (s : State) (e : Entry) (a : Nat) : State :=
  { s with tile := ({ s with tile := s.tile.unring e } : State).drained.tile.touch a 16 false false }

/-- A record whose address and pages are good starts its task, or is dropped with a count where a notice covers its scope (R35, R39). -/
theorem State.dispatchTask_ok {a : Nat} (hmap : s.tile.view.mapCheck a 16 false = .ok) (hseek : s.tile.seek a 16 true 5 = .ok) :
    s.dispatchTask e a =
      let out := s.atRecord e a
      let sc := out.tile.recScope a
      if out.coveredBy sc then { out with tile.task.drops := countDrop sc out.tile.task.drops } else out.startTask a e.runs := by
  simp only [State.dispatchTask, hmap, hseek]
  rfl

@[simp] theorem State.atRecord_core (s : State) (e : Entry) (a : Nat) : (s.atRecord e a).tile.core = s.tile.core := by
  rw [State.atRecord, Tile.touch_agent_core, State.drained_tile_core]
  rfl

theorem State.atRecord_task (a : Nat) (ho : s.tile.task.overflow = []) :
    (s.atRecord e a).tile.task = { s.tile.task with rings := s.tile.task.rings.erase e } := by
  rw [State.atRecord, Tile.touch_task, State.drained_tile_task, Tile.unring_eq e ho]

theorem State.atRecord_recWord (a off : Nat) : (s.atRecord e a).tile.recWord a off = s.drained.tile.recWord a off := by
  rw [State.atRecord, Tile.touch_recWord]
  exact Tile.recWord_congr (Tile.drain_view_congr (by rfl)) a off

theorem State.atRecord_recScope (a : Nat) : (s.atRecord e a).tile.recScope a = s.drained.tile.recScope a := by
  rw [State.atRecord, Tile.touch_recScope]
  exact Tile.recScope_congr (Tile.drain_view_congr (by rfl)) a

theorem State.atRecord_coveredBy (a : Nat) (ho : s.tile.task.overflow = []) (x : Word) : (s.atRecord e a).coveredBy x = s.coveredBy x := by
  unfold State.coveredBy
  rw [State.atRecord_task a ho]

/-- A task's argument is in s1 of the normal level. -/
theorem State.startTask_sr_one {a : Nat} (pr : BitVec 2) (hl : s.tile.core.level = .normal) : (s.startTask a pr).sr 1 = s.tile.recWord a 8 := by
  have hbank : (s.startTask a pr).bank = s.tile.core.normal.setS 1 (s.tile.recWord a 8) := by
    unfold State.bank Core.bank
    rw [show (s.startTask a pr).tile.core.level = .normal from hl]
    rfl
  rw [State.sr, hbank, Bank.sreg_setS, if_pos ⟨rfl, by decide⟩]

section Dispatch

variable (hsel : s.selectable = true) (hstill : s.still = false) (he : s.tile.select = some e)

include hsel hstill he

theorem exec_taskDispatch : exec .taskDispatch s = .next (s.dispatch e) := by
  change execTaskDispatch s = _
  simp only [execTaskDispatch, State.become, hsel, hstill, he]
  rfl

section Record

variable {a : Word} (hbad : e.word ∉ s.tile.view.bad) (hwork : e.work = .task a) (ho : s.tile.task.overflow = [])
  (hmap : s.tile.view.mapCheck a.toNat 16 false = .ok) (hseek : s.tile.seek a.toNat 16 true 5 = .ok)

include hbad hwork ho hmap hseek

theorem taskDispatch_starts (hcov : s.coveredBy (s.drained.tile.recScope a.toNat) = false) :
    ∃ t, exec .taskDispatch s = .next t ∧ t.tile.core.phase = .running ∧ t.tile.core.cur.work = .task a ∧
      t.tile.core.cur.pc = (s.drained.tile.recWord a.toNat 4).setWidth 13 ∧ t.sr 1 = s.drained.tile.recWord a.toNat 8 ∧
      t.tile.core.cur.scope = s.drained.tile.recScope a.toNat ∧ t.tile.core.cur.prio = e.runs ∧
      t.tile.task.rings = s.tile.task.rings.erase e := by
  have hstart : s.dispatch e = (s.atRecord e a.toNat).startTask a.toNat e.runs := by
    rw [State.dispatch_task hbad hwork, State.dispatchTask_ok hmap hseek]
    exact if_neg (by rw [State.atRecord_coveredBy _ ho, State.atRecord_recScope, hcov]; decide)
  have hlevel : (s.atRecord e a.toNat).tile.core.level = .normal := by rw [State.atRecord_core]; exact State.level_of_selectable hsel
  refine ⟨_, exec_taskDispatch hsel hstill he, ?_⟩
  rw [hstart]
  refine ⟨rfl, ?_, ?_, ?_, ?_, rfl, ?_⟩
  · exact congrArg Work.task (by rw [BitVec.ofNat_toNat, BitVec.setWidth_eq])
  · exact congrArg (BitVec.setWidth 13) (State.atRecord_recWord ..)
  · rw [State.startTask_sr_one _ hlevel, State.atRecord_recWord]
  · exact State.atRecord_recScope _
  · exact congrArg Tasks.rings (State.atRecord_task a.toNat ho)

theorem taskDispatch_drops (hcov : s.coveredBy (s.drained.tile.recScope a.toNat) = true) :
    ∃ t, exec .taskDispatch s = .next t ∧ t.tile.core = s.tile.core ∧ t.tile.task.rings = s.tile.task.rings.erase e := by
  have hdrop : ∃ ds, s.dispatch e = { s.atRecord e a.toNat with tile.task.drops := ds } := by
    rw [State.dispatch_task hbad hwork, State.dispatchTask_ok hmap hseek]
    exact ⟨_, if_pos (by rw [State.atRecord_coveredBy _ ho, State.atRecord_recScope, hcov])⟩
  obtain ⟨ds, hdrop⟩ := hdrop
  refine ⟨_, exec_taskDispatch hsel hstill he, ?_⟩
  rw [hdrop]
  exact ⟨State.atRecord_core .., congrArg Tasks.rings (State.atRecord_task a.toNat ho)⟩

end Record

/-- A handler starts from the header of its message (R26, R304). -/
theorem taskDispatch_handles {n : Nat} {m : Msg} (hbad : e.word ∉ s.tile.view.bad) (hwork : e.work = .msg n) (ho : s.tile.task.overflow = [])
    (hm : s.tile.task.queue.find? (·.id = n) = some m) (hcov : s.coveredBy m.scope = false) :
    ∃ t, exec .taskDispatch s = .next t ∧ t.tile.core.phase = .running ∧ t.tile.core.cur.pc = (s.tile.handler m.cls).1 ∧
      t.tile.core.cur.tag = m.tag ∧ t.tile.core.cur.src = m.src ∧ t.tile.core.cur.scope = m.scope ∧ t.tile.core.cur.cls = m.cls ∧
      t.tile.core.cur.cursor.cur = some m.id ∧ t.tile.task.rings = s.tile.task.rings.erase e := by
  have hstart : s.dispatch e = ({ s with tile := s.tile.unring e } : State).startHandler m := by
    simp only [State.dispatch_msg hbad hwork, State.dispatchMsg, hm, hcov, Bool.false_eq_true, if_false]
  refine ⟨_, exec_taskDispatch hsel hstill he, ?_⟩
  rw [hstart, Tile.unring_eq e ho]
  exact ⟨rfl, rfl, rfl, rfl, rfl, rfl, rfl, rfl⟩

/-- An entry whose word is uncorrectable is lost to the fault (R337, R346). -/
theorem taskDispatch_faults (hbad : e.word ∈ s.tile.view.bad) (ho : s.tile.task.overflow = []) :
    ∃ t f, exec .taskDispatch s = .next t ∧ t.tile.stop.pend = s.tile.stop.pend ++ [f] ∧ f.code = 0x80 ∧ f.hard = true ∧ f.agent = 5 ∧ f.addr = 0 ∧
      t.tile.task.rings = s.tile.task.rings.erase e ∧ t.tile.core.cur = s.tile.core.cur := by
  refine ⟨_, hardwareFault e.word false, exec_taskDispatch hsel hstill he, ?_⟩
  rw [State.dispatch_bad hbad, Tile.unring_eq e ho]
  exact ⟨rfl, rfl, rfl, rfl, rfl, rfl, rfl⟩

end Dispatch

/- Aging (R48). -/

/-- An entry that has waited its time and whose next class has room. -/
def Tile.promotable (t : Tile) (e : Entry) : Bool :=
  decide (Config.agingClk ≤ e.age) && decide (e.prio ≠ 0) && decide (t.ringCount (e.prio - 1) < 256)

/-- The entry as it stands at the tail of its next class, behind the entries given. -/
def Entry.promoted (e : Entry) (rings : List Entry) : Entry :=
  { e with prio := e.prio - 1, age := 0, native := some e.runs, slot := ringPlace rings (e.prio - 1) }

/-- The task unit with an entry moved to its next class. -/
def Tile.promote (t : Tile) (e : Entry) : Tile := { t.unring e with task.rings := (t.unring e).task.rings ++ [e.promoted (t.unring e).task.rings] }

theorem exec_agingPromotion (h : s.tile.task.rings.find? s.tile.promotable = some e) :
    exec .agingPromotion s = .next { s with tile := s.tile.promote e } := by
  change execAgingPromotion s = _
  unfold execAgingPromotion State.become
  dsimp only
  rw [show (s.tile.task.rings.find? fun e => decide (Config.agingClk ≤ e.age) && decide (e.prio ≠ 0) &&
    decide (s.tile.ringCount (e.prio - 1) < 256)) = some e from h]
  rfl

theorem agingPromotion_moves {l r : List Entry} (hrings : s.tile.task.rings = l ++ e :: r) (ho : s.tile.task.overflow = [])
    (hage : Config.agingClk ≤ e.age) (hprio : e.prio ≠ 0) (hroom : s.tile.ringCount (e.prio - 1) < 256) (hl : ∀ y ∈ l, y.age < Config.agingClk) :
    ∃ t, exec .agingPromotion s = .next t ∧ t.tile.task.rings = l ++ r ++ [e.promoted (l ++ r)] ∧ t.tile.core = s.tile.core := by
  have hfind : s.tile.task.rings.find? s.tile.promotable = some e := by
    rw [hrings]
    refine List.find?_eq_some_iff_append.2 ⟨?_, l, r, rfl, fun y hy => ?_⟩
    · simp only [Tile.promotable, hage, hprio, hroom, decide_true, ne_eq, not_false_eq_true, Bool.and_self]
    · simp [Tile.promotable, Nat.not_le.2 (hl y hy)]
  have herase : s.tile.task.rings.erase e = l ++ r := by
    rw [hrings, List.erase_append_right _ fun he => Nat.not_le.2 (hl e he) hage, List.erase_cons_head]
  refine ⟨_, exec_agingPromotion hfind, ?_⟩
  rw [Tile.promote, Tile.unring_eq e ho, herase]
  exact ⟨rfl, rfl⟩

/- Boosts (R54). -/

/-- A boost notice raises what it names among the membership entries. -/
def State.boosted (s : State) (p : Packet) (b : BarId) (c : BitVec 2) : State :=
  { s.unsend p with tile.task.members := s.tile.task.members.map fun m => m.map (·.raise b c) }

theorem exec_boostNotice {p : Packet} {b : BarId} {c : BitVec 2} (harr : s.arriving = some p)
    (hbody : (∃ h a, p.body = .boostCount c h a ∧ b = .count h a) ∨ ∃ n, p.body = .boostLine c n ∧ b = .line n) :
    exec .boostNotice s = .next (s.boosted p b c) := by
  change execBoostNotice s = _
  obtain ⟨h, a, hb, rfl⟩ | ⟨n, hb, rfl⟩ := hbody
  · simp only [execBoostNotice, State.become, harr, hb]
    rfl
  · simp only [execBoostNotice, State.become, harr, hb]
    rfl

/-- The first boost that an entry takes is its boost class. -/
theorem Member.raise_first {m : Member} {b : BarId} (c : BitVec 2) (hbar : m.bar = b) (harr : m.arrived = false) (hboost : m.boost = none) :
    m.raise b c = { m with boost := some c } := by
  simp [Member.raise, hbar, harr, hboost]

theorem boostNotice_boosts {p : Packet} {b : BarId} {c : BitVec 2} {k : Nat} {m : Member} (harr : s.arriving = some p)
    (hbody : (∃ h a, p.body = .boostCount c h a ∧ b = .count h a) ∨ ∃ n, p.body = .boostLine c n ∧ b = .line n)
    (hk : s.tile.task.members.toList[k]? = some (some m)) (hbar : m.bar = b) (hun : m.arrived = false) (hboost : m.boost = none) :
    ∃ t, exec .boostNotice s = .next t ∧ t.tile.task.members.toList[k]? = some (some { m with boost := some c }) ∧ t.net = s.net.erase p := by
  refine ⟨_, exec_boostNotice harr hbody, ?_, rfl⟩
  rw [State.boosted, Vector.toList_map, List.getElem?_map, hk, Option.map_some, Option.map_some, Member.raise_first c hbar hun hboost]

end TaskUnit

/-- Settles O38, clause by clause: the first entry of the lowest class that the rings hold is selected, and dispatch, aging and boosts each change what they name
of the task unit. -/
theorem taskUnit : Obligations.TaskUnit := by
  intro s
  refine ⟨fun x l r hm hrings hl hr => Tile.select_first hm hrings hl hr, fun e a hsel hstill he hbad hwork ho hmap hseek => ⟨?_, ?_⟩,
    fun e n m hsel hstill he hbad hwork ho hm hcov => taskDispatch_handles hsel hstill he hbad hwork ho hm hcov,
    fun e hsel hstill he hbad ho => taskDispatch_faults hsel hstill he hbad ho,
    fun e l r hrings ho hage hprio hroom hl => agingPromotion_moves hrings ho hage hprio hroom hl,
    fun p b c k m harr hbody hk hbar hun hboost => boostNotice_boosts harr hbody hk hbar hun hboost⟩
  · exact taskDispatch_starts hsel hstill he hbad hwork ho hmap hseek
  · exact taskDispatch_drops hsel hstill he hbad hwork ho hmap hseek

end Sys2Proof.Machine
end

section
/-!
What taking a fault leaves: the registers of R336 and the level halted (R335, R338), and a notice that ends no gang (R340, R344).
-/

namespace Sys2Proof.Machine

open Sys2Proof.Claims

/-- Setting sticky flags changes the flags and the faults that wait for a boundary alone (R343). -/
theorem Tile.setSticky_eq (t : Tile) (b : BitVec 12) (u : Bool) : ∃ fl dz mk ps,
    t.setSticky b u = { t with core := { t.core with tstat := fl, tdz := dz, mko := mk }, stop := { t.stop with pend := ps } } := by
  unfold Tile.setSticky
  dsimp only
  split
  · exact ⟨_, _, _, _, rfl⟩
  · exact ⟨_, _, _, _, rfl⟩

/-- MKO is set. -/
theorem Tile.setMko_mko (t : Tile) : t.setMko.core.mko = true := by
  unfold Tile.setMko Tile.setSticky
  dsimp only
  split
  · exact Bool.or_true _
  · exact Bool.or_true _

theorem causeWord_code (f : FaultRec) (idle discarded : Bool) (extra seq : Nat) : (causeWord f idle discarded extra seq).toNat % 256 = f.code.toNat := by
  have hlt := f.code.isLt
  unfold causeWord
  rw [BitVec.toNat_ofNat]
  split_ifs <;> omega

section Faults

variable {s : State}

/- Notices (R340, R344). -/

@[simp] theorem State.hostFault_tile (s : State) (cause : Word) (pc : Pc) (a i : Word) (e : Bool) (n : Nat) : (s.hostFault cause pc a i e n).tile = s.tile := rfl

/-- A notice to the host gives no residency a gang. -/
theorem State.myGang_hostFault_of_none (h : s.myGang = none) (cause : Word) (pc : Pc) (a i : Word) (e : Bool) (n : Nat) :
    (s.hostFault cause pc a i e n).myGang = none := by
  unfold State.myGang State.myCarrel at h ⊢
  rw [State.hostFault_tile]
  unfold State.hostFault State.notify
  rw [State.carrel_updCarrel _ _ _ _ (by intro _; rfl)]
  cases hc : s.carrel s.tile.id.carrel.toNat with
  | none => rfl
  | some c =>
    rw [hc, Option.bind_some, Option.map_eq_none_iff] at h
    rw [Option.map_some, Option.bind_some, Option.map_eq_none_iff]
    split
    · exact h
    · exact h

/-- A notice that its receiver can act on, or of a residency of no gang, leaves the tile as it is. -/
theorem State.sendNotice_tile (h : Notified s) : s.sendNotice.tile = s.tile := by
  unfold State.sendNotice
  dsimp only
  obtain hnone | ⟨n, p, hrec, -, hacts⟩ := h
  · have hrec : s.receiver = none := by
      unfold State.receiver
      rw [hnone]
      rfl
    rw [hrec]
    dsimp only
    unfold State.endGang
    rw [State.myGang_hostFault_of_none hnone]
    rfl
  · rw [hrec]
    dsimp only
    rw [hacts, if_pos rfl, State.hostFault_tile, State.emit_tile]

/-- Who is notified depends on the identity and the place of the faulting residency alone. -/
theorem State.notified_of_tile (h : Notified s) {u : Tile} (hid : u.id = s.tile.id) (hp : u.phys = s.tile.phys) : Notified { s with tile := u } := by
  have hgang : ({ s with tile := u } : State).myGang = s.myGang := by
    simp only [State.myGang, State.myCarrel, hid]
    rfl
  refine h.imp (fun hnone => hgang.trans hnone) ?_
  rintro ⟨n, p, hrec, hne, hacts⟩
  refine ⟨n, p, ?_, by rw [hp]; exact hne, ?_⟩
  · rw [← hrec]
    simp only [State.receiver, hgang, hid]
    rfl
  · rw [← hacts]
    simp only [State.receives, State.tileAt, hp, Ne.symm hne, if_false]

/- The fault itself (R335, R338). -/

/-- Neither level has work under way: c.fcause says that the residency was idle, and its pc is 0 (R336). -/
def State.idles (s : State) : Bool := !s.urgent && s.tile.core.phase != .running && s.tile.core.phase != .waiting

theorem State.idles_eq_false_iff : s.idles = false ↔ Busy s := by
  simp only [State.idles, Busy, Bool.and_eq_false_iff, Bool.not_eq_false', bne_eq_false_iff_eq, or_assoc]

/-- Work under way is not that of a residency that awaits its gang's retirement. -/
theorem State.ending_of_busy (h : Busy s) : s.ending = false := by
  unfold State.ending
  obtain h | h | h := h <;> simp [h]

/-- The registers of R336 as a fault leaves them, and its level halted; a far LDP that waits is abandoned (R50, R288). -/
def Tile.recordFault (t : Tile) (f : FaultRec) (pc : Pc) (idle : Bool) (ns : Nat) : Tile :=
  { t with stop.fcause := causeWord f idle false 0 ((causeSeq t.stop.fcause + 1) % 256), stop.fpc := pc, stop.faddr := f.addr, stop.finfo := f.info,
           stop.at_ := ns, stop.faulted := some t.core.level, core.wait := none, strm.farWord := none }

/-- The time of an urgent handler that a fault halts is accounted for (R52). -/
def Tile.payUrgent (t : Tile) (urgent : Bool) (now : Nat) : Tile :=
  if urgent then { t with core.urgentPast := (now - t.core.urgentClk, now) :: t.core.urgentPast, core.urgentClk := 0 } else t

/-- The masked window closes, where it is open at a fault of the normal level (R363). -/
def Tile.closeMask (t : Tile) (closes : Bool) : Tile :=
  if closes then { t with core.mask := none, core.maskPages := [] }.setMko else t

theorem Tile.payUrgent_eq (t : Tile) (u : Bool) (now : Nat) : ∃ l n, t.payUrgent u now = { t with core.urgentPast := l, core.urgentClk := n } := by
  unfold Tile.payUrgent
  split
  · exact ⟨_, _, rfl⟩
  · exact ⟨_, _, rfl⟩

theorem Tile.closeMask_eq (t : Tile) (b : Bool) : ∃ m ms fl dz mk ps, t.closeMask b =
    { t with core := { t.core with mask := m, maskPages := ms, tstat := fl, tdz := dz, mko := mk }, stop := { t.stop with pend := ps } } := by
  unfold Tile.closeMask
  split
  · obtain ⟨_, _, _, _, h⟩ := Tile.setSticky_eq { t with core.mask := none, core.maskPages := [] } 0x800 false
    exact ⟨_, _, _, _, _, _, h⟩
  · exact ⟨_, _, _, _, _, _, rfl⟩

/-- The residency as a recorded fault leaves it, before anyone is notified. -/
def State.recordFault (s : State) (f : FaultRec) (pc : Pc) : State :=
  { s with tile := ((s.tile.recordFault f pc s.idles s.fld.ns).payUrgent s.urgent s.fld.clk).closeMask (s.tile.core.mask.isSome && !s.urgent) }

/-- Beyond the fault registers, a recorded fault changes the wait, urgent time, the masked window and its flag, and a far word alone. -/
theorem State.recordFault_eq (s : State) (f : FaultRec) (pc : Pc) : ∃ l n m ms fl dz mk ps, s.recordFault f pc =
    { s with tile := { s.tile.recordFault f pc s.idles s.fld.ns with
      core := { (s.tile.recordFault f pc s.idles s.fld.ns).core with
        urgentPast := l, urgentClk := n, mask := m, maskPages := ms, tstat := fl, tdz := dz, mko := mk },
      stop := { (s.tile.recordFault f pc s.idles s.fld.ns).stop with pend := ps } } } := by
  obtain ⟨l, n, hpay⟩ := (s.tile.recordFault f pc s.idles s.fld.ns).payUrgent_eq s.urgent s.fld.clk
  obtain ⟨m, ms, fl, dz, mk, ps, hmask⟩ := Tile.closeMask_eq { s.tile.recordFault f pc s.idles s.fld.ns with core.urgentPast := l, core.urgentClk := n }
    (s.tile.core.mask.isSome && !s.urgent)
  exact ⟨l, n, m, ms, fl, dz, mk, ps, by rw [State.recordFault, hpay, hmask]⟩

theorem State.recordFault_recorded (s : State) (f : FaultRec) (pc : Pc) : Recorded s (s.recordFault f pc) f.code.toNat pc f.addr f.info := by
  obtain ⟨l, n, m, ms, fl, dz, mk, ps, h⟩ := s.recordFault_eq f pc
  rw [h]
  exact ⟨rfl, causeWord_code .., rfl, rfl, rfl, rfl, rfl, rfl, rfl⟩

theorem State.notified_recordFault (h : Notified s) (f : FaultRec) (pc : Pc) : Notified (s.recordFault f pc) := by
  obtain ⟨l, n, m, ms, fl, dz, mk, ps, hrec⟩ := s.recordFault_eq f pc
  rw [hrec]
  exact State.notified_of_tile h rfl rfl

/-- A fault of a residency that is not faulted, that no cancel covers and whose gang goes on is recorded, and its notice follows. -/
theorem State.takeFaultThen_eq (leave : State → State) {f : FaultRec} (pc : Pc) (hard : f.hard = false) (hrec : Recordable s) (hend : s.ending = false) :
    s.takeFaultThen leave f pc = (s.recordFault f (if s.idles then 0 else pc)).sendNotice := by
  obtain ⟨-, hfaulted, hcov, -⟩ := hrec
  unfold State.takeFaultThen
  simp only [hard, hfaulted, hend, hcov, Option.isSome_none, Bool.or_self, Bool.and_false, Bool.false_and, Bool.false_eq_true, if_false]
  rfl

theorem State.takeFaultThen_recorded (leave : State → State) {f : FaultRec} (pc : Pc) (hard : f.hard = false) (hrec : Recordable s) (hend : s.ending = false) :
    Recorded s (s.takeFaultThen leave f pc) f.code.toNat (if s.idles then 0 else pc) f.addr f.info := by
  have hnotified : Notified s := by
    obtain ⟨-, -, -, hn⟩ := hrec
    exact hn
  have htile := State.sendNotice_tile (State.notified_recordFault hnotified f (if s.idles then 0 else pc))
  have hrecorded := s.recordFault_recorded f (if s.idles then 0 else pc)
  rw [State.takeFaultThen_eq leave pc hard hrec hend]
  unfold Recorded at hrecorded ⊢
  rw [htile]
  exact hrecorded

/-- The fault of work under way is recorded at its pc. -/
theorem State.takeFault_recorded {f : FaultRec} (pc : Pc) (hard : f.hard = false) (hrec : Recordable s) (hbusy : Busy s) :
    Recorded s (s.takeFault f pc) f.code.toNat pc f.addr f.info := by
  have h := State.takeFaultThen_recorded State.urgentDone pc hard hrec (State.ending_of_busy hbusy)
  rwa [State.idles_eq_false_iff.2 hbusy, if_neg (by decide)] at h

/-- So is a precise fault, outside steward mode. -/
theorem State.precise_recorded {f : FaultRec} (hard : f.hard = false) (hrec : Recordable s) (hbusy : Busy s) :
    Recorded s (s.precise f) f.code.toNat s.tile.core.cur.pc f.addr f.info := by
  have hsteward : s.onSteward = false := by
    obtain ⟨h, -⟩ := hrec
    exact h
  unfold State.precise
  rw [hsteward, if_neg (by decide)]
  exact State.takeFault_recorded (f := { f with precise := true, urgent := s.urgent }) _ hard hrec hbusy

end Faults

end Sys2Proof.Machine
end

section
/-!
O39: the urgent level and the limits on work (R35, R49 to R53, R361).
-/

namespace Sys2Proof.Machine

open Sys2Proof.Claims

section Limits

variable {s : State}

/- An urgent message (R49 to R51). -/

/-- The held header that an arriving urgent SEND becomes: whether its class is enabled is settled as it comes (R359). -/
def Tile.urgentArrival (t : Tile) (p : Packet) (tag : Word) (bs : List Byte) : Msg :=
  { t.arrival p tag bs with urgent := true, dead := !(t.handler p.hdr.cls).2 }

/-- The tile that holds a header, with the latch bit of a message's arrival (R247). -/
def Tile.hold (t : Tile) (m : Msg) : Tile :=
  ({ (t.fillGranules m.grans) with task.urgents := t.task.urgents ++ [m], task.nextMsg := m.id + 1 }).latch 0

theorem exec_urgentRequest {p : Packet} {tag : Word} {bs : List Byte} (hc : Comes s p (.send tag bs)) (hw : s.sendWay p tag = .urgent)
    (hroom : s.tile.task.urgents.length < 4) (hg : s.tile.granulesUsed + granules bs.length ≤ 192) :
    let held : State := { (s.unsend p).ackTo p .performed 0 with tile := s.tile.hold (s.tile.urgentArrival p tag bs) }
    exec .urgentRequest s = .next (if (s.tile.urgentArrival p tag bs).dead then held else held.countMessage p.hdr.cls bs.length) := by
  obtain ⟨harr, hbody, hta⟩ := hc
  have hfull : (decide (4 ≤ s.tile.task.urgents.length) || decide (192 < s.tile.granulesUsed + granules bs.length)) = false := by
    simp [hroom, hg]
  change execUrgentRequest s = _
  simp only [execUrgentRequest, State.become, harr, hbody, hta, hw, hfull, State.ackTo_tile, State.unsend_tile]
  rfl

theorem urgentRequest_holds {p : Packet} {tag : Word} {bs : List Byte} (hc : Comes s p (.send tag bs)) (hw : s.sendWay p tag = .urgent)
    (hroom : s.tile.task.urgents.length < 4) (hg : s.tile.granulesUsed + granules bs.length ≤ 192) (ha : s.tile.task.armed = []) :
    ∃ t m, exec .urgentRequest s = .next t ∧ t.tile.task.urgents = s.tile.task.urgents ++ [m] ∧ m.cls = p.hdr.cls ∧ m.tag = tag ∧
      m.src = p.hdr.src ∧ m.scope = p.hdr.scope ∧ m.payload = bs ∧ m.dead = !(s.tile.handler p.hdr.cls).2 ∧ t.tile.core.cur = s.tile.core.cur := by
  refine ⟨_, s.tile.urgentArrival p tag bs, exec_urgentRequest hc hw hroom hg, ?_⟩
  split
  · exact ⟨rfl, rfl, rfl, rfl, rfl, rfl, rfl, rfl⟩
  · obtain ⟨cnt, l, hcount⟩ := State.countMessage_countsFrom
      (s := { (s.unsend p).ackTo p .performed 0 with tile := s.tile.hold (s.tile.urgentArrival p tag bs) }) (by exact ha) p.hdr.cls bs.length
    rw [hcount]
    exact ⟨rfl, rfl, rfl, rfl, rfl, rfl, rfl, rfl⟩

theorem urgentAccept_enters {m : Msg} {ms : List Msg} (hurg : s.tile.task.urgents = m :: ms) (hacc : s.acceptable = true) (hstill : s.still = false)
    (hcov : s.coveredBy m.scope = false) (hdead : m.dead = false) :
    ∃ t, exec .urgentAccept s = .next t ∧ t.urgent = true ∧ t.tile.core.halt = some s.tile.core.cur ∧
      t.tile.core.cur.pc = (s.tile.handler m.cls).1 ∧ t.tile.core.cur.tag = m.tag ∧ t.tile.core.cur.src = m.src ∧
      t.tile.core.cur.scope = m.scope ∧ t.tile.core.cur.loops = [] ∧ t.tile.task.urgents = ms ∧ t.tile.core.normal = s.tile.core.normal ∧
      t.tile.core.phase = s.tile.core.phase := by
  have hexec : exec .urgentAccept s = .next { s with tile := s.tile.enterUrgent m } := by
    change execUrgentAccept s = _
    simp only [execUrgentAccept, State.become, hurg, hstill, hcov, hdead, hacc, Bool.false_eq_true, if_false, if_true]
  have hrest : (s.tile.enterUrgent m).task.urgents = ms := by
    change s.tile.task.urgents.drop 1 = ms
    rw [hurg]
    rfl
  exact ⟨_, hexec, rfl, rfl, rfl, rfl, rfl, rfl, rfl, hrest, rfl, rfl⟩

/-- The fault of a held header whose class was not enabled when it came (R359). -/
def State.undelivered (s : State) (m : Msg) : FaultRec :=
  undeliverable { dst := s.tile.id.name, src := m.src, scope := m.scope, cls := m.cls, prio := m.prio, urgent := true, carrel := s.tile.id.carrel } m.tag false

theorem urgentAccept_removes {m : Msg} {ms : List Msg} (hurg : s.tile.task.urgents = m :: ms) (hstill : s.still = false)
    (hcov : s.coveredBy m.scope = false) (hdead : m.dead = true) :
    ∃ t f, exec .urgentAccept s = .next t ∧ t.tile.task.urgents = ms ∧ t.tile.core = s.tile.core ∧ t.tile.stop.pend = s.tile.stop.pend ++ [f] ∧
      f.code = 0x0E := by
  have hexec : exec .urgentAccept s = .next { s with tile := { s.tile with task.urgents := ms }.addPend (s.undelivered m) } := by
    change execUrgentAccept s = _
    simp only [execUrgentAccept, State.become, hurg, hstill, hcov, hdead, Bool.false_eq_true, if_false, if_true]
    rfl
  exact ⟨_, s.undelivered m, hexec, rfl, rfl, rfl, rfl⟩

theorem urgentOverrun_faults (hurg : s.urgent = true) (hlim : Config.urgentLimit ≤ s.tile.core.urgentClk) (hrec : Recordable s) :
    ∃ t, exec .urgentOverrun s = .next t ∧ Recorded s t 0x0D s.tile.core.cur.pc 0 0 := by
  have hexec : exec .urgentOverrun s = .next (s.takeFault { code := 0x0D, urgent := true, agent := 5 } s.tile.core.cur.pc) := by
    obtain ⟨-, hfaulted, -, -⟩ := hrec
    change execUrgentOverrun s = _
    simp [execUrgentOverrun, State.become, hurg, hlim, hfaulted]
  exact ⟨_, hexec, State.takeFault_recorded (f := { code := 0x0D, urgent := true, agent := 5 }) _ rfl hrec (.inl hurg)⟩

/- Limits of the normal level (R35, R53, R361). -/

theorem maskWindowTimeout_closes {n : Nat} (hmask : s.tile.core.mask = some n) (hlim : Config.maskLimit ≤ n) :
    ∃ t, exec .maskWindowTimeout s = .next t ∧ t.tile.core.mask = none ∧ t.tile.core.mko = true ∧ t.tile.core.cur = s.tile.core.cur := by
  have hexec : exec .maskWindowTimeout s = .next { s with tile := { s.tile with core.mask := none, core.maskPages := [] }.setMko } := by
    change execMaskWindowTimeout s = _
    simp [execMaskWindowTimeout, State.become, hmask, hlim]
  refine ⟨_, hexec, ?_, Tile.setMko_mko _, ?_⟩
  all_goals
    obtain ⟨_, _, _, _, h⟩ := Tile.setSticky_eq { s.tile with core.mask := none, core.maskPages := [] } 0x800 false
    rw [Tile.setMko, h]

@[simp] theorem Tile.endWork_phase (t : Tile) (ph : Phase) : (t.endWork ph).core.phase = ph := rfl
@[simp] theorem Tile.endWork_work (t : Tile) (ph : Phase) : (t.endWork ph).core.cur.work = .none := rfl
@[simp] theorem Tile.endWork_loops (t : Tile) (ph : Phase) : (t.endWork ph).core.cur.loops = [] := rfl

/-- A kill ends the work that it finds and withdraws from its barriers (R36, R38, R242). -/
theorem State.kill_tile (s : State) (f : Word → Bool) : ∃ (t : Tile) (ms : _), (s.kill f).tile = { t.endWork .idle with task.members := ms } := by
  unfold State.kill
  dsimp only
  obtain ⟨ms, h⟩ := State.withdrawAll_tile (s := { s with tile := Tile.endWork _ .idle }) f false
  exact ⟨_, ms, h⟩

theorem killCounterExpiry_kills {n : Nat} (hkill : s.tile.core.cur.kill = some n) (hlim : Config.haltLimit ≤ n) (hcov : s.workCovered = true) :
    ∃ t, exec .killCounterExpiry s = .next t ∧ t.tile.core.phase = .idle ∧ t.tile.core.cur.work = .none ∧ t.tile.core.cur.loops = [] := by
  have hurg : s.urgent = false := by
    simp only [State.workCovered, Bool.and_eq_true, Bool.not_eq_true'] at hcov
    obtain ⟨⟨hurg, -⟩, -⟩ := hcov
    exact hurg
  have hexec : exec .killCounterExpiry s = .next s.killCovered := by
    change execKillCounterExpiry s = _
    simp [execKillCounterExpiry, State.become, hurg, hkill, hlim, hcov]
  obtain ⟨t, ms, htile⟩ := s.kill_tile s.coveredBy
  refine ⟨_, hexec, ?_⟩
  rw [State.killCovered, htile]
  exact ⟨t.endWork_phase _, t.endWork_work _, t.endWork_loops _⟩

theorem waitConditionMet_runs (hph : s.tile.core.phase = .waiting) (hurg : s.urgent = false) (hpaused : s.fld.paused = false)
    (hover : ∀ w, s.tile.core.wait = some w → s.waitOver w = true) :
    exec .waitConditionMet s = .next { s with tile.core.phase := .running } := by
  have hmet : (s.tile.core.wait.map s.waitOver).getD true = true := by
    cases hw : s.tile.core.wait with
    | none => rfl
    | some w => exact hover w hw
  change execWaitConditionMet s = _
  simp [execWaitConditionMet, State.become, hph, hurg, hpaused, hmet]

/-- The fault of a wait beyond the carrel's limit (R361). -/
def State.overlong (s : State) (w : Wait) : FaultRec := { code := 0x16, addr := w.addr, info := BitVec.ofNat 32 (w.reason + 65536 * s.waitLimit) }

theorem waitWatchdogExpiry_faults {w : Wait} (hw : s.tile.core.wait = some w) (hset : s.waitLimit ≠ 0)
    (hlim : s.waitLimit * Config.watchdogUnit ≤ w.clk) (hurg : s.urgent = false) (hbusy : Busy s) (hrec : Recordable s) :
    ∃ t, exec .waitWatchdogExpiry s = .next t ∧
      Recorded s t 0x16 s.tile.core.cur.pc w.addr (BitVec.ofNat 32 (w.reason + 65536 * s.waitLimit)) := by
  have hexec : exec .waitWatchdogExpiry s = .next (({ s with tile.strm.farWord := none } : State).precise (s.overlong w)) := by
    change execWaitWatchdogExpiry s = _
    simp only [execWaitWatchdogExpiry, State.become, hw, hset, Nat.not_lt.2 hlim, hurg, Bool.false_eq_true, or_self, if_false]
    rfl
  obtain ⟨hsteward, hfaulted, hcov, hnotified⟩ := hrec
  exact ⟨_, hexec, State.precise_recorded (s := { s with tile.strm.farWord := none }) (f := s.overlong w) rfl
    ⟨hsteward, hfaulted, hcov, State.notified_of_tile hnotified rfl rfl⟩ hbusy⟩

end Limits

/-- Settles O39, clause by clause: the urgent message is held, accepted or removed, and a level that has run into its limit meets the fault, the kill or the end of
its wait. -/
theorem urgentLevelAndLimits : Obligations.UrgentLevelAndLimits := fun _ =>
  ⟨fun _ _ _ hc hw hroom hg ha => urgentRequest_holds hc hw hroom hg ha,
    fun _ _ hurg hacc hstill hcov hdead => urgentAccept_enters hurg hacc hstill hcov hdead,
    fun _ _ hurg hstill hcov hdead => urgentAccept_removes hurg hstill hcov hdead,
    fun hurg hlim hrec => urgentOverrun_faults hurg hlim hrec,
    fun _ hmask hlim => maskWindowTimeout_closes hmask hlim,
    fun _ hkill hlim hcov => killCounterExpiry_kills hkill hlim hcov,
    fun hph hurg hpaused hover => waitConditionMet_runs hph hurg hpaused hover,
    fun _ hw hset hlim hurg hbusy hrec => waitWatchdogExpiry_faults hw hset hlim hurg hbusy hrec⟩

end Sys2Proof.Machine
end

section
/-!
What the fields and the tiles read after an update of one of them, and which updates leave them alone.
-/

namespace Sys2Proof.Machine

section Places

variable (s : State)

/- Fields. -/

theorem find?_putField (g : Field) (f : Nat × Nat) (l : List Field) :
    (putField g l).find? (fun h => h.fx == f.1 && h.fy == f.2) =
      if g.fx = f.1 ∧ g.fy = f.2 then some g else l.find? fun h => h.fx == f.1 && h.fy == f.2 := by
  induction l with
  | nil => simp only [putField, List.find?_singleton, Bool.and_eq_true, beq_iff_eq, List.find?_nil]
  | cons h l ih =>
    by_cases hh : h.fx = g.fx ∧ h.fy = g.fy
    · rw [putField, if_pos hh, List.find?_cons, List.find?_cons, hh.1, hh.2]
      by_cases hg : g.fx = f.1 ∧ g.fy = f.2
      · simp [hg]
      · rw [if_neg hg, show (g.fx == f.1 && g.fy == f.2) = false by simpa using hg]
    · rw [putField, if_neg hh, List.find?_cons, List.find?_cons, ih]
      by_cases hf : h.fx = f.1 ∧ h.fy = f.2
      · rw [show (h.fx == f.1 && h.fy == f.2) = true by simpa using hf]
        exact (if_neg fun hg => hh ⟨hf.1.trans hg.1.symm, hf.2.trans hg.2.symm⟩).symm
      · rw [show (h.fx == f.1 && h.fy == f.2) = false by simpa using hf]

/-- The field at a place says that it is there. -/
theorem State.fieldAt_place (f : Nat × Nat) : (s.fieldAt f).fx = f.1 ∧ (s.fieldAt f).fy = f.2 := by
  unfold State.fieldAt
  cases h : s.flds.find? fun g => g.fx == f.1 && g.fy == f.2 with
  | none => exact ⟨rfl, rfl⟩
  | some g => simpa using List.find?_some h

theorem State.fieldAt_congr {s t : State} (h : t.flds = s.flds) (f : Nat × Nat) : t.fieldAt f = s.fieldAt f := by
  unfold State.fieldAt
  rw [h]

theorem State.fieldAt_updField (f g : Nat × Nat) {h : Field → Field} (hp : ∀ k, (h k).fx = k.fx ∧ (h k).fy = k.fy) :
    (s.updField f h).fieldAt g = if f = g then h (s.fieldAt f) else s.fieldAt g := by
  obtain ⟨hfx, hfy⟩ := s.fieldAt_place f
  change ((putField (h (s.fieldAt f)) s.flds).find? _).getD _ = _
  rw [find?_putField, (hp _).1, (hp _).2, hfx, hfy]
  by_cases he : f = g
  · rw [if_pos ⟨congrArg Prod.fst he, congrArg Prod.snd he⟩, if_pos he]
    rfl
  · rw [if_neg fun hfg => he (Prod.ext hfg.1 hfg.2), if_neg he]
    rfl

theorem State.fieldAt_updField_self (f : Nat × Nat) {h : Field → Field} (hp : ∀ k, (h k).fx = k.fx ∧ (h k).fy = k.fy) :
    (s.updField f h).fieldAt f = h (s.fieldAt f) := by
  rw [s.fieldAt_updField f f hp, if_pos rfl]

@[simp] theorem State.updField_tile (f : Nat × Nat) (h : Field → Field) : (s.updField f h).tile = s.tile := rfl
@[simp] theorem State.updField_tileAt (f : Nat × Nat) (h : Field → Field) : (s.updField f h).tileAt = s.tileAt := rfl
@[simp] theorem State.updField_groupCarrel (f : Nat × Nat) (h : Field → Field) : (s.updField f h).groupCarrel = s.groupCarrel := rfl

/- Tiles. -/

theorem find?_putTile (t : Tile) (q : Phys) (l : List Tile) :
    (putTile t l).find? (·.phys = q) = if t.phys = q then some t else l.find? (·.phys = q) := by
  induction l with
  | nil => simp only [putTile, List.find?_singleton, decide_eq_true_eq, List.find?_nil]
  | cons u l ih =>
    by_cases hu : u.phys = t.phys
    · rw [putTile, if_pos hu, List.find?_cons, List.find?_cons, hu]
      by_cases ht : t.phys = q <;> simp [ht]
    · rw [putTile, if_neg hu, List.find?_cons, List.find?_cons, ih]
      by_cases hq : u.phys = q
      · simp [hq, show ¬ t.phys = q from fun ht => hu (hq.trans ht.symm)]
      · simp [hq]

/-- The tile at a coordinate says that it is there. -/
@[simp] theorem State.tileAt_phys (q : Phys) : (s.tileAt q).phys = q := by
  unfold State.tileAt
  split
  · assumption
  · cases h : s.rest.find? (·.phys = q) with
    | none => rfl
    | some u => simpa using List.find?_some h

@[simp] theorem State.tileAt_here : s.tileAt s.tile.phys = s.tile := if_pos rfl

theorem State.tileAt_setTile (t : Tile) (q : Phys) : (s.setTile t).tileAt q = if t.phys = q then t else s.tileAt q := by
  unfold State.setTile
  split
  · next h => simp only [State.tileAt, h]; split_ifs <;> rfl
  · next h =>
    simp only [State.tileAt, find?_putTile]
    by_cases ht : t.phys = q
    · rw [if_neg fun hq => h (hq.trans ht.symm), if_pos ht, if_pos ht]
      rfl
    · rw [if_neg ht, if_neg ht]

theorem State.setTile_here {t : Tile} (h : t.phys = s.tile.phys) : s.setTile t = { s with tile := t } := if_pos h.symm

theorem State.setTile_tile_of_ne {t : Tile} (h : t.phys ≠ s.tile.phys) : (s.setTile t).tile = s.tile := by
  unfold State.setTile
  rw [if_neg (Ne.symm h)]

@[simp] theorem State.setTile_flds (t : Tile) : (s.setTile t).flds = s.flds := by
  unfold State.setTile
  split <;> rfl

@[simp] theorem State.updTile_flds (q : Phys) (f : Tile → Tile) : (s.updTile q f).flds = s.flds := State.setTile_flds ..

@[simp] theorem State.setTile_net (t : Tile) : (s.setTile t).net = s.net := by
  unfold State.setTile
  split <;> rfl

@[simp] theorem State.setTile_inp (t : Tile) : (s.setTile t).inp = s.inp := by
  unfold State.setTile
  split <;> rfl

theorem State.tileAt_updTile_self (q : Phys) {f : Tile → Tile} (hp : ∀ t, (f t).phys = t.phys) : (s.updTile q f).tileAt q = f (s.tileAt q) := by
  unfold State.updTile
  rw [State.tileAt_setTile, if_pos ((hp _).trans (s.tileAt_phys q))]

theorem State.updTile_here (f : Tile → Tile) (h : (f s.tile).phys = s.tile.phys) : s.updTile s.tile.phys f = { s with tile := f s.tile } := by
  unfold State.updTile
  rw [State.tileAt_here, State.setTile_here _ h]

/-- What every update of a tile keeps, is kept of the tile in focus. -/
theorem State.updTile_keeps {α : Type} (keep : Tile → α) (q : Phys) {f : Tile → Tile} (hp : ∀ t, (f t).phys = t.phys) (hf : ∀ t, keep (f t) = keep t) :
    keep (s.updTile q f).tile = keep s.tile := by
  by_cases h : s.tile.phys = q
  · subst h
    rw [State.updTile_here _ _ (hp _)]
    exact hf _
  · unfold State.updTile
    rw [State.setTile_tile_of_ne]
    rw [hp, State.tileAt_phys]
    exact Ne.symm h

/- Messages, tokens, events. -/

@[simp] theorem State.emitFrom_flds (q : Phys) (p : Packet) : (s.emitFrom q p).flds = s.flds := by
  unfold State.emitFrom
  split <;> rfl

/-- A message to a coordinate leaves, whatever its name. -/
theorem State.emitFrom_dest (q : Phys) {p : Packet} {d : Phys} (h : p.dest = some d) :
    ∃ r, (s.emitFrom q p).net = s.net ++ [r] ∧ r.hdr = p.hdr ∧ r.body = p.body ∧ r.dest = p.dest ∧ r.origin = q := by
  unfold State.emitFrom State.leads
  rw [h]
  exact ⟨_, rfl, rfl, rfl, h, rfl⟩

@[simp] theorem State.tokenAt_flds (q : Phys) (id : Option Nat) (x : Word) : (s.tokenAt q id x).flds = s.flds := State.updTile_flds ..

@[simp] theorem State.stewardEvent_flds (f : Nat × Nat) (n : Nat) (a i : Word) : (s.stewardEvent f n a i).flds = s.flds := State.updTile_flds ..

@[simp] theorem State.stewardEvent_inp (f : Nat × Nat) (n : Nat) (a i : Word) : (s.stewardEvent f n a i).inp = s.inp := State.setTile_inp ..

theorem Tile.stewardEvent_eq (t : Tile) (e : Exn) : ∃ l, t.stewardEvent e = { t with stw.exns := l } := by
  unfold Tile.stewardEvent
  split
  · exact ⟨_, rfl⟩
  · exact ⟨_, rfl⟩

end Places

end Sys2Proof.Machine
end

section
/-!
What a staged slot of a group reads in the next generation (R60 to R62), and what a publish keeps of its field (R61).
-/

namespace Sys2Proof.Machine

/- Generations. -/

theorem slotGen_slotSetGen (c : CatSlot) (n : BitVec 16) : slotGen (slotSetGen c n) = n := by
  apply BitVec.eq_of_toNat_eq
  have hc := c.isLt
  have hn := n.isLt
  simp only [slotGen, slotSetGen, BitVec.toNat_ofNat] at *
  omega

theorem atOrBefore_refl (n : BitVec 16) : atOrBefore n n = true := by simp [atOrBefore]

/-- Of two generations less than half the circle apart only one is at or before the other. -/
theorem atOrBefore_antisymm {a b : BitVec 16} (h : atOrBefore a b = true) (hne : a ≠ b) : atOrBefore b a = false := by
  simp only [atOrBefore, decide_eq_true_eq, decide_eq_false_iff_not] at *
  bv_omega

/- Entries. -/

section Entries

variable (f : Field) (n : BitVec 16) (g i : Nat) (c : CatSlot)

@[simp] theorem Field.entry_setEntry (e : GroupEntry) : (f.setEntry g e).entry i = if i = g then e else f.entry i := by
  unfold Field.entry Field.setEntry
  by_cases h : i = g
  · simp [h]
  · simp only [List.find?_cons, h, show (g = i) = False from eq_false (Ne.symm h), decide_false, if_false, List.find?_filter]
    congr 3
    funext x
    by_cases hx : x.1 = i <;> simp [hx, h]

/-- Writing a slot changes the catalogue of a field alone. -/
theorem Field.write_eq : ∃ l, f.write n g c = { f with cat := l } := by
  unfold Field.write
  dsimp only
  split_ifs <;> exact ⟨_, rfl⟩

theorem Field.stage_eq : ∃ l, f.stage g c = { f with cat := l } := Field.write_eq ..

theorem Field.entry_write_of_ne (h : i ≠ g) : (f.write n g c).entry i = f.entry i := by
  unfold Field.write
  dsimp only
  split_ifs <;> simp [h]

/-- A slot written in a generation that its group does not hold yet takes the place of one of the two. -/
theorem Field.entry_write (ha : slotGen (f.entry g).a ≠ n) (hb : slotGen (f.entry g).b ≠ n) :
    (f.write n g c).entry g = { f.entry g with a := slotSetGen c n } ∨ (f.write n g c).entry g = { f.entry g with b := slotSetGen c n } := by
  unfold Field.write
  dsimp only
  rw [if_neg ha, if_neg hb]
  split_ifs <;> simp

/-- What waits to be published has no part in a write of a slot. -/
theorem Field.write_queued (l : List PubReq) : ({ f with queued := l } : Field).write n g c = { f.write n g c with queued := l } := by
  have hentry : ({ f with queued := l } : Field).entry g = f.entry g := rfl
  simp only [Field.write, hentry]
  split_ifs <;> rfl

theorem Field.stage_queued (l : List PubReq) : ({ f with queued := l } : Field).stage g c = { f.stage g c with queued := l } :=
  Field.write_queued f (f.genWord + 1) g c l

end Entries

/-- The slot of the newest generation is the one that is read (R62). -/
theorem Field.readEntry_newest {f : Field} {g : Nat} {x : CatSlot} (hx : slotGen x = f.genWord) (e : GroupEntry)
    (he : f.entry g = { e with a := x } ∧ slotGen e.b ≠ f.genWord ∨ f.entry g = { e with b := x }) : f.readEntry g = x := by
  unfold Field.readEntry
  dsimp only
  obtain ⟨he, hb⟩ | he := he
  · have hnew : (atOrBefore (slotGen e.b) f.genWord && atOrBefore f.genWord (slotGen e.b)) = false := by
      cases h : atOrBefore (slotGen e.b) f.genWord with
      | false => rfl
      | true => simp [atOrBefore_antisymm h hb]
    simp only [he, hx, atOrBefore_refl, Bool.true_and, if_true]
    split_ifs with h1 h2
    · simp [h1, h2] at hnew
    · rfl
    · rfl
  · simp only [he, hx, atOrBefore_refl, Bool.and_true]
    split_ifs <;> rfl

/-- So of what is written for the next generation, once the field's is that. -/
theorem Field.readEntry_next {f : Field} {g : Nat} {n : BitVec 16} {x : CatSlot} (hx : slotGen x = n) (e : GroupEntry)
    (he : f.entry g = { e with a := x } ∧ slotGen e.b ≠ n ∨ f.entry g = { e with b := x }) : ({ f with genWord := n } : Field).readEntry g = x :=
  Field.readEntry_newest (f := { f with genWord := n }) hx e he

/- Staged changes and the refresh. -/

theorem Field.stageChange_eq (f : Field) (x : SlotChange) : ∃ l, f.stageChange x = { f with cat := l } := by
  cases x with
  | place g m p =>
    unfold Field.stageChange
    dsimp only
    split
    · exact f.stage_eq ..
    · exact ⟨_, rfl⟩
  | spare g n => exact f.stage_eq ..

theorem Field.stageChange_queued (f : Field) (x : SlotChange) (l : List PubReq) :
    ({ f with queued := l } : Field).stageChange x = { f.stageChange x with queued := l } := by
  cases x with
  | place g m p =>
    have hlatest : ({ f with queued := l } : Field).latest g = f.latest g := rfl
    have hread : ({ f with queued := l } : Field).readEntry g = f.readEntry g := rfl
    simp only [Field.stageChange, hlatest, hread]
    split
    · exact f.stage_queued ..
    · rfl
  | spare g n => exact f.stage_queued ..

theorem Field.foldl_stageChange_eq (f : Field) (xs : List SlotChange) : ∃ l, xs.foldl Field.stageChange f = { f with cat := l } := by
  induction xs generalizing f with
  | nil => exact ⟨_, rfl⟩
  | cons x xs ih =>
    obtain ⟨l, hl⟩ := f.stageChange_eq x
    obtain ⟨k, hk⟩ := ih (f.stageChange x)
    exact ⟨k, by rw [List.foldl_cons, hk, hl]⟩

/-- One group of the refresh of R61. -/
def Field.refreshOne (f : Field) (g : Nat) : Field :=
  if !f.writtenIn (f.genWord + 1) g && slotGen (f.readEntry g) == f.genWord + 1 - 16384 then f.stage g (f.readEntry g) else f

theorem Field.refresh_eq_foldl (f : Field) : f.refresh = (List.range 2048).foldl Field.refreshOne f := rfl

theorem Field.refreshOne_eq (f : Field) (g : Nat) : ∃ l, f.refreshOne g = { f with cat := l } := by
  unfold Field.refreshOne
  split
  · exact f.stage_eq ..
  · exact ⟨_, rfl⟩

theorem Field.refresh_eq (f : Field) : ∃ l, f.refresh = { f with cat := l } := by
  rw [Field.refresh_eq_foldl]
  refine List.foldlRecOn (motive := fun h : Field => ∃ l, h = { f with cat := l }) _ _ ⟨_, rfl⟩ fun h hh g _ => ?_
  obtain ⟨l, rfl⟩ := hh
  obtain ⟨k, hk⟩ := Field.refreshOne_eq { f with cat := l } g
  exact ⟨k, hk⟩

theorem Field.refreshOne_queued (f : Field) (g : Nat) (l : List PubReq) :
    ({ f with queued := l } : Field).refreshOne g = { f.refreshOne g with queued := l } := by
  have hwritten : ({ f with queued := l } : Field).writtenIn (f.genWord + 1) g = f.writtenIn (f.genWord + 1) g := rfl
  have hread : ({ f with queued := l } : Field).readEntry g = f.readEntry g := rfl
  simp only [Field.refreshOne, hwritten, hread]
  split
  · exact f.stage_queued ..
  · rfl

theorem Field.refresh_queued (f : Field) (l : List PubReq) : ({ f with queued := l } : Field).refresh = { f.refresh with queued := l } := by
  obtain ⟨gs, hgs⟩ : ∃ gs : List Nat, ∀ h : Field, h.refresh = gs.foldl Field.refreshOne h := ⟨_, Field.refresh_eq_foldl⟩
  rw [hgs, hgs]
  exact List.foldl_hom (fun h : Field => { h with queued := l }) fun h g => h.refreshOne_queued g l

theorem Field.writtenIn_iff (f : Field) (n : BitVec 16) (g : Nat) : f.writtenIn n g = true ↔ slotGen (f.entry g).a = n ∨ slotGen (f.entry g).b = n := by
  simp only [Field.writtenIn, Bool.or_eq_true, beq_iff_eq]

/-- The refresh leaves a group that is written already. -/
theorem Field.entry_refresh {f : Field} {g : Nat} (h : f.writtenIn (f.genWord + 1) g = true) : f.refresh.entry g = f.entry g := by
  rw [Field.refresh_eq_foldl]
  refine (List.foldlRecOn (motive := fun k : Field => k.genWord = f.genWord ∧ k.entry g = f.entry g) _ _ ⟨rfl, rfl⟩ fun k hk i _ => ?_).2
  obtain ⟨hgen, hentry⟩ := hk
  have hwritten : k.writtenIn (k.genWord + 1) g = true := by
    unfold Field.writtenIn at h ⊢
    rw [hgen, hentry]
    exact h
  refine ⟨?_, ?_⟩
  · obtain ⟨l, hl⟩ := k.refreshOne_eq i
    rw [hl]
    exact hgen
  · unfold Field.refreshOne
    split
    · next hi =>
      have hne : g ≠ i := by
        rintro rfl
        rw [hwritten] at hi
        exact Bool.false_ne_true hi
      exact (k.entry_write_of_ne _ i g _ hne).trans hentry
    · exact hentry

/-- A member put at another position (R61, R255), in a group that the next generation does not hold yet, stands there once the generation is that. -/
theorem Field.readEntry_placed {f : Field} {g m k : Nat} (hok : badMember (slotSetPos (f.latest g) m k) = none)
    (ha : slotGen (f.entry g).a ≠ f.genWord + 1) (hb : slotGen (f.entry g).b ≠ f.genWord + 1) :
    ({ (f.stageChange (.place g m k)).refresh with genWord := f.genWord + 1 } : Field).readEntry g =
      slotSetGen (slotSetPos (f.latest g) m k) (f.genWord + 1) := by
  have hstage : f.stageChange (.place g m k) = f.stage g (slotSetPos (f.latest g) m k) := by
    simp [Field.stageChange, hok]
  have hgen : (f.stage g (slotSetPos (f.latest g) m k)).genWord = f.genWord := by
    obtain ⟨l, hl⟩ := f.stage_eq g (slotSetPos (f.latest g) m k)
    rw [hl]
  have hentry := f.entry_write (f.genWord + 1) g (slotSetPos (f.latest g) m k) ha hb
  have hnew := slotGen_slotSetGen (slotSetPos (f.latest g) m k) (f.genWord + 1)
  have hwritten : (f.stage g (slotSetPos (f.latest g) m k)).writtenIn (f.genWord + 1) g = true := by
    rw [Field.writtenIn_iff, Field.stage]
    exact hentry.imp (fun h => by rw [h, hnew]) fun h => by rw [h, hnew]
  have hkept := Field.entry_refresh (f := f.stage g (slotSetPos (f.latest g) m k)) (by rw [hgen]; exact hwritten)
  rw [hstage]
  exact Field.readEntry_next hnew (f.entry g) (hentry.imp (fun h => ⟨hkept.trans h, hb⟩) hkept.trans)

end Sys2Proof.Machine
end

section
/-!
O49: publishes, name walks and rotation (R60 to R64, R67, R374, R379).
-/

namespace Sys2Proof.Machine

open Sys2Proof.Claims

/-- What every step of a fold keeps, the fold keeps. -/
theorem State.foldl_keeps {α β : Type} (keep : State → β) {op : State → α → State} (h : ∀ s a, keep (op s a) = keep s) (l : List α) (s : State) :
    keep (l.foldl op s) = keep s :=
  List.foldlRecOn (motive := fun t => keep t = keep s) l op rfl fun t ht a _ => (h t a).trans ht

section Publishes

variable (s : State)

/- What a publish keeps of its field. -/

/-- Field `f` is as it was but for its catalogue. -/
def State.KeepsField (f : Nat × Nat) (t s : State) : Prop := ∃ l, t.fieldAt f = { s.fieldAt f with cat := l }

theorem State.KeepsField.of_flds {f : Nat × Nat} {s t : State} (h : t.flds = s.flds) : State.KeepsField f t s := ⟨_, State.fieldAt_congr h f⟩

theorem State.KeepsField.trans {f : Nat × Nat} {r s t : State} (h : State.KeepsField f t s) (g : State.KeepsField f s r) : State.KeepsField f t r := by
  obtain ⟨l, hl⟩ := h
  obtain ⟨k, hk⟩ := g
  exact ⟨l, by rw [hl, hk]⟩

theorem State.KeepsField.foldl {α : Type} {f : Nat × Nat} {op : State → α → State} (h : ∀ s a, State.KeepsField f (op s a) s) (l : List α) (s : State) :
    State.KeepsField f (l.foldl op s) s :=
  List.foldlRecOn (motive := fun t => State.KeepsField f t s) l op (.of_flds rfl) fun t ht a _ => (h t a).trans ht

theorem State.setOwner_flds (p : Phys) (o : Owner) : (s.setOwner p o).flds = s.flds := by
  unfold State.setOwner
  dsimp only
  rw [State.foldl_keeps State.flds fun _ _ => State.updTile_flds .., State.updTile_flds]

theorem State.give_flds (c : Carrel) (ps : List Phys) : (s.give c ps).flds = s.flds := by
  refine State.foldl_keeps State.flds (fun s p => ?_) ps s
  split
  · rfl
  · exact s.setOwner_flds ..

theorem State.loans_flds (c : Carrel) : (s.loans c).flds = s.flds := by
  unfold State.loans
  dsimp only
  rw [State.foldl_keeps State.flds fun s t => ?back, State.foldl_keeps State.flds fun s p => ?lend]
  case back =>
    split
    · exact s.setOwner_flds ..
    · rfl
  case lend =>
    split
    · exact s.setOwner_flds ..
    · rfl

/-- A change of the catalogue leaves a field where it is. -/
theorem Field.place_of_cat {h : Field → Field} (hh : ∀ k, ∃ l, h k = { k with cat := l }) (k : Field) : (h k).fx = k.fx ∧ (h k).fy = k.fy := by
  obtain ⟨l, hl⟩ := hh k
  rw [hl]
  exact ⟨rfl, rfl⟩

theorem State.KeepsField.updField {f g : Nat × Nat} {h : Field → Field} (hh : ∀ k, ∃ l, h k = { k with cat := l }) :
    State.KeepsField f (s.updField g h) s := by
  unfold State.KeepsField
  rw [s.fieldAt_updField g f (Field.place_of_cat hh)]
  split_ifs with hfg
  · rw [hfg]
    exact hh _
  · exact ⟨_, rfl⟩

theorem State.KeepsField.updField_of_ne {f g : Nat × Nat} (hfg : g ≠ f) {h : Field → Field} (hh : ∀ k, (h k).fx = k.fx ∧ (h k).fy = k.fy) :
    State.KeepsField f (s.updField g h) s := ⟨_, (s.fieldAt_updField g f hh).trans (if_neg hfg)⟩

/-- A field that makes a publish has the xr bits of its groups written, and nothing queued (R140). -/
theorem State.stageXr_keepsField (c : Carrel) {now : List (Nat × Nat)} {f : Nat × Nat} (hf : f ∈ now) : State.KeepsField f (s.stageXr c now) s := by
  refine .trans (.of_flds (State.loans_flds _ c)) (State.KeepsField.foldl (fun s x => ?_) c.groups s)
  dsimp only
  split
  · exact .of_flds rfl
  · split
    · exact State.KeepsField.updField _ fun k => k.write_eq ..
    · next hnow =>
      refine State.KeepsField.updField_of_ne _ (fun hx => hnow (by simpa [hx] using hf)) fun k => ?_
      have hplace := Field.place_of_cat (h := fun k => k.stage x.2 (slotSetXr ((s.fieldAt x.1).readEntry x.2) (s.groupXr c x.1 x.2))) (fun k => k.stage_eq ..) k
      split
      · exact hplace
      · exact hplace

theorem State.giveNonet_keepsField (c : Carrel) (ps : List Phys) {now : List (Nat × Nat)} {f : Nat × Nat} (hf : f ∈ now) :
    State.KeepsField f (s.giveNonet c ps now) s :=
  .trans (State.KeepsField.foldl (fun s d => s.stageXr_keepsField d hf) _ _) (.of_flds (s.give_flds c ps))

theorem State.broadcast_flds (f : Nat × Nat) : (s.broadcast f).flds = s.flds := by
  unfold State.broadcast
  split
  · rfl
  · exact State.foldl_keeps State.flds (fun _ _ => State.emitFrom_flds ..) _ _

/-- Distance bounds stand in the carrels' books and at their residencies (R72). -/
theorem State.foldl_setBound_flds (l : List (BitVec 11 × BitVec 10 × Bool)) : (l.foldl (fun s b => s.setBound b.1 b.2.1 b.2.2) s).flds = s.flds :=
  State.foldl_keeps (op := fun s b => s.setBound b.1 b.2.1 b.2.2) State.flds (fun _ _ => rfl) l s

theorem State.foldl_newBound_flds (cs : List Carrel) : (cs.foldl State.newBound s).flds = s.flds :=
  State.foldl_keeps (op := State.newBound) State.flds (fun _ _ => rfl) cs s

/-- What a publish does once its field's changes are staged (R61, R72, R140, R145, R382): the generation goes up, and the carrels of the groups that move, and of
detours, are seen to. -/
def State.advanceGen (s : State) (f : Nat × Nat) : State :=
  let fl := s.fieldAt f
  let cs := s.carrels.filter fun c => c.live && fl.movers.any fun g => (s.groupCarrel f g).map (·.num) == some c.num
  let near := s.carrels.filter fun c => c.live && !fl.detoured.isEmpty && c.touches f && !cs.contains c
  let s := s.updField f fun k => { k with genWord := fl.genWord + 1, bounds := [], detoured := [] }
  let s := fl.movers.foldl (fun s g => match s.groupCarrel f g with
    | some c => s.giveNonet c (nonetTiles f (s.nonetOf f g)) [f]
    | none => s) s
  let s := (cs ++ near).foldl (fun s c => s.stageXr c [f]) s
  let s := cs.foldl State.newBound s
  fl.bounds.foldl (fun s b => s.setBound b.1 b.2.1 b.2.2) s

/-- The field of a state in which its next generation is the published one. -/
def State.advancedField (s : State) (f : Nat × Nat) : Field := { s.fieldAt f with genWord := (s.fieldAt f).genWord + 1, bounds := [], detoured := [] }

theorem State.fieldAt_updField_advanced (f : Nat × Nat) :
    (s.updField f fun k => { k with genWord := (s.fieldAt f).genWord + 1, bounds := [], detoured := [] }).fieldAt f = s.advancedField f :=
  s.fieldAt_updField_self f fun _ => ⟨rfl, rfl⟩

theorem State.fieldAt_advanceGen (f : Nat × Nat) : ∃ l, (s.advanceGen f).fieldAt f = { s.advancedField f with cat := l } := by
  rw [← s.fieldAt_updField_advanced f]
  change State.KeepsField f (s.advanceGen f) _
  refine .trans (.of_flds (State.foldl_setBound_flds ..)) (.trans (.of_flds (State.foldl_newBound_flds ..))
    (.trans (State.KeepsField.foldl (fun s c => s.stageXr_keepsField c (List.mem_singleton_self f)) _ _) (State.KeepsField.foldl (fun s g => ?_) _ _)))
  split
  · exact s.giveNonet_keepsField _ _ (List.mem_singleton_self f)
  · exact .of_flds rfl

/-- With no group on another nonet and no detour changed, nothing more is written to the catalogue. -/
theorem State.fieldAt_advanceGen_quiet {f : Nat × Nat} (hm : (s.fieldAt f).movers = []) (hd : (s.fieldAt f).detoured = []) :
    (s.advanceGen f).fieldAt f = s.advancedField f := by
  rw [← s.fieldAt_updField_advanced f]
  refine State.fieldAt_congr ?_ f
  unfold State.advanceGen
  simp only [hm, hd, List.any_nil, Bool.and_false, List.filter_false, List.isEmpty_nil, Bool.not_true, Bool.false_and, List.append_nil, List.foldl_nil]
  exact State.foldl_setBound_flds ..

/-- The changes of a request staged on what is staged, with the groups that come due (R61, R255). -/
def Field.changes (fl : Field) (xs : List SlotChange) : Field := (xs.foldl Field.stageChange fl).refresh
def State.staged (s : State) (f : Nat × Nat) (q : PubReq) : State := s.updField f (Field.changes · q.slots)

theorem Field.changes_eq (fl : Field) (xs : List SlotChange) : ∃ l, fl.changes xs = { fl with cat := l } := by
  obtain ⟨l, hl⟩ := fl.foldl_stageChange_eq xs
  obtain ⟨k, hk⟩ := Field.refresh_eq { fl with cat := l }
  exact ⟨k, by rw [Field.changes, hl, hk]⟩

theorem Field.changes_single (fl : Field) (x : SlotChange) : fl.changes [x] = (fl.stageChange x).refresh := rfl

theorem Field.changes_queued (fl : Field) (x : SlotChange) (l : List PubReq) :
    ({ fl with queued := l } : Field).changes [x] = { fl.changes [x] with queued := l } := by
  rw [Field.changes_single, Field.changes_single, Field.stageChange_queued, Field.refresh_queued]

theorem State.fieldAt_staged (f : Nat × Nat) (q : PubReq) : (s.staged f q).fieldAt f = (s.fieldAt f).changes q.slots := by
  have hcat : ∀ k, ∃ l, (Field.changes · q.slots) k = { k with cat := l } := fun k => k.changes_eq q.slots
  exact s.fieldAt_updField_self f (Field.place_of_cat hcat)

/-- A publish stands at its field in progress, on what staging and turning leave there. -/
theorem State.fieldAt_publish (f : Nat × Nat) (q : PubReq) : ∃ p, (s.publish f q).fieldAt f = { ((s.staged f q).advanceGen f).fieldAt f with publish := some p } ∧
    p.gen = ((s.staged f q).fieldAt f).genWord + 1 ∧ p.marks = q.mark.toList ∧ p.moves = q.moves :=
  ⟨_, (State.fieldAt_congr (State.broadcast_flds _ f) f).trans (State.fieldAt_updField_self _ f fun _ => ⟨rfl, rfl⟩), rfl, rfl, rfl⟩

/-- What waits to be published has no part in which groups move. -/
theorem Field.movers_queued (r : Field) (l : List PubReq) : ({ r with queued := l } : Field).movers = r.movers := rfl

/-- A publish that moves no group and changes no detour has what is staged read in the next generation. -/
theorem State.readEntry_publish {f : Nat × Nat} {q : PubReq} {r : Field} {l : List PubReq} {g : Nat} (h : (s.staged f q).fieldAt f = { r with queued := l })
    (hm : r.movers = []) (hd : r.detoured = []) : ((s.publish f q).fieldAt f).readEntry g = ({ r with genWord := r.genWord + 1 } : Field).readEntry g := by
  obtain ⟨p, hp, -⟩ := s.fieldAt_publish f q
  rw [hp, State.fieldAt_advanceGen_quiet _ (by rw [h, Field.movers_queued]; exact hm) (by rw [h]; exact hd), State.advancedField, h]
  rfl

/-- CATALOGUE_PUBLISH (R61) takes the oldest request where that one need not wait. -/
theorem exec_cataloguePublish {q : PubReq} {qs : List PubReq} (hq : s.fld.queued = q :: qs) (hpub : s.fld.publish = none) (hserved : s.fld.served = true)
    (hwait : s.mustWait s.tile.phys.field q = false) : exec .cataloguePublish s =
      .next ((s.updField s.tile.phys.field fun fl => { fl with queued := fl.queued.erase q }).publish s.tile.phys.field q) := by
  change execCataloguePublish s = _
  simp [execCataloguePublish, State.become, hq, hpub, hserved, hwait]

theorem cataloguePublish_publishes {q : PubReq} {qs : List PubReq} (hq : s.fld.queued = q :: qs) (hpub : s.fld.publish = none) (hserved : s.fld.served = true)
    (hwait : s.mustWait s.tile.phys.field q = false) :
    ∃ t p, exec .cataloguePublish s = .next t ∧ (t.fieldAt s.tile.phys.field).queued = qs ∧ (t.fieldAt s.tile.phys.field).genWord = s.fld.genWord + 1 ∧
      (t.fieldAt s.tile.phys.field).publish = some p ∧ p.gen = s.fld.genWord + 1 ∧ p.marks = q.mark.toList ∧ p.moves = q.moves ∧
      ∀ g m k, q.slots = [.place g m k] → s.fld.detoured = [] → ((s.fld.stageChange (.place g m k)).refresh).movers = [] →
        badMember (slotSetPos (s.fld.latest g) m k) = none → slotGen (s.fld.entry g).a ≠ s.fld.genWord + 1 → slotGen (s.fld.entry g).b ≠ s.fld.genWord + 1 →
        (t.fieldAt s.tile.phys.field).readEntry g = slotSetGen (slotSetPos (s.fld.latest g) m k) (s.fld.genWord + 1) := by
  set f := s.tile.phys.field
  set u := s.updField f fun fl => { fl with queued := fl.queued.erase q }
  have hu : u.fieldAt f = { s.fld with queued := qs } := by
    refine (s.fieldAt_updField_self f (h := fun fl => { fl with queued := fl.queued.erase q }) fun _ => ⟨rfl, rfl⟩).trans ?_
    change ({ s.fld with queued := s.fld.queued.erase q } : Field) = _
    rw [hq, List.erase_cons_head]
  obtain ⟨p, hp, hgen, hmarks, hmoves⟩ := u.fieldAt_publish f q
  obtain ⟨c, hstaged⟩ := Field.changes_eq (u.fieldAt f) q.slots
  have hstaged := (u.fieldAt_staged f q).trans hstaged
  obtain ⟨d, hturn⟩ := (u.staged f q).fieldAt_advanceGen f
  refine ⟨_, p, exec_cataloguePublish s hq hpub hserved hwait, ?_, ?_, ?_, ?_, hmarks, hmoves, ?_⟩
  · rw [hp, hturn, State.advancedField, hstaged, hu]
  · rw [hp, hturn, State.advancedField, hstaged, hu]
  · rw [hp]
  · rw [hgen, hstaged, hu]
  · intro g m k hslots hdet hmov hok ha hb
    have hfield := u.fieldAt_staged f q
    rw [hslots, hu, Field.changes_queued] at hfield
    obtain ⟨l, hcat⟩ := s.fld.changes_eq [.place g m k]
    have hgen : (s.fld.changes [.place g m k]).genWord = s.fld.genWord := by rw [hcat]
    have hdetoured : (s.fld.changes [.place g m k]).detoured = [] := by
      rw [hcat]
      exact hdet
    rw [u.readEntry_publish hfield (by rw [Field.changes_single]; exact hmov) hdetoured, hgen, Field.changes_single]
    exact Field.readEntry_placed hok ha hb

end Publishes

section Tokens

variable {s : State} {p : Publish}

/-- A field with another publish in progress, or none. -/
def State.setPublish (s : State) (f : Nat × Nat) (o : Option Publish) : State := s.updField f fun fl => { fl with publish := o }

theorem State.publish_setPublish (s : State) (f : Nat × Nat) (o : Option Publish) : ((s.setPublish f o).fieldAt f).publish = o :=
  congrArg Field.publish (s.fieldAt_updField_self f (h := fun fl => { fl with publish := o }) fun _ => ⟨rfl, rfl⟩)

/- Invalidation (R61 step 4, R63, R64, R140). -/

/-- The end markers of an old virtual channel leave the tile as it is. -/
theorem State.endOld_tile (s : State) (e : NameEntry) : (s.endOld e).tile = s.tile := by
  unfold State.endOld
  split
  · rfl
  · dsimp only
    split
    · rfl
    · exact State.foldl_keeps State.tile (fun _ _ => by rfl) _ _

/-- The tile ends the old virtual channels of the cached names that a publish invalidates (R140). -/
def State.endNames (s : State) (x : Packet) (p : Publish) : State :=
  (s.tile.net.names.filter fun e => p.names.contains (s.tile.id.carrel, e.name)).foldl State.endOld (s.unsend x)

theorem State.endNames_tile (s : State) (x : Packet) (p : Publish) : (s.endNames x p).tile = s.tile :=
  State.foldl_keeps State.tile State.endOld_tile _ _

/-- The tile forgets the names that a publish invalidates (R61, R63). -/
def State.forget (s : State) (p : Publish) : State :=
  { s with tile.net.names := s.tile.net.names.filter fun e => !p.names.contains (s.tile.id.carrel, e.name),
           tile.net.unmapped := s.tile.net.unmapped.filter fun n => !p.names.contains (s.tile.id.carrel, n) }

theorem catalogueInvalidation_drops {x : Packet} {g : Nat × Nat} {q : Phys} (hx : s.reached = some x) (hbody : x.body = .invalidate g.1 g.2 p.gen q)
    (hpub : (s.fieldAt g).publish = some p) (hq : q ∈ p.missing) :
    ∃ t, exec .catalogueInvalidation s = .next t ∧ (t.fieldAt g).publish = some { p with missing := p.missing.erase q } ∧
      (∀ e ∈ t.tile.net.names, e ∈ s.tile.net.names ∧ (s.tile.id.carrel, e.name) ∉ p.names) ∧ t.tile.core = s.tile.core := by
  have hpub : ((s.unsend x).fieldAt (g.1, g.2)).publish = some p := hpub
  have hfresh : ¬(p.gen ≠ p.gen ∨ (!p.missing.contains q) = true) := by simp [hq]
  have htile := s.endNames_tile x p
  have hexec : exec .catalogueInvalidation s = .next (((s.endNames x p).forget p).setPublish g (some { p with missing := p.missing.erase q })) := by
    have hcar : (s.endNames x p).tile.id.carrel = s.tile.id.carrel := by rw [htile]
    change execCatalogueInvalidation s = _
    simp only [execCatalogueInvalidation, State.become, hx, hbody, hpub, if_neg hfresh, State.forget, hcar]
    rfl
  refine ⟨_, hexec, State.publish_setPublish .., fun e he => ?_, ?_⟩
  · change e ∈ (s.endNames x p).tile.net.names.filter _ at he
    rw [htile] at he
    simpa using he
  · change (s.endNames x p).tile.core = _
    rw [htile]

/- The token of a publish (R61 step 5, R64, R70, R382). -/

/-- What the end of a publish leaves of a tile beyond its landing. -/
def Tile.stay (t : Tile) : Phys × Core × List Mark × Option Migration × Ident := (t.phys, t.core, t.net.marks, t.net.mig, t.id)

theorem Tile.stay_iff (t u : Tile) : t.stay = u.stay ↔ t.phys = u.phys ∧ t.core = u.core ∧ t.net.marks = u.net.marks ∧ t.net.mig = u.net.mig ∧ t.id = u.id := by
  simp [Tile.stay]

theorem State.closeOld_flds (s : State) (p : Publish) : (s.closeOld p).flds = s.flds := by
  refine State.foldl_keeps State.flds (fun s t => ?_) _ s
  dsimp only
  split
  · rfl
  · rw [State.emitFrom_flds, State.updTile_flds]

theorem State.closeOld_stay (s : State) (p : Publish) : (s.closeOld p).tile.stay = s.tile.stay := by
  refine State.foldl_keeps (·.tile.stay) (fun s t => ?_) _ s
  dsimp only
  split
  · rfl
  · rw [State.emitFrom_tile]
    exact s.updTile_keeps Tile.stay _ (fun _ => rfl) fun _ => rfl

/-- Tiles are turned off. -/
def State.powerOff (s : State) (ps : List Phys) : State := ps.foldl (fun s q => s.updTile q fun t => { t with stop.off := true }) s

theorem State.powerOff_flds (s : State) (ps : List Phys) : (s.powerOff ps).flds = s.flds := State.foldl_keeps State.flds (fun _ _ => State.updTile_flds ..) ps s

theorem State.powerOff_stay (s : State) (ps : List Phys) : (s.powerOff ps).tile.stay = s.tile.stay :=
  State.foldl_keeps (·.tile.stay) (op := fun s q => s.updTile q fun t => { t with stop.off := true })
    (fun s _ => s.updTile_keeps Tile.stay _ (fun _ => rfl) fun _ => rfl) ps s

/-- A nonet that is left is turned off and its tiles are noted as defects, or nothing happens yet (R382). -/
theorem State.leaveNonet_eq (s : State) (q : Phys) : s.leaveNonet q = s ∨ ∃ l : Field → List Phys,
    s.leaveNonet q = (s.powerOff (nonetTiles q.field q.nonet)).updField q.field fun fl => { fl with defects := l fl } := by
  unfold State.leaveNonet
  dsimp only
  split
  · exact .inl rfl
  · exact .inr ⟨fun fl => fl.defects ++ (nonetTiles q.field q.nonet).filter fun q => !fl.defects.contains q, rfl⟩

theorem State.leaveNonet_stay (s : State) (q : Phys) : (s.leaveNonet q).tile.stay = s.tile.stay := by
  obtain h | ⟨l, h⟩ := s.leaveNonet_eq q
  · rw [h]
  · rw [h, State.updField_tile, State.powerOff_stay]

theorem State.publish_updField_defects (s : State) (g f : Nat × Nat) (l : Field → List Phys) :
    ((s.updField g fun fl => { fl with defects := l fl }).fieldAt f).publish = (s.fieldAt f).publish := by
  rw [s.fieldAt_updField g f (h := fun fl => { fl with defects := l fl }) fun _ => ⟨rfl, rfl⟩]
  split_ifs with hf
  · rw [hf]
  · rfl

theorem State.leaveNonet_publish (s : State) (q : Phys) (f : Nat × Nat) : ((s.leaveNonet q).fieldAt f).publish = (s.fieldAt f).publish := by
  obtain h | ⟨l, h⟩ := s.leaveNonet_eq q
  · rw [h]
  · rw [h, State.publish_updField_defects, State.fieldAt_congr (s.powerOff_flds _)]

/-- The tokens of a publish are written (R61 step 5). -/
def State.payTokens (s : State) (p : Publish) : State := p.marks.foldl (fun s m => s.tokenAt m.1 (some m.2) (p.gen.setWidth 32)) s

theorem exec_publishToken (hpub : s.fld.publish = some p) (hm : p.missing = []) (hserved : s.fld.served = true) : exec .publishToken s =
    .next (p.left.foldl State.leaveNonet
      ((((s.setPublish s.tile.phys.field none).payTokens p).landed p).closeOld p)) := by
  change execPublishToken s = _
  simp only [execPublishToken, State.become, hpub, hm, hserved]
  rfl

/-- Beyond the tokens and the landing, the end of a publish leaves the tile in focus as it was. -/
theorem publishToken_stay {u : State} :
    (p.left.foldl State.leaveNonet ((u.landed p).closeOld p)).tile.stay = (u.landed p).tile.stay :=
  (State.foldl_keeps (·.tile.stay) State.leaveNonet_stay _ _).trans ((u.landed p).closeOld_stay p)

theorem Tile.published_keeps (t : Tile) (g : BitVec 16) (xr : Bool) : (t.published g xr).core = t.core ∧ (t.published g xr).net.marks = t.net.marks := by
  unfold Tile.published
  split
  · split
    · exact ⟨rfl, rfl⟩
    · exact ⟨rfl, rfl⟩
  · exact ⟨rfl, rfl⟩

theorem State.landed_keeps (u : State) (p : Publish) : (u.landed p).tile.core = u.tile.core ∧ (u.landed p).tile.net.marks = u.tile.net.marks := by
  change (if _ then _ else _ : Tile).core = _ ∧ (if _ then _ else _ : Tile).net.marks = _
  split
  · exact Tile.published_keeps ..
  · exact ⟨rfl, rfl⟩

/-- A token leaves the move of its tile, and where it stands. -/
theorem Tile.writeToken_keeps (t : Tile) (id : Option Nat) (x : DWord) : (t.writeToken id x).phys = t.phys ∧ (t.writeToken id x).net.mig = t.net.mig := by
  unfold Tile.writeToken
  split
  · exact ⟨rfl, rfl⟩
  · split
    · exact ⟨rfl, rfl⟩
    · exact ⟨rfl, rfl⟩

theorem State.payTokens_flds (u : State) (p : Publish) : (u.payTokens p).flds = u.flds :=
  State.foldl_keeps State.flds (fun _ _ => State.tokenAt_flds ..) _ u

theorem State.payTokens_keeps (u : State) (p : Publish) : (u.payTokens p).tile.phys = u.tile.phys ∧ (u.payTokens p).tile.net.mig = u.tile.net.mig := by
  have h : ((u.payTokens p).tile.phys, (u.payTokens p).tile.net.mig) = (u.tile.phys, u.tile.net.mig) :=
    State.foldl_keeps (fun s : State => (s.tile.phys, s.tile.net.mig))
      (fun s m => s.updTile_keeps (fun t => (t.phys, t.net.mig)) _ (fun t => (t.writeToken_keeps _ _).1)
        fun t => Prod.ext (t.writeToken_keeps _ _).1 (t.writeToken_keeps _ _).2) _ u
  exact ⟨congrArg Prod.fst h, congrArg Prod.snd h⟩

theorem publishToken_ends (hpub : s.fld.publish = some p) (hm : p.missing = []) (hserved : s.fld.served = true) :
    ∃ t, exec .publishToken s = .next t ∧ (t.fieldAt s.tile.phys.field).publish = none ∧
      (∀ m, p.marks = [(s.tile.phys, m.id)] → s.tile.net.marks = [m] → m.level = .normal → m.pair = false → m.reg ≠ 0 →
        t.tile.core.normal.sreg m.reg = p.gen.setWidth 32 ∧ t.tile.net.marks = []) ∧
      (∀ m, s.tile.net.mig = some m → m.step = .copied → s.tile.phys ∈ p.moves →
        t.tile.net.mig = some { m with step := .published } ∧ t.tile.id.gen = p.gen) := by
  let u := s.setPublish s.tile.phys.field none
  obtain ⟨-, hcore, hmarks, hmig, hid⟩ := (Tile.stay_iff _ _).1 (publishToken_stay (p := p) (u := u.payTokens p))
  refine ⟨_, exec_publishToken hpub hm hserved, ?_, fun m hpm hsm hl hpair hr => ?_, fun m hsm hstep hmem => ?_⟩
  · calc _ = (((u.payTokens p).landed p).closeOld p |>.fieldAt s.tile.phys.field).publish :=
          State.foldl_keeps (fun v : State => (v.fieldAt s.tile.phys.field).publish) (fun v q => v.leaveNonet_publish q _) _ _
      _ = (u.fieldAt s.tile.phys.field).publish :=
          congrArg Field.publish (State.fieldAt_congr ((State.closeOld_flds ((u.payTokens p).landed p) p).trans (u.payTokens_flds p)) _)
      _ = none := s.publish_setPublish ..
  · have hpaid : (u.payTokens p).tile = s.tile.writeToken (some m.id) ((p.gen.setWidth 32).setWidth 64) := by
      unfold State.payTokens
      rw [hpm, List.foldl_cons, List.foldl_nil]
      exact congrArg State.tile (u.updTile_here _ (Tile.writeToken_keeps _ _ _).1)
    obtain ⟨hcleared, hreg, -⟩ := Tile.writeToken_normal (t := s.tile) ((p.gen.setWidth 32).setWidth 64) hsm hl hr
    obtain ⟨hlcore, hlmarks⟩ := (u.payTokens p).landed_keeps p
    rw [hcore, hmarks, hlcore, hlmarks, hpaid, hcleared, hreg]
    exact ⟨by simp, rfl⟩
  · obtain ⟨hphys, hmigs⟩ := u.payTokens_keeps p
    have hland : ((u.payTokens p).landed p).tile = (u.payTokens p).tile.published p.gen ((u.payTokens p).xrAt (u.payTokens p).tile.phys) :=
      if_pos (by rw [hphys]; exact List.contains_iff_mem.2 hmem)
    rw [hmig, hid, hland, Tile.published, hmigs, show u.tile.net.mig = some m from hsm]
    simp [hstep]

/- A publish that stalls (R379). -/

theorem publishStallTimeout_broadcasts (hpub : s.fld.publish = some p) (hm : p.missing ≠ []) (hclk : Config.publishLimit ≤ p.clk) (hst : p.stalled = false)
    (hr : p.rounds < 4) :
    ∃ t, exec .publishStallTimeout s = .next t ∧ (t.fieldAt s.tile.phys.field).publish = some { p with clk := 0, rounds := p.rounds + 1 } := by
  let f := s.tile.phys.field
  let u := s.setPublish f (some { p with clk := 0, rounds := p.rounds + 1 })
  have hu : ((u.broadcast f).fieldAt f).publish = some { p with clk := 0, rounds := p.rounds + 1 } :=
    (congrArg Field.publish (State.fieldAt_congr (u.broadcast_flds f) f)).trans (s.publish_setPublish ..)
  by_cases h0 : p.rounds = 0
  · refine ⟨(u.broadcast f).stewardEvent f 0xD0 0 (p.gen.setWidth 32), ?_, ?_⟩
    · change execPublishStallTimeout s = _
      simp [execPublishStallTimeout, State.become, State.setPublish, hpub, hm, Nat.not_lt.2 hclk, hst, h0, u, f]
    · exact (congrArg Field.publish (State.fieldAt_congr (State.stewardEvent_flds ..) f)).trans hu
  · refine ⟨u.broadcast f, ?_, hu⟩
    change execPublishStallTimeout s = _
    simp [execPublishStallTimeout, State.become, State.setPublish, hpub, hm, Nat.not_lt.2 hclk, hst, h0, hr, u, f]

theorem publishStallTimeout_stalls (hpub : s.fld.publish = some p) (hm : p.missing ≠ []) (hclk : Config.publishLimit ≤ p.clk) (hst : p.stalled = false)
    (hr : 4 ≤ p.rounds) :
    ∃ t, exec .publishStallTimeout s = .next t ∧ (t.fieldAt s.tile.phys.field).publish = some { p with clk := 0, stalled := true } := by
  let f := s.tile.phys.field
  let u := s.setPublish f (some { p with clk := 0, stalled := true })
  refine ⟨((u.stewardEvent f 0xD1 0 (p.gen.setWidth 32)).notifyField f 0x6B 0 (BitVec.ofNat 32 (p.gen.toNat + 65536 * (f.1 + 8 * f.2)))).landed p, ?_, ?_⟩
  · change execPublishStallTimeout s = _
    simp [execPublishStallTimeout, State.become, State.setPublish, hpub, hm, Nat.not_lt.2 hclk, hst, show p.rounds ≠ 0 by omega, show ¬p.rounds < 4 by omega,
      u, f]
  · exact (congrArg Field.publish (State.fieldAt_congr (u.stewardEvent_flds f 0xD1 0 (p.gen.setWidth 32)) f)).trans (s.publish_setPublish ..)

end Tokens

section Walks

variable {s : State} {c : Carrel}

/-- The field at which a name is walked (R62, R183). -/
def State.walkField (s : State) (c : Carrel) (n : Word) : Nat × Nat := if nameWafer n = 0 then (c.place (nameX n) (nameY n)).1 else s.tile.phys.field

/-- The walk of a name is over, and its lane busy (R148). -/
def State.walked (s : State) (c : Carrel) (n : Word) : State :=
  { s with tile.net.walks := s.tile.net.walks.filter (· ≠ n) }.updField (s.walkField c n) fun fl =>
    { fl with walked := putAt (s.inp.n % 4) (s.fieldAt (s.walkField c n)).clk fl.walked }

/-- What a walk finds enters a cache that has room (R64). -/
def State.caches (s : State) (c : Carrel) (e : NameEntry) : State :=
  { s.walked c e.name with tile.net.names := e :: s.tile.net.names }

theorem State.not_mem_walked (s : State) (c : Carrel) (n : Word) : n ∉ (s.walked c n).tile.net.walks := by
  change n ∉ s.tile.net.walks.filter (· ≠ n)
  simp

/-- What a walk finds at the end: the egress port of another wafer (R183), the tile and the generation of the name's slot, or no tile (R64). -/
def State.walkEnd (s : State) (c : Carrel) (n : Word) : State :=
  if nameWafer n ≠ 0 then s.caches c { name := n, phys := c.egress s.tile.id.name n, gen := 0, xr := true }
  else match s.locate c (nameX n) (nameY n) with
    | some p => s.caches c { name := n, phys := p, gen := slotGen (s.slotOf c (nameX n) (nameY n)), xr := slotXr (s.slotOf c (nameX n) (nameY n)) }
    | none => { s.walked c n with tile.net.unmapped := s.tile.net.unmapped ++ [n] }

variable (hc : s.myCarrel = some c) (hwalk : s.inp.word ∈ s.tile.net.walks) (hroom : s.tile.net.names.length < 64)
  (hserved : (s.fieldAt (s.walkField c s.inp.word)).served = true)
  (hfree : (s.fieldAt (s.walkField c s.inp.word)).walkerFree (s.inp.n % 4) s.tile.id.carrel = true)

include hc hwalk hroom hserved hfree

/-- NAME_WALK_DONE (R62, R64, R374): a lane that is free ends a walk that the tile has asked for. -/
theorem exec_nameWalkDone : exec .nameWalkDone s = .next (s.walkEnd c s.inp.word) := by
  have hfield : (if nameWafer s.inp.word ≠ 0 then s.tile.phys.field else (c.place (nameX s.inp.word) (nameY s.inp.word)).1) = s.walkField c s.inp.word := by
    simp [State.walkField]
  have hgo : ¬((!s.tile.net.walks.contains s.inp.word) = true ∨ (!(s.fieldAt (s.walkField c s.inp.word)).served) = true ∨
      (!(s.fieldAt (s.walkField c s.inp.word)).walkerFree (s.inp.n % 4) s.tile.id.carrel) = true) := by
    simp [hwalk, hserved, hfree]
  have htake : ∀ e : NameEntry, (e :: s.tile.net.names).take 64 = e :: s.tile.net.names := fun e => List.take_of_length_le (by simpa using hroom)
  change execNameWalkDone s = _
  simp only [execNameWalkDone, State.become, hc, hfield, if_neg hgo, htake]
  rfl

theorem nameWalkDone_finds {p : Phys} (h0 : nameWafer s.inp.word = 0) (hp : s.locate c (nameX s.inp.word) (nameY s.inp.word) = some p) :
    ∃ t e, exec .nameWalkDone s = .next t ∧ t.tile.net.names = e :: s.tile.net.names ∧ e.name = s.inp.word ∧ e.phys = p ∧
      e.gen = slotGen (s.slotOf c (nameX s.inp.word) (nameY s.inp.word)) ∧ s.inp.word ∉ t.tile.net.walks := by
  have hexec := exec_nameWalkDone hc hwalk hroom hserved hfree
  rw [State.walkEnd, if_neg (not_not.2 h0), hp] at hexec
  exact ⟨_, _, hexec, rfl, rfl, rfl, rfl, s.not_mem_walked c _⟩

theorem nameWalkDone_unmapped (h0 : nameWafer s.inp.word = 0) (hp : s.locate c (nameX s.inp.word) (nameY s.inp.word) = none) :
    ∃ t, exec .nameWalkDone s = .next t ∧ s.inp.word ∈ t.tile.net.unmapped ∧ s.inp.word ∉ t.tile.net.walks ∧ t.tile.net.names = s.tile.net.names := by
  have hexec := exec_nameWalkDone hc hwalk hroom hserved hfree
  rw [State.walkEnd, if_neg (not_not.2 h0), hp] at hexec
  exact ⟨_, hexec, List.mem_append_right _ (List.mem_singleton_self _), s.not_mem_walked c _, rfl⟩

theorem nameWalkDone_leaves (h0 : nameWafer s.inp.word ≠ 0) :
    ∃ t e, exec .nameWalkDone s = .next t ∧ t.tile.net.names = e :: s.tile.net.names ∧ e.name = s.inp.word ∧
      e.phys = c.egress s.tile.id.name s.inp.word ∧ s.inp.word ∉ t.tile.net.walks := by
  have hexec := exec_nameWalkDone hc hwalk hroom hserved hfree
  rw [State.walkEnd, if_pos h0] at hexec
  exact ⟨_, _, hexec, rfl, rfl, rfl, s.not_mem_walked c _⟩

end Walks

section Rotation

variable {s : State}

/-- What a field has done in its slot decides neither where residencies move nor whether they may. -/
theorem State.fieldAt_updField_did (s : State) (f g : Nat × Nat) (k : Nat) :
    ∃ l, (s.updField f fun fl => { fl with did := k :: fl.did }).fieldAt g = { s.fieldAt g with did := l } := by
  rw [s.fieldAt_updField f g (h := fun fl => { fl with did := k :: fl.did }) fun _ => ⟨rfl, rfl⟩]
  split_ifs with h
  · exact ⟨_, by rw [h]⟩
  · exact ⟨_, rfl⟩

theorem Field.groupOn_did (r : Field) (l : List Nat) (n : Nat × Nat) : ({ r with did := l } : Field).groupOn n = r.groupOn n := rfl

theorem State.targeted_updField_did (s : State) (f : Nat × Nat) (k : Nat) (q : Phys) :
    (s.updField f fun fl => { fl with did := k :: fl.did }).targeted q = s.targeted q := by
  obtain ⟨l, hl⟩ := s.fieldAt_updField_did f q.field k
  unfold State.targeted
  rw [hl]
  rfl

theorem State.immovable_updField_did (s : State) (f : Nat × Nat) (k : Nat) (t : Tile) :
    (s.updField f fun fl => { fl with did := k :: fl.did }).immovable t = s.immovable t := by
  obtain ⟨l, hl⟩ := s.fieldAt_updField_did f t.phys.field k
  unfold State.immovable State.archiving
  rw [hl, Field.groupOn_did, State.updField_groupCarrel]

theorem shadeRotation_requests {g : Nat} {d : Tile} (hg : s.fld.groupOn s.tile.phys.nonet = some g) (hslot : s.fld.slot = rotationSlot s.tile.phys.nonet)
    (hdid : s.fld.did.contains (16 + s.tile.phys.nonet.1 + 64 * s.tile.phys.nonet.2) = false) (hserved : s.fld.served = true)
    (hhot : hottestMember s s.tile.phys.field s.tile.phys.nonet (s.fld.readEntry g) = some s.tile)
    (hcool : coolestFree s s.tile.phys.field s.tile.phys.nonet (s.fld.readEntry g) = some d) (hdeg : 64 ≤ s.tile.id.temp.toInt - d.id.temp.toInt)
    (himm : s.immovable s.tile = false) (hpin : s.tile.id.pin = false) (harch : s.tile.stop.archived = false) (hfwd : s.tile.net.fwd = none)
    (hphase : s.tile.core.phase ≠ .unbound) :
    ∃ t, exec .shadeRotation s = .next t ∧ t.tile.net.mig =
      some { src := s.tile.phys, dst := d.phys, step := .requested, mark := none, rotation := some s.fld.slotCount } := by
  let u := s.updField s.tile.phys.field fun fl => { fl with did := (16 + s.tile.phys.nonet.1 + 64 * s.tile.phys.nonet.2) :: fl.did }
  have hexec : exec .shadeRotation s = .next (u.updTile s.tile.phys (·.requestMove d.phys none (some s.fld.slotCount) none)) := by
    unfold hottestMember at hhot
    unfold coolestFree at hcool
    rw [show s.fieldAt s.tile.phys.field = s.fld from rfl] at hcool
    have hgo : ¬(s.fld.slot ≠ rotationSlot s.tile.phys.nonet ∨ s.fld.did.contains (16 + s.tile.phys.nonet.1 + 64 * s.tile.phys.nonet.2) = true ∨
        (!s.fld.served) = true) := by
      rw [hdid, hserved]
      simp [hslot]
    have hmove : (decide (s.tile.id.temp.toInt - d.id.temp.toInt < 64) || s.immovable s.tile || s.tile.id.pin || s.tile.stop.archived || s.tile.net.fwd.isSome) = false := by
      simp [himm, hpin, harch, hfwd, hdeg]
    change execShadeRotation s = _
    simp only [execShadeRotation, State.become, hg, if_neg hgo, State.targeted_updField_did, State.immovable_updField_did, State.updField_tileAt, hhot, hcool,
      hmove, Bool.false_eq_true, if_false, if_neg hphase]
    rfl
  refine ⟨_, hexec, ?_⟩
  exact congrArg (·.tile.net.mig) (u.updTile_here (·.requestMove d.phys none (some s.fld.slotCount) none) rfl)

end Rotation

/-- Settles O49, clause by clause: publishes change their field, its invalidations and landings the tile in focus, and walks and rotations what they find. -/
theorem catalogueWorks : Obligations.CatalogueWorks := by
  intro s f fl hf hfl
  subst hf hfl
  refine ⟨fun q qs hq hpub hserved hwait => cataloguePublish_publishes s hq hpub hserved hwait,
    fun x g p q hx hbody hpub hq => catalogueInvalidation_drops hx hbody hpub hq,
    fun p hpub hm hserved => publishToken_ends hpub hm hserved,
    fun p hpub hm hclk hst => ⟨publishStallTimeout_broadcasts hpub hm hclk hst, publishStallTimeout_stalls hpub hm hclk hst⟩, ?_, ?_⟩
  · intro n c g hn hc hwalk hroom hg hserved hfree
    subst hn hg
    exact ⟨fun p h0 hp => nameWalkDone_finds hc hwalk hroom hserved hfree h0 hp, nameWalkDone_unmapped hc hwalk hroom hserved hfree,
      nameWalkDone_leaves hc hwalk hroom hserved hfree⟩
  · intro g n h d hn hg hslot hdid hserved hhot hcool hdeg himm hpin harch hfwd hphase hh
    subst hn hh
    exact shadeRotation_requests hg hslot hdid hserved hhot hcool hdeg himm hpin harch hfwd hphase

end Sys2Proof.Machine
end

section
/-!
O50: migration and forwarding (R68 to R71, R381).
-/

namespace Sys2Proof.Machine

section Moves

variable {s : State} {m : Migration}

/- The steps of a migration (R68). -/

theorem State.drained_stores (s : State) : s.drained.tile.view.stores = [] := by
  have hstores : ∀ (l : List StoreOp) (t : Tile), (t.perform l).view.stores = t.view.stores := fun l => by
    induction l with
    | nil => exact fun _ => rfl
    | cons e l ih => exact fun t => (ih _).trans (t.storeOp_stores e)
  exact hstores _ _

theorem State.drained_mem (s : State) : s.drained.tile.view.mem = s.tile.view.coreMem := by
  rw [← Tile.drain_coreMem]
  change _ = (s.drained.tile.view.stores).foldl StoreOp.apply s.drained.tile.view.mem
  rw [s.drained_stores]
  rfl

/-- A residency that moves within its nonet moves alone (R382). -/
theorem State.moveGroup_alone (t : Tile) (h : m.src.nonet = m.dst.nonet) : s.moveGroup t m = [t] := if_pos h

/-- A migration within a nonet that nothing was told of and that no MIGR asked for ends with its tile as it was (R381). -/
theorem State.endMove_alone (h : m.src.nonet = m.dst.nonet) (hheld : s.tile.net.heldCancels = []) (hmark : m.mark = none) :
    s.endMove m = { s.dropCopies [s.tile.phys] with tile.net.mig := none } := by
  have hat : ∀ f : State → State, (s.dropCopies [s.tile.phys]).atEach f [s.tile.phys] = (f (s.dropCopies [s.tile.phys])).focus s.tile.phys :=
    fun f => congrArg (fun u => (f u).focus s.tile.phys) (if_pos rfl)
  unfold State.endMove
  dsimp only
  rw [State.moveGroup_alone _ h, if_pos h, hmark, List.map_cons, List.map_nil, hat]
  change State.focus (List.foldl State.applyNotice _ s.tile.net.heldCancels) _ = _
  rw [show (s.dropCopies [s.tile.phys]).tile.net.heldCancels = [] from hheld, hheld]
  exact if_pos rfl

theorem migrationHalt_halts (hmig : s.tile.net.mig = some m) (hstep : m.step = .requested) (hurg : s.urgent = false) (hmask : s.tile.core.mask = none)
    (hpend : s.nextPend = none) (hhold : s.tile.net.holding = false) (hfault : s.tile.stop.faulted = none) (hserved : s.fld.served = true) :
    ∃ t, exec .migrationHalt s = .next t ∧ t.tile.net.mig = some { m with step := .halted } ∧ t.tile.core.cur = s.tile.core.cur ∧
      t.tile.core.normal = s.tile.core.normal ∧ t.tile.view.stores = [] ∧ t.tile.view.mem = s.tile.view.coreMem := by
  have hexec : exec .migrationHalt s = .next { s with tile := { s.drained.tile with
      net.mig := some { m with step := .halted }, core.wait := none, strm.farWord := none } } := by
    change execMigrationHalt s = _
    simp [execMigrationHalt, State.become, hmig, hstep, hurg, hmask, hpend, hhold, hfault, hserved, State.drained]
  refine ⟨_, hexec, rfl, ?_, ?_, s.drained_stores, s.drained_mem⟩
  · change s.drained.tile.core.cur = _
    rw [State.drained_tile_core]
  · change s.drained.tile.core.normal = _
    rw [State.drained_tile_core]

theorem migrationHalt_ends (hmig : s.tile.net.mig = some m) (hstep : m.step = .requested) (hurg : s.urgent = false) (hmask : s.tile.core.mask = none)
    (hpend : s.nextPend = none) (hhold : s.tile.net.holding = false) (hstop : s.tile.stop.faulted ≠ none ∨ s.fld.served = false)
    (hnonet : m.src.nonet = m.dst.nonet) (hheld : s.tile.net.heldCancels = []) (hmark : m.mark = none) :
    exec .migrationHalt s = .next { s.dropCopies [s.tile.phys] with tile.net.mig := none } := by
  have hstop : (s.tile.stop.faulted.isSome || !s.fld.served) = true := by
    rw [Bool.or_eq_true, Option.isSome_iff_ne_none, Bool.not_eq_true']
    exact hstop
  rw [← State.endMove_alone hnonet hheld hmark]
  change execMigrationHalt s = _
  simp [execMigrationHalt, State.become, hmig, hstep, hurg, hmask, hpend, hhold, hstop]

theorem migrationFreezeDone_freezes (hmig : s.tile.net.mig = some m) (hstep : m.step = .halted) (hk : s.tile.tens.kstep = none) :
    ∃ t r, exec .migrationFreezeDone s = .next t ∧ t.tile = { s.tile with net.mig := some { m with step := .frozen } } ∧ t.net = s.net ++ [r] ∧
      r.body = .migCopy s.tile.phys ∧ r.dest = some m.dst := by
  let u : State := { s with tile.net.mig := some { m with step := .frozen } }
  let x : Packet :=
    { hdr := { dst := s.tile.id.name, src := s.tile.id.name, scope := 0, cls := 0, prio := 0, urgent := false, carrel := s.tile.id.carrel },
      body := .migCopy s.tile.phys, dest := some m.dst }
  have hexec : exec .migrationFreezeDone s = .next (u.emitFrom s.tile.phys x) := by
    change execMigrationFreezeDone s = _
    simp only [execMigrationFreezeDone, State.become, hmig, hstep, hk, Option.isNone_none, and_self, if_true]
    rfl
  obtain ⟨r, hnet, -, hbody, hdest, -⟩ := u.emitFrom_dest s.tile.phys (p := x) rfl
  exact ⟨_, r, hexec, u.emitFrom_tile _ _, hnet, hbody, hdest⟩

/- The landing (R68 steps 4 and 5). -/

theorem State.queueMove_eq (u : State) (f : Nat × Nat) (ms : List Migration) : u.queueMove f ms = u ∨ ∃ h, u.queueMove f ms = u.updField f h := by
  unfold State.queueMove
  split
  · exact .inl rfl
  · dsimp only
    split
    · exact .inl rfl
    · exact .inr ⟨_, rfl⟩

theorem State.queueMove_tile (u : State) (f : Nat × Nat) (ms : List Migration) : (u.queueMove f ms).tile = u.tile := by
  obtain h | ⟨k, h⟩ := u.queueMove_eq f ms <;> rw [h]
  rfl

theorem State.queueMove_tileAt (u : State) (f : Nat × Nat) (ms : List Migration) (q : Phys) : (u.queueMove f ms).tileAt q = u.tileAt q := by
  obtain h | ⟨k, h⟩ := u.queueMove_eq f ms <;> rw [h]
  rfl

/-- A residency lands: its old tile keeps the forwarding entry, and it stands at the new one. -/
theorem State.land_tiles (u : State) (h : m.dst ≠ u.tile.phys) : (u.land u.tile m).tile = u.tile.left (u.tileAt m.dst) (u.owing u.tile.phys) ∧
    (u.land u.tile m).tileAt m.dst = u.tile.moveTo (u.tileAt m.dst) m := by
  have hmoved : (u.tile.moveTo (u.tileAt m.dst) m).phys = m.dst := u.tileAt_phys m.dst
  have htile : (u.setTile (u.tile.moveTo (u.tileAt m.dst) m)).tile = u.tile := u.setTile_tile_of_ne (by rw [hmoved]; exact h)
  refine ⟨congrArg State.tile (State.setTile_here _ ?_), (State.tileAt_setTile _ _ _).trans ?_⟩
  · rw [htile]
    rfl
  · exact (if_neg (Ne.symm h)).trans ((State.tileAt_setTile _ _ _).trans (if_pos hmoved))

theorem exec_migrationCopyLanded (hmig : s.tile.net.mig = some m) (hstep : m.step = .frozen) (hnonet : m.src.nonet = m.dst.nonet) (hsound : s.tile.sound = true)
    (hfwd : (s.tileAt m.dst).net.fwd = none) (hfree : (s.tileAt m.dst).core.phase = .unbound) (hserved : s.fld.served = true) (horder : m.order = none)
    (hcopy : ∃ x ∈ s.net, x.body = .migCopy s.tile.phys ∧ x.place.map (·.1) = some m.dst) :
    exec .migrationCopyLanded s = .next (((s.dropCopies [s.tile.phys]).land s.tile m).queueMove m.src.field [m]) := by
  have hcome : (s.net.any fun x => x.body == .migCopy s.tile.phys && x.place.map (·.1) == some m.dst) = true := by simpa using hcopy
  change execMigrationCopyLanded s = _
  simp only [execMigrationCopyLanded, State.become, hmig, State.moveGroup_alone _ hnonet, List.all_cons, List.all_nil, hstep, hcome, hsound, hfwd, hfree,
    hserved, horder, beq_self_eq_true, Option.isNone_none, Bool.and_self, Bool.not_true, Option.any_none, Bool.false_eq_true, or_self, if_false,
    List.map_cons, List.map_nil, List.foldl_cons, List.foldl_nil, List.filterMap_cons, List.filterMap_nil]

theorem migrationCopyLanded_lands (hmig : s.tile.net.mig = some m) (hstep : m.step = .frozen) (hdst : m.dst ≠ s.tile.phys) (hnonet : m.src.nonet = m.dst.nonet)
    (hsound : s.tile.sound = true) (hfwd : (s.tileAt m.dst).net.fwd = none) (hfree : (s.tileAt m.dst).core.phase = .unbound) (hserved : s.fld.served = true)
    (horder : m.order = none) (hcopy : ∃ x ∈ s.net, x.body = .migCopy s.tile.phys ∧ x.place.map (·.1) = some m.dst) :
    ∃ t, exec .migrationCopyLanded s = .next t ∧ t.tile.phys = s.tile.phys ∧ t.tile.core.phase = .unbound ∧
      t.tile.net.fwd = some { dst := m.dst, agents := (s.dropCopies [s.tile.phys]).owing s.tile.phys } ∧ (t.tileAt m.dst).core = s.tile.core ∧
      (t.tileAt m.dst).view.mem = s.tile.view.mem ∧ (t.tileAt m.dst).view.ist = s.tile.view.ist ∧ (t.tileAt m.dst).task = s.tile.task ∧
      (t.tileAt m.dst).tens = s.tile.tens ∧ (t.tileAt m.dst).net.names = [] ∧ (t.tileAt m.dst).net.holding = true ∧
      (t.tileAt m.dst).net.mig = some { m with step := .copied } := by
  obtain ⟨hold, hnew⟩ := (s.dropCopies [s.tile.phys]).land_tiles hdst
  refine ⟨_, exec_migrationCopyLanded hmig hstep hnonet hsound hfwd hfree hserved horder hcopy, ?_⟩
  rw [State.queueMove_tile, State.queueMove_tileAt, show (State.land _ s.tile m).tile = _ from hold, show (State.land _ s.tile m).tileAt m.dst = _ from hnew]
  refine ⟨rfl, rfl, ?_, rfl, rfl, rfl, rfl, rfl, rfl, rfl, rfl⟩
  change some ({ dst := ((s.dropCopies [s.tile.phys]).tileAt m.dst).phys, agents := _ } : Forward) = _
  rw [State.tileAt_phys]
  rfl

/- Resuming (R68 step 7), and the end of step 4 without it (R381). -/

theorem State.evalSlots_unarmed {u : State} (n : BitVec 4) (h : u.tile.task.armed = []) : u.evalSlots n = u := by
  unfold State.evalSlots
  dsimp only
  split
  · rfl
  · simp [h]

theorem State.foldl_evalSlots {u : State} (h : u.tile.task.armed = []) (l : List Nat) : l.foldl (fun v i => v.evalSlots (BitVec.ofNat 4 i)) u = u :=
  List.foldlRecOn (motive := fun v => v = u) l _ rfl fun v hv i _ => by rw [hv, State.evalSlots_unarmed _ h]

theorem migrationResume_resumes (hmig : s.tile.net.mig = some m) (hstep : m.step = .published) (hheld : s.tile.net.heldCancels = []) (harmed : s.tile.task.armed = [])
    (hfires : s.tile.task.fires = []) (hmark : m.mark = none) : exec .migrationResume s = .next { s with tile.net.mig := none } := by
  have hslots := State.foldl_evalSlots (u := { s with tile.net.mig := none }) harmed (List.range 16)
  have hfired : State.retryFires { s with tile.net.mig := none } = { s with tile.net.mig := none } := if_pos (.inl hfires)
  have hnet : ({ s with tile.net.mig := none, tile.net.heldCancels := [] } : State) = { s with tile.net.mig := none } := by rw [← hheld]
  change execMigrationResume s = _
  simp only [execMigrationResume, State.become, hmig, hstep, hheld, hnet, List.foldl_nil, hslots, hfired, hmark, State.moveToken]
  rfl

theorem migrationAbort_ends (hmig : s.tile.net.mig = some m) (hstep : m.step = .frozen) (hnonet : m.src.nonet = m.dst.nonet) (hn : s.inp.n = 0)
    (hheld : s.tile.net.heldCancels = []) (hmark : m.mark = none) :
    ∃ t, exec .migrationAbort s = .next t ∧ t.tile.net.mig = none ∧ t.tile.core = s.tile.core ∧ t.tile.view = s.tile.view := by
  have hexec : exec .migrationAbort s = .next ((s.stewardEvent m.src.field 0xD3 0 0).endMove m) := by
    change execMigrationAbort s = _
    simp only [execMigrationAbort, State.become, hmig, hstep, hn, State.stewardEvent_inp, ne_eq, not_true_eq_false, zero_ne_one, false_and, or_self, if_false]
    split <;> rfl
  have hkeeps : ∀ {α : Type} (keep : Tile → α), (∀ t l, keep { t with stw.exns := l } = keep t) → keep (s.stewardEvent m.src.field 0xD3 0 0).tile = keep s.tile := by
    intro α keep hk
    refine s.updTile_keeps keep _ (fun t => ?_) fun t => ?_
    · obtain ⟨l, hl⟩ := t.stewardEvent_eq { cause := BitVec.ofNat 16 0xD3, addr := 0, info := 0 }
      rw [hl]
    · obtain ⟨l, hl⟩ := t.stewardEvent_eq { cause := BitVec.ofNat 16 0xD3, addr := 0, info := 0 }
      rw [hl]
      exact hk t l
  refine ⟨_, hexec, ?_⟩
  rw [State.endMove_alone hnonet ((hkeeps (·.net.heldCancels) fun _ _ => rfl).trans hheld) hmark]
  exact ⟨rfl, hkeeps Tile.core fun _ _ => rfl, hkeeps Tile.view fun _ _ => rfl⟩

end Moves

section Forwarding

variable {s : State} {w : Forward} {p : Packet}

theorem State.mem_arrived {q : Phys} : p ∈ s.arrived q ↔ p ∈ s.net ∧ p.place.map (·.1) = some q := by
  simp [State.arrived]

/- At the old tile (R69, R70). -/

/-- What has reached the old tile, on its way to the new one. -/
def forwardOn (p : Packet) (here : Phys) (w : Forward) (id : Nat) : Packet :=
  { p with dest := if p.dest = some here then some w.dst else p.dest, place := none, fwd := true,
           way := some { id := id, src := here, dst := w.dst, vc := 4, fwd := true, left := p.len + 1 } }

theorem forwardedArrival_forwards (hw : s.tile.net.fwd = some w) (hp : s.inp.pkt = some p) (hmem : p ∈ s.net) (hplace : p.place.map (·.1) = some s.tile.phys)
    (hnew : forOld p = false) (hold : ∀ q ∈ s.arrived s.tile.phys, forOld q = true ∨ arrivalNo p ≤ arrivalNo q) :
    ∃ t r, exec .forwardedArrival s = .next t ∧ r ∈ t.net ∧ r.hdr = p.hdr ∧ r.body = p.body ∧ r.fwd = true ∧ r.place = none ∧
      r.way.map (·.dst) = some w.dst ∧ t.tile = s.tile := by
  have hgo : ¬((!((s.arrived s.tile.phys).filter fun q => !forOld q).contains p) = true ∨
      (((s.arrived s.tile.phys).filter fun q => !forOld q).any fun q => decide (arrivalNo q < arrivalNo p)) = true) := by
    rintro (h | h)
    · simp [State.mem_arrived, hmem, hplace, hnew] at h
    · obtain ⟨q, hq, hlt⟩ := List.any_eq_true.1 h
      obtain ⟨hq, hqnew⟩ := List.mem_filter.1 hq
      have hle := (hold q hq).resolve_left (by simpa using hqnew)
      exact absurd hle (by simpa using hlt)
  have hexec : exec .forwardedArrival s = .next { s.putPacket p (forwardOn p s.tile.phys w s.serial) with serial := s.serial + 1 } := by
    change execForwardedArrival s = _
    simp only [execForwardedArrival, State.become, hw, hp, if_neg hgo]
    rfl
  exact ⟨_, _, hexec, List.mem_map.2 ⟨p, hmem, if_pos rfl⟩, rfl, rfl, rfl, rfl, rfl, rfl⟩

/-- A forwarding entry with the marker of a channel (R70). -/
def Forward.withMarker (w : Forward) (ch : BitVec 2) : Forward := { w with markers := if w.markers.contains ch then w.markers else w.markers ++ [ch] }

theorem State.marked_eq (hw : s.tile.net.fwd = some w) (ch : BitVec 2) : s.marked ch = { s with tile.net.fwd := some (w.withMarker ch) } := by
  unfold State.marked
  rw [hw]
  rfl

theorem endMarker_arrives {ch : BitVec 2} (hw : s.tile.net.fwd = some w) (hp : s.inp.pkt = some p) (hmem : p ∈ s.net)
    (hplace : p.place.map (·.1) = some s.tile.phys) (hbody : p.body = .endMarker ch) (hdest : p.dest ≠ none) :
    exec .endMarker s = .next { s.unsend p with tile.net.fwd := some (if ch = 3 then w.withMarker 3
      else { w with agents := w.agents.filter fun a => edgeAgent a != p.origin }) } := by
  have hfor : forOld p = true := by
    simp only [forOld, hbody]
    exact Option.isSome_iff_ne_none.2 hdest
  have harr : (s.arrived s.tile.phys).contains p = true := by simp [State.mem_arrived, hmem, hplace]
  change execEndMarker s = _
  simp only [execEndMarker, State.become, hp, hbody, hfor, harr, hw, Bool.not_true, Bool.false_eq_true, if_false, if_true]
  split_ifs
  · rw [State.marked_eq (s := s.unsend p) hw]
  · rfl

theorem forwardingRetire_retires (hw : s.tile.net.fwd = some w) (hpub : w.published = true) (hmark : 4 ≤ w.markers.length) (hag : w.agents = [])
    (harr : s.arrived s.tile.phys = []) (hnonet : w.dst.nonet = s.tile.phys.nonet) :
    ∃ t r, exec .forwardingRetire s = .next t ∧ t.tile.net.fwd = none ∧ t.net = s.net ++ [r] ∧ r.body = .finalMarker ∧ r.dest = some w.dst ∧
      r.origin = s.tile.phys := by
  let u : State := { s with tile.net.fwd := none }
  let x : Packet :=
    { hdr := { dst := (s.tileAt w.dst).id.name, src := (s.tileAt w.dst).id.name, scope := 0, cls := 0, prio := 0, urgent := false,
               carrel := (s.tileAt w.dst).id.carrel },
      body := .finalMarker, dest := some w.dst }
  have hexec : exec .forwardingRetire s = .next (u.emitFrom s.tile.phys x) := by
    change execForwardingRetire s = _
    simp [execForwardingRetire, State.become, hw, hpub, Nat.not_lt.2 hmark, hag, harr, hnonet, u, x]
  obtain ⟨r, hnet, -, hbody, hdest, horigin⟩ := u.emitFrom_dest s.tile.phys (p := x) rfl
  refine ⟨_, r, hexec, ?_, hnet, hbody, hdest, horigin⟩
  rw [u.emitFrom_tile]

/- The drain wave, and the markers of the edge agents (R70). -/

theorem endMarker_drains {q : Phys} {ch : BitVec 2} (hq : q = Phys.ofOperand s.inp.word) (hch : ch = BitVec.ofNat 2 (s.inp.n % 3)) (hp : s.inp.pkt = none)
    (hw : (s.tileAt q).net.fwd = some w) (hk : s.inp.k ≠ 1) (hnot : (ch, s.tile.phys) ∉ w.passed) (hpass : s.wavePasses q w ch = true) :
    ∃ t, exec .endMarker s = .next t ∧ t.net = s.net ∧
      (t.tileAt q).net.fwd = some (if s.tile.phys = q then w.withMarker ch else { w with passed := w.passed ++ [(ch, s.tile.phys)] }) := by
  subst hq hch
  have hgo : ¬(w.passed.contains (BitVec.ofNat 2 (s.inp.n % 3), s.tile.phys) = true ∨
      (!s.wavePasses (Phys.ofOperand s.inp.word) w (BitVec.ofNat 2 (s.inp.n % 3))) = true) := by
    simp [hnot, hpass]
  have hexec : exec .endMarker s = .next (if s.tile.phys = Phys.ofOperand s.inp.word then s.marked (BitVec.ofNat 2 (s.inp.n % 3))
      else s.updTile (Phys.ofOperand s.inp.word) fun t =>
        { t with net.fwd := some { w with passed := w.passed ++ [(BitVec.ofNat 2 (s.inp.n % 3), s.tile.phys)] } }) := by
    change execEndMarker s = _
    simp only [execEndMarker, State.become, hp, hw, if_neg hk, if_neg hgo]
  split_ifs at hexec ⊢ with hhere
  · have hw : s.tile.net.fwd = some w := by
      rw [← hhere, State.tileAt_here] at hw
      exact hw
    rw [State.marked_eq hw] at hexec
    refine ⟨_, hexec, rfl, ?_⟩
    rw [← hhere]
    exact congrArg (·.net.fwd) (State.tileAt_here _)
  · exact ⟨_, hexec, State.setTile_net .., congrArg (·.net.fwd) (s.tileAt_updTile_self _ fun _ => by rfl)⟩

theorem endMarker_agent {q : Phys} (hq : q = Phys.ofOperand s.inp.word) (hp : s.inp.pkt = none) (hw : (s.tileAt q).net.fwd = some w) (hk : s.inp.k = 1)
    (hag : s.inp.n ∈ w.agents) (hport : ∀ r ∈ (s.port s.inp.n).reqs, r.tile ≠ q)
    (hnet : ∀ p ∈ s.net, ¬ (Packet.farBetween p q s.inp.n = true ∧ p.origin = q) ∧ ¬ (forOld p = true ∧ p.origin = edgeAgent s.inp.n ∧ p.dest = some q)) :
    ∃ t r, exec .endMarker s = .next t ∧ t.net = s.net ++ [r] ∧ r.body = .endMarker 1 ∧ r.dest = some q ∧ r.origin = edgeAgent s.inp.n := by
  subst hq
  have hgo : ¬((!w.agents.contains s.inp.n) = true ∨ ((s.port s.inp.n).reqs.any (·.tile == Phys.ofOperand s.inp.word)) = true ∨
      (s.net.any fun p => Packet.farBetween p (Phys.ofOperand s.inp.word) s.inp.n && p.origin == Phys.ofOperand s.inp.word) = true ∨
      (s.net.any fun p => forOld p && p.origin == edgeAgent s.inp.n && p.dest == some (Phys.ofOperand s.inp.word)) = true) := by
    rintro (h | h | h | h)
    · simp [hag] at h
    · obtain ⟨r, hr, htile⟩ := List.any_eq_true.1 h
      exact hport r hr (by simpa using htile)
    · obtain ⟨p, hmem, hfar⟩ := List.any_eq_true.1 h
      exact (hnet p hmem).1 (by simpa using hfar)
    · obtain ⟨p, hmem, hmark⟩ := List.any_eq_true.1 h
      exact (hnet p hmem).2 (by simpa [and_assoc] using hmark)
  let x : Packet :=
    { hdr := stewardHdr (s.tileAt w.dst).id.carrel (s.tileAt w.dst).id.name 0 0 0 false, body := .endMarker 1, dest := some (Phys.ofOperand s.inp.word) }
  have hexec : exec .endMarker s = .next (s.emitFrom (edgeAgent s.inp.n) x) := by
    change execEndMarker s = _
    simp only [execEndMarker, State.become, hp, hw, if_pos hk, if_neg hgo]
    rfl
  obtain ⟨r, hsent, -, hbody, hdest, horigin⟩ := s.emitFrom_dest (edgeAgent s.inp.n) (p := x) rfl
  exact ⟨_, r, hexec, hsent, hbody, hdest, horigin⟩

/- At the new tile (R70). -/

theorem finalMarker_releases (hp : s.inp.pkt = some p) (hmem : p ∈ s.net) (hplace : p.place.map (·.1) = some s.tile.phys) (hbody : p.body = .finalMarker)
    (hlast : ∀ q ∈ s.net, q.fwd = true → q.place.map (·.1) ≠ some s.tile.phys ∧ q.way.map (·.dst) ≠ some s.tile.phys) :
    exec .finalMarker s = .next { s.unsend p with tile.net.holding := false } := by
  have hgo : ¬(p.body ≠ .finalMarker ∨ (!(s.arrived s.tile.phys).contains p) = true ∨
      (s.net.any fun q => q.fwd && (q.place.map (·.1) == some s.tile.phys || q.way.any (·.dst == s.tile.phys))) = true) := by
    rintro (h | h | h)
    · exact h hbody
    · simp [State.mem_arrived, hmem, hplace] at h
    · obtain ⟨q, hq, hcome⟩ := List.any_eq_true.1 h
      simp only [Bool.and_eq_true, Bool.or_eq_true, beq_iff_eq] at hcome
      obtain ⟨hfwd, hcome⟩ := hcome
      obtain ⟨hplaced, hway⟩ := hlast q hq hfwd
      refine hcome.elim hplaced fun hto => hway ?_
      obtain ⟨v, hv, hdst⟩ := (Option.any_eq_true _ _).1 hto
      rw [hv, Option.map_some, eq_of_beq hdst]
  change execFinalMarker s = _
  simp only [execFinalMarker, State.become, hp, if_neg hgo]

end Forwarding

/-- Settles O50, clause by clause: each step of a migration is one equation for the tile in focus, and a forwarding entry changes by its markers alone. -/
theorem migrationWorks : Obligations.MigrationWorks := by
  intro s m w
  refine ⟨fun hmig => ⟨?_, migrationFreezeDone_freezes hmig, ?_, migrationResume_resumes hmig, migrationAbort_ends hmig⟩, fun hw => ⟨?_, ?_⟩, ?_, ?_⟩
  · intro hstep hurg hmask hpend hhold
    exact ⟨migrationHalt_halts hmig hstep hurg hmask hpend hhold, migrationHalt_ends hmig hstep hurg hmask hpend hhold⟩
  · intro hstep _ hdst hnonet hsound _ hfwd hfree hserved horder hcopy
    exact migrationCopyLanded_lands hmig hstep hdst hnonet hsound hfwd hfree hserved horder hcopy
  · intro p hp hmem hplace
    exact ⟨forwardedArrival_forwards hw hp hmem hplace, fun ch hbody hdest => endMarker_arrives hw hp hmem hplace hbody hdest⟩
  · exact forwardingRetire_retires hw
  · intro q ch hq hch hp hwq
    exact ⟨endMarker_drains hq hch hp hwq, endMarker_agent hq hp hwq⟩
  · exact fun p hp hmem hplace hbody hlast => finalMarker_releases hp hmem hplace hbody hlast

end Sys2Proof.Machine
end

section
/-!
What the instructions of the task unit share: the state in which granted accesses have been noted, a token mark, and armed slots that stay as they are.
-/

namespace Sys2Proof.Machine

open Sys2Proof.Claims

variable (s : State)

/-- Performing the store queue changes the view alone (R118). -/
theorem State.drained_eq : ∃ v, s.drained = { s with tile.view := v } := by
  unfold State.drained Tile.drain
  rw [Tile.perform_eq]
  exact ⟨_, rfl⟩

theorem State.settled_eq : ∃ v, s.settled = { s with tile.view := v } := by
  unfold State.settled
  split
  · exact ⟨_, rfl⟩
  · exact s.drained_eq

/-- Noting accesses changes the view and the pages of the masked window alone (R53, R76). -/
theorem State.noteAll_eq (l : List (Nat × Nat × Bool × Bool)) : ∃ v ms, s.noteAll l = { s with tile.view := v, tile.core.maskPages := ms } := by
  obtain ⟨_, _, _, _, _, _, _, h⟩ := Tile.touchAll_eq s.tile l
  unfold State.noteAll
  rw [h]
  exact ⟨_, _, rfl⟩

/-- So does granting accesses before the store queue drains. -/
theorem State.granted_eq (l : List (Nat × Nat × Bool × Bool)) :
    ∃ v ms, (s.settled.noteAll l).drained = { s with tile.view := v, tile.core.maskPages := ms } := by
  obtain ⟨v, hv⟩ := s.settled_eq
  obtain ⟨w, ms, hw⟩ := State.noteAll_eq { s with tile.view := v } l
  obtain ⟨z, hz⟩ := State.drained_eq ({ s with tile.view := v }.noteAll l)
  rw [hv, hz, hw]
  exact ⟨_, _, rfl⟩

/-- A mark takes the next number and changes the list of marks alone (R93). -/
theorem State.mark_eq (r : Reg) (pair : Bool) : ∃ l, (s.mark r pair).1 = { s with tile.net.nextId := s.tile.net.nextId + 1, tile.net.marks := l } ∧
    (r = 0 ∨ ∃ m ∈ l, m.reg = r ∧ m.level = s.tile.core.level ∧ m.id = s.tile.net.nextId) := by
  unfold State.mark
  dsimp only
  split
  · next h => exact ⟨_, rfl, .inl h⟩
  · exact ⟨_, rfl, .inr ⟨_, List.mem_append_right _ (List.mem_singleton_self _), rfl, rfl, rfl⟩⟩

/-- With no slot of a counter due nothing fires (R163). -/
theorem State.evalSlots_idle (n : BitVec 4) (h : idleSlots s n (s.tile.task.cnt[n.toNat]).count = true) : s.evalSlots n = s := by
  have hnone : (s.tile.task.armed.filter fun a => a.cnt == n && slotDue (s.tile.task.cnt[n.toNat]).count a.threshold) = [] := by
    rw [List.filter_eq_nil_iff]
    intro x hx
    have hx := List.all_eq_true.1 h x hx
    grind
  unfold State.evalSlots
  dsimp only
  rw [hnone]
  split <;> rfl

theorem mem_insertArmed (x : Armed) (l : List Armed) (y : Armed) : y ∈ insertArmed x l ↔ y = x ∨ y ∈ l := by
  induction l with
  | nil => simp [insertArmed]
  | cons b l ih =>
    unfold insertArmed
    split
    · simp
    · simp only [List.mem_cons, ih]
      tauto

end Sys2Proof.Machine
end

section
/-!
O31: armed operations and counters (R161 to R163, R313, R314).
-/

namespace Sys2Proof.Machine

open Sys2Proof.Claims

variable {s : State} {d a b : Reg} {n : BitVec 4}

/-- A slot that no armed operation holds is not armed. -/
theorem State.slotArmed_of_free {k : BitVec 4} (h : (s.tile.task.armed.all fun x => x.slot != k) = true) : s.slotArmed k = false := by
  simp only [State.slotArmed, List.any_eq_false]
  intro x hx
  simpa using List.all_eq_true.1 h x hx

/-- An operation that enters a counter's slots below its threshold leaves them idle. -/
theorem idleSlots_insert {t : State} {x : Armed} {c : Word} (ha : t.tile.task.armed = insertArmed x s.tile.task.armed) (hx : slotDue c x.threshold = false)
    (h : idleSlots s n c = true) : idleSlots t n c = true := by
  unfold idleSlots at h ⊢
  rw [ha, List.all_eq_true]
  intro y hy
  rcases (mem_insertArmed x _ y).1 hy with rfl | hy
  · simp [hx]
  · exact List.all_eq_true.1 h y hy

theorem trigArm_holds (hc : s.clear (.trigArm d a b n) [a, b] = true) (hfree : (s.tile.task.armed.all fun x => x.slot != d.setWidth 4) = true)
    (halign : (s.sr a).toNat % 16 = 0) (hgrant : s.grants [((s.sr a).toNat, 32, false, true)] = true)
    (hact : (s.settled.actionChecks (s.sr a).toNat).all (·.2) = true) (hdue : slotDue (s.tile.task.cnt[n.toNat]).count (s.sr b) = false)
    (hidle : idleSlots s n (s.tile.task.cnt[n.toNat]).count = true) :
    ∃ t x, exec (.trigArm d a b n) s = .next t ∧ x ∈ t.tile.task.armed ∧ x.slot = d.setWidth 4 ∧ x.cnt = n ∧ x.threshold = s.sr b ∧
      x.act = s.settled.actionAt (s.sr a).toNat ∧ x.scope = s.tile.core.cur.scope ∧ Marked s t x.act.tok := by
  have hslot := State.slotArmed_of_free hfree
  have hfind : ((s.settled.actionChecks (s.sr a).toNat).find? fun x => !x.2) = none := by
    rw [List.find?_eq_none]
    intro x hx
    simpa using List.all_eq_true.1 hact x hx
  obtain ⟨v, ms, hg⟩ := s.granted_eq [((s.sr a).toNat, 32, false, true)]
  obtain ⟨marks, hmark, hmarked⟩ := State.mark_eq (s.settled.noteAll [((s.sr a).toNat, 32, false, true)]).drained
    (s.settled.actionAt (s.sr a).toNat).tok false
  cases hm : (s.settled.noteAll [((s.sr a).toNat, 32, false, true)]).drained.mark (s.settled.actionAt (s.sr a).toNat).tok with
  | mk u m =>
  rw [hm, hg] at hmark
  rw [hg] at hmarked
  dsimp only at hmark hmarked
  subst hmark
  let x : Armed := { slot := d.setWidth 4, cnt := n, threshold := s.sr b, act := s.settled.actionAt (s.sr a).toNat, scope := s.tile.core.cur.scope,
                     urgent := s.urgent, mark := m, own := s.tile.core.cur.own }
  have hsr : s.settled.sr b = s.sr b := by
    obtain ⟨w, hw⟩ := s.settled_eq
    rw [hw]
    rfl
  let t : State := { s with tile.view := v, tile.core.maskPages := ms, tile.net.nextId := s.tile.net.nextId + 1, tile.net.marks := marks,
                            tile.task.armed := insertArmed x s.tile.task.armed }
  have hquiet : t.evalSlots n = t := t.evalSlots_idle n (idleSlots_insert (s := s) rfl hdue hidle)
  refine ⟨t.after 2, x, ?_, (mem_insertArmed x _ x).2 (.inl rfl), rfl, rfl,
    rfl, rfl, rfl, hmarked⟩
  · change execTrigArm d a b n s = _
    unfold execTrigArm
    refine State.issue_done (t := t) hc nofun rfl nofun ?_ rfl rfl
    rw [hslot, if_neg Bool.false_ne_true, State.need_ok _ _ _ _ (by simpa using halign), State.checked_ok _ _ _ hgrant, hfind]
    dsimp only
    rw [hm, hsr]
    exact congrArg Res.done hquiet

@[simp] theorem Tile.clearMark_task (t : Tile) (id : Option Nat) : (t.clearMark id).task = t.task := by cases id <;> rfl
@[simp] theorem Tile.clearMark_core (t : Tile) (id : Option Nat) : (t.clearMark id).core = t.core := by cases id <;> rfl

theorem trigClr_frees {y : Armed} (hc : s.clear (.trigClr d) [] = true) (hy : (s.tile.task.armed.find? fun x => x.slot == d.setWidth 4) = some y) :
    ∃ t, exec (.trigClr d) s = .next t ∧ t.tile.task.armed = s.tile.task.armed.erase y := by
  refine ⟨{ s with tile := (s.tile.clearMark y.mark).dropArmed y }.after 2, ?_, by simp [Tile.dropArmed]⟩
  change execTrigClr d s = _
  unfold execTrigClr
  refine State.issue_done hc nofun rfl nofun ?_ (by simp [Tile.dropArmed]) (by simp [Tile.dropArmed])
  rw [hy]

theorem trigClr_unarmed (hc : s.clear (.trigClr d) [] = true) (h : ∀ x ∈ s.tile.task.armed, x.slot ≠ d.setWidth 4) :
    exec (.trigClr d) s = .next (s.after 2) := by
  have hnone : (s.tile.task.armed.find? fun x => x.slot == d.setWidth 4) = none := by
    rw [List.find?_eq_none]
    intro x hx
    simpa using h x hx
  change execTrigClr d s = _
  unfold execTrigClr
  refine State.issue_done hc nofun rfl nofun ?_ rfl rfl
  rw [hnone]

/-- A counter set to a count at which none of its slots is due holds what was written, and the core goes on. -/
theorem State.setCounter_idle {c : Counter} (h : idleSlots s n c.count = true) :
    (s.setCounter n c).tile.core = s.tile.core ∧ (s.setCounter n c).tile.task.cnt[n.toNat] = c := by
  obtain ⟨v, hv⟩ := s.drained_eq
  have hset : s.setCounter n c = { s with tile.view := v, tile.task.cnt := s.tile.task.cnt.set n.toNat c } := by
    unfold State.setCounter
    rw [hv]
    refine State.evalSlots_idle _ n ?_
    simpa [idleSlots] using h
  rw [hset]
  exact ⟨rfl, Vector.getElem_set_self _⟩

theorem cntset_writes (hc : s.clear (.cntset d a b) [a, b] = true) (hmode : (s.sr b).toNat % 8 ≤ 4) (hzero : (s.sr b).toNat / 128 % 512 = 0)
    (hidle : idleSlots s (d.setWidth 4) (s.sr a) = true) :
    ∃ t, exec (.cntset d a b) s = .next t ∧
      t.tile.task.cnt[(d.setWidth 4 : BitVec 4).toNat] = Counter.mk (s.sr a) ((s.sr b).setWidth 3) ((s.sr b >>> 3).setWidth 4) := by
  let c := Counter.mk (s.sr a) ((s.sr b).setWidth 3) ((s.sr b >>> 3).setWidth 4)
  obtain ⟨hcore, hcnt⟩ := State.setCounter_idle (c := c) hidle
  refine ⟨(s.setCounter (d.setWidth 4) c).after 2, ?_, hcnt⟩
  change execCntset d a b s = _
  unfold execCntset
  refine State.issue_done hc nofun rfl nofun ?_ (by rw [hcore]) (by rw [hcore])
  exact State.need_ok _ _ _ _ (by simp [hmode, hzero])

theorem cntsetV_writes (hc : s.clear (.cntsetV d a) [a] = true) (hidle : idleSlots s (d.setWidth 4) (s.sr a) = true) :
    ∃ t, exec (.cntsetV d a) s = .next t ∧ (t.tile.task.cnt[(d.setWidth 4 : BitVec 4).toNat]).count = s.sr a ∧
      (t.tile.task.cnt[(d.setWidth 4 : BitVec 4).toNat]).mode = (s.tile.task.cnt[(d.setWidth 4 : BitVec 4).toNat]).mode := by
  let c : Counter := { s.tile.task.cnt[(d.setWidth 4 : BitVec 4).toNat] with count := s.sr a }
  obtain ⟨hcore, hcnt⟩ := State.setCounter_idle (c := c) hidle
  refine ⟨(s.setCounter (d.setWidth 4) c).after 2, ?_, congrArg Counter.count hcnt, (congrArg Counter.mode hcnt :)⟩
  change execCntsetV d a s = _
  unfold execCntsetV
  exact State.issue_done hc nofun rfl nofun rfl (by rw [hcore]) (by rw [hcore])

theorem cntrd_reads (hc : s.clear (.cntrd d a) [] = true) :
    exec (.cntrd d a) s = .next ((s.setS d (s.tile.task.cnt[(a.setWidth 4 : BitVec 4).toNat]).selector).after 2) := by
  change execCntrd d a s = _
  unfold execCntrd
  exact State.issue_done hc nofun rfl nofun rfl (by simp) (by simp)

/-- Settles O31, clause by clause: each instruction issues and falls through, and no slot of the counter that it touches is due, so nothing fires. -/
theorem armedOperations : Obligations.ArmedOperations :=
  fun _ _ _ _ _ _ => ⟨trigArm_holds, trigClr_frees, trigClr_unarmed, cntset_writes, cntsetV_writes, cntrd_reads⟩

end Sys2Proof.Machine
end

section
/-!
O32: barrier joins, arrivals and waits (R38, R165, R166, R315).
-/

namespace Sys2Proof.Machine

open Sys2Proof.Claims

section Membership

variable {s : State} {d a : Reg} {b : BarId} {m : Member} {j : Fin 4}

/-- The entries in use are the membership entries that hold something. -/
theorem Tile.mem_memberList (t : Tile) (k : Fin 4) (m : Member) : (k.val, m) ∈ t.memberList ↔ t.task.members[k] = some m := by
  have hk : k.val % 4 = k.val := Nat.mod_eq_of_lt k.isLt
  simp only [Tile.memberList, List.mem_filterMap, List.mem_range, Option.map_eq_some_iff, Prod.mk.injEq]
  constructor
  · rintro ⟨i, hi, x, hx, rfl, rfl⟩
    simpa [hk] using hx
  · exact fun h => ⟨k, k.isLt, m, by simpa [hk] using h, rfl, rfl⟩

theorem Tile.lt_of_mem_memberList {t : Tile} {x : Nat × Member} (h : x ∈ t.memberList) : x.1 < 4 := by
  simp only [Tile.memberList, List.mem_filterMap, List.mem_range, Option.map_eq_some_iff] at h
  obtain ⟨i, hi, m, -, rfl⟩ := h
  exact hi

/-- An index stands in no entry in use when its entry is free. -/
theorem Tile.memberList_free (t : Tile) (k : Fin 4) : (t.memberList.all fun x => x.1 ≠ k.val) = true ↔ t.task.members[k] = none := by
  simp only [List.all_eq_true, decide_eq_true_eq]
  constructor
  · intro h
    cases hm : t.task.members[k] with
    | none => rfl
    | some m => exact absurd rfl (h (k.val, m) ((t.mem_memberList k m).2 hm))
  · rintro h ⟨i, m⟩ hx rfl
    exact absurd (((t.mem_memberList k m).1 hx).symm.trans h) nofun

/-- A join takes the lowest free entry (R315). -/
theorem State.join_free (addr : Word) (k : Res → Res) (hfree : s.tile.task.members[j] = none) (hlow : ∀ i : Fin 4, i < j → s.tile.task.members[i] ≠ none)
    (hnew : ∀ i : Fin 4, (s.tile.task.members[i]).map (·.bar) ≠ some b) :
    s.join d b addr k = k (.done ((s.setMember j (some { bar := b, scope := s.tile.core.cur.scope })).setS d (BitVec.ofNat 32 j.val))) := by
  have hfirst : ((List.range 4).find? fun i => s.tile.memberList.all fun x => x.1 ≠ i) = some j.val := by
    rw [List.find?_range_eq_some]
    refine ⟨(s.tile.memberList_free j).2 hfree, List.mem_range.2 j.isLt, fun i hi => ?_⟩
    rw [Bool.not_eq_true', Bool.eq_false_iff]
    exact fun h => hlow ⟨i, hi.trans j.isLt⟩ hi ((s.tile.memberList_free ⟨i, hi.trans j.isLt⟩).1 h)
  have hnone : (s.tile.memberList.find? fun x => x.2.bar == b) = none := by
    rw [List.find?_eq_none]
    rintro ⟨i, m⟩ hx
    have hi := (s.tile.mem_memberList ⟨i, Tile.lt_of_mem_memberList hx⟩ m).1 hx
    simpa [hi] using hnew ⟨i, Tile.lt_of_mem_memberList hx⟩
  simp only [State.join, hfirst, hnone, State.setMember, Nat.mod_eq_of_lt j.isLt]

@[simp] theorem State.setMember_core (x : Option Member) : (s.setMember j x).tile.core = s.tile.core := rfl

/-- Replacing an entry in a state whose membership entries are those of another. -/
theorem State.setMember_of_members {u : State} (h : u.tile.task.members = s.tile.task.members) (x : Option Member) :
    u.setMember j x = { u with tile.task.members := s.tile.task.members.set j.val x j.isLt } := by
  unfold State.setMember
  rw [h]

theorem barJoin_joins {i : Instr} {rs : List Reg} (hi : joins s i = some (d, rs, b)) (hc : s.clear i rs = true) (hfree : s.tile.task.members[j] = none)
    (hlow : ∀ k : Fin 4, k < j → s.tile.task.members[k] ≠ none) (hnew : ∀ k : Fin 4, (s.tile.task.members[k]).map (·.bar) ≠ some b) :
    exec i s = .next (((s.setMember j (some { bar := b, scope := s.tile.core.cur.scope })).setS d (BitVec.ofNat 32 j.val)).after 2) := by
  unfold joins at hi
  split at hi
  case h_1 d' a' b' =>
    split at hi
    case isFalse => cases hi
    case isTrue hal =>
      cases hi
      change execBarJoin d a' b' s = _
      unfold execBarJoin
      refine State.issue_done hc nofun rfl nofun ?_ (by simp) (by simp)
      exact (State.join_free _ _ hfree hlow hnew).trans (State.need_ok _ _ _ _ (by simpa using hal))
  case h_2 d' a' =>
    cases hi
    change execBarLine d a' s = _
    unfold execBarLine
    exact State.issue_done hc nofun rfl nofun (State.join_free _ _ hfree hlow hnew) (by simp) (by simp)
  case h_3 => cases hi

/-- BAR.JOIN.X withdraws from the barrier that the entry stands for, and frees the entry (R38). -/
theorem barJoinX_withdraws (hc : s.clear (.barJoinX a) [a] = true) (ha : (s.sr a).toNat % 4 = j.val) (hm : s.tile.task.members[j] = some m)
    (hu : (s.withdrawMember m).tile = s.tile) :
    exec (.barJoinX a) s = .next ((State.setMember (s.withdrawMember m) j none).after 2) := by
  change execBarJoinX a s = _
  unfold execBarJoinX
  refine State.issue_done hc nofun rfl nofun ?_ (by simp [hu]) (by simp [hu])
  have hj : (⟨(s.sr a).toNat % 4, Nat.mod_lt _ (by decide)⟩ : Fin 4) = j := Fin.ext ha
  simp only [hj, hm]

theorem State.withdrawMember_count {h : Word} {n : Nat} (hb : m.bar = .count h n) (ha : m.arrived = false) :
    s.withdrawMember m = s.emit { hdr := s.hdr h m.scope, body := .barDec n false } := by
  simp [State.withdrawMember, hb, ha]

theorem State.withdrawMember_quiet (h : (∃ n, m.bar = .line n) ∨ m.arrived = true) : s.withdrawMember m = s := by
  unfold State.withdrawMember
  rcases h with ⟨n, hb⟩ | ha
  · rw [hb]
  · split
    · rw [if_pos ha]
    · rfl

/-- The entry that an index in range names (R315). -/
theorem State.member_some (k : Fin 4 → Member → Res) (ha : (s.sr a).toNat = j.val) (hm : s.tile.task.members[j] = some m) : s.member a k = k j m := by
  have hj : (⟨(s.sr a).toNat % 4, Nat.mod_lt _ (by decide)⟩ : Fin 4) = j := Fin.ext (by simp only [ha]; omega)
  simp only [State.member, if_neg (show ¬ 4 ≤ (s.sr a).toNat by omega), hj, hm]

theorem barArrive_line {n : BitVec 2} (hc : s.clear (.barArrive a) [a] = true) (hurg : s.urgent = false) (ha : (s.sr a).toNat = j.val)
    (hm : s.tile.task.members[j] = some m) (hrel : s.released 2 = true) (hb : m.bar = .line n) :
    exec (.barArrive a) s =
      .next ((s.setMember j (some (if m.arrived then { m with pending := true } else { m with arrived := true, boost := none }))).after 2) := by
  change execBarArrive a s = _
  unfold execBarArrive
  refine State.issue_done hc nofun rfl (fun _ => hurg) ?_ rfl rfl
  rw [State.member_some _ ha hm, hb]
  simp [hrel]

/-- A name that needs no walk passes its check (R58, R64). -/
theorem State.named_known {n : Word} (major : Nat) (k : State → Res) (h : known s n = true) : s.named n major k = k (looked s n) := by
  simp only [known, Bool.and_eq_true, Bool.or_eq_true, beq_iff_eq] at h
  obtain ⟨hin, hn⟩ := h
  simp only [State.named, hin, looked, Bool.not_true, Bool.false_eq_true, if_false]
  split
  · rfl
  · next hne =>
    obtain ⟨e, he⟩ := Option.isSome_iff_exists.1 (hn.resolve_left hne)
    simp only [he, Tile.useName]

/-- A lookup changes the name cache alone. -/
theorem looked_eq (s : State) (n : Word) : ∃ l, looked s n = { s with tile.net.names := l } := by
  unfold looked
  split
  · exact ⟨_, rfl⟩
  · split <;> exact ⟨_, rfl⟩

theorem State.issueOp_core (u : State) (h : Hdr) (x : Body) (armed : Bool) (urg : Option Bool) : (u.issueOp h x armed urg).tile.core = u.tile.core := by
  unfold State.issueOp
  split <;> rfl

theorem State.issueOp_task (u : State) (h : Hdr) (x : Body) (armed : Bool) (urg : Option Bool) : (u.issueOp h x armed urg).tile.task = u.tile.task := by
  unfold State.issueOp
  split <;> rfl

theorem barArrive_count {h : Word} {n : Nat} (hc : s.clear (.barArrive a) [a] = true) (hurg : s.urgent = false) (ha : (s.sr a).toNat = j.val)
    (hm : s.tile.task.members[j] = some m) (hrel : s.released 2 = true) (hb : m.bar = .count h n) (harr : m.arrived = false) (hn : known s h = true) :
    exec (.barArrive a) s = .next ((State.setMember ((looked s h).issueOp (s.hdr h s.tile.core.cur.scope) (.barArrive n)) j
      (some { m with arrived := true, g := none, release := none, boost := none, cause := none, freed := none })).after 2) := by
  obtain ⟨l, hl⟩ := looked_eq s h
  have hrel' : (looked s h).released 2 = true := by
    rw [hl]
    exact hrel
  change execBarArrive a s = _
  unfold execBarArrive
  refine State.issue_done hc nofun rfl (fun _ => hurg) ?_ ?_ ?_
  · rw [State.member_some _ ha hm, hb]
    dsimp only
    rw [State.named_known _ _ hn]
    simp only [harr, hrel', Bool.false_eq_true, if_false, Bool.not_true]
    rw [hl]
    rfl
  · simp [State.issueOp_core, hl]
  · simp [State.issueOp_core, hl]

theorem barWait_completes (hc : s.clear (.barWait a) [a] = true) (hurg : s.urgent = false) (ha : (s.sr a).toNat = j.val)
    (hm : s.tile.task.members[j] = some m) (harr : m.arrived = false) (hp : m.pending = false) : exec (.barWait a) s = .next (s.after 2) := by
  change execBarWait a s = _
  unfold execBarWait
  refine State.issue_done hc nofun rfl (fun _ => hurg) ?_ rfl rfl
  rw [State.member_some _ ha hm]
  simp [harr, hp]

end Membership

/-- Settles O32, clause by clause: the entry that a join takes or an index names is replaced, after the message that R38 or R165 sends to a count barrier's home. -/
theorem barriers : Obligations.Barriers := by
  intro s i d a rs b m j
  refine ⟨barJoin_joins, fun hc ha hm => ⟨fun h n hb harr => ?_, fun hq => ?_⟩, fun hc hurg ha hm hrel => ⟨fun n hb => barArrive_line hc hurg ha hm hrel hb,
    fun h n hb harr hn => ?_⟩, barWait_completes⟩
  · have hw := State.withdrawMember_count (s := s) hb harr
    rw [barJoinX_withdraws hc ha hm (by rw [hw, State.emit_tile]), hw, State.setMember_of_members (s := s) (by rw [State.emit_tile])]
  · have hw := State.withdrawMember_quiet (s := s) hq
    rw [barJoinX_withdraws hc ha hm (by rw [hw]), hw]
    rfl
  · obtain ⟨l, hl⟩ := looked_eq s h
    rw [barArrive_count hc hurg ha hm hrel hb harr hn, State.setMember_of_members (s := s)]
    rw [State.issueOp_task, hl]

end Sys2Proof.Machine
end

section
/-!
O34: combining entries and folios are configured (R150, R156, R160, R317, R319).
-/

namespace Sys2Proof.Machine

open Sys2Proof.Claims

section Configuration

variable {s : State} {d a b : Reg} {j : Fin 16}

/- Combining entries. -/

theorem combCfg_writes (hc : s.clear (.combCfg a b) [a, b, b + 1] = true) (ha : (s.sr a).toNat = j.val)
    (hok : (combOf (s.sr b) s.tile.id.carrel).valid = false ∨ (combOf (s.sr b) s.tile.id.carrel).out.toNat < 5 ∧
      (combOf (s.sr b) s.tile.id.carrel).type ≠ 7 ∧ s.combPlaced (combOf (s.sr b) s.tile.id.carrel) = true)
    (hbufs : (s.tile.comb[j]).bufs = []) :
    exec (.combCfg a b) s = .next (State.after { s with tile.comb := s.tile.comb.set j.val (combOf (s.sr b) s.tile.id.carrel) j.isLt } 2) := by
  have hgood : ((combOf (s.sr b) s.tile.id.carrel).valid && (decide (5 ≤ (combOf (s.sr b) s.tile.id.carrel).out.toNat) ||
      (combOf (s.sr b) s.tile.id.carrel).type == 7 || !s.combPlaced (combOf (s.sr b) s.tile.id.carrel))) = false := by
    rcases hok with h | ⟨hout, htype, hplaced⟩
    · rw [h, Bool.false_and]
    · rw [hplaced, beq_eq_false_iff_ne.2 htype, decide_eq_false (by omega)]
      simp
  change execCombCfg a b s = _
  unfold execCombCfg
  refine State.issue_done hc nofun rfl nofun ?_ rfl rfl
  simp only [ha, Nat.mod_eq_of_lt j.isLt, Fin.eta, if_neg (Nat.not_le.2 j.isLt), hgood, hbufs, List.isEmpty_nil, Bool.not_true, Bool.and_false,
    Bool.false_eq_true, if_false]

/-- A mark that no kill clears is a mark (R36, R93). -/
theorem State.markPlain_eq (s : State) (r : Reg) (pair : Bool) :
    ∃ l, (s.markPlain r pair).1 = { s with tile.net.nextId := s.tile.net.nextId + 1, tile.net.marks := l } ∧
      (r = 0 ∨ ∃ m ∈ l, m.reg = r ∧ m.level = s.tile.core.level ∧ m.id = s.tile.net.nextId) := by
  obtain ⟨l, hl, hm⟩ := s.mark_eq r pair
  unfold State.markPlain
  dsimp only
  rw [hl]
  refine ⟨_, rfl, hm.imp id ?_⟩
  rintro ⟨m, hml, hreg, hlevel, hid⟩
  refine ⟨_, List.mem_map_of_mem hml, ?_⟩
  split
  · exact ⟨hreg, hlevel, hid⟩
  · exact ⟨hreg, hlevel, hid⟩

/-- A root's entry with its count, record, token and, where it rounds stochastically, generator (R156). -/
def CombEntry.rooted (e : CombEntry) (count record : Nat) (mark : Option Nat) (seed : Word) : CombEntry :=
  { e with rootCount := some count, record := record, mark := mark, gen := if e.sr then seed else e.gen }

/-- The state after a root's entry has taken its generator from the seed. -/
def State.seeded (s : State) (takes : Bool) (seed : Word) : State := if takes then { s with tile.core.seed := advance seed } else s

theorem State.seeded_eq (s : State) (takes : Bool) (seed : Word) : ∃ x, s.seeded takes seed = { s with tile.core.seed := x } := by
  unfold State.seeded
  split <;> exact ⟨_, rfl⟩

theorem combCfgRoot_sets (hc : s.clear (.combCfgRoot d a b) [a, b, b + 1] = true) (ha : (s.sr a).toNat = j.val) (hvalid : (s.tile.comb[j]).valid = true)
    (hout : (s.tile.comb[j]).out = 0) (hn : s.sr b ≠ 0) (hlim : (s.sr b).toNat < 2 ^ 24) (hrec : (s.sr (b + 1)).toNat % 16 = 0) :
    ∃ t, exec (.combCfgRoot d a b) s = .next t ∧ (t.tile.comb[j]).rootCount = some (s.sr b).toNat ∧ (t.tile.comb[j]).record = (s.sr (b + 1)).toNat ∧
      Marked s t d := by
  obtain ⟨marks, hmark, hmarked⟩ := s.markPlain_eq d false
  cases hm : s.markPlain d with
  | mk u m =>
  rw [hm] at hmark
  dsimp only at hmark
  subst hmark
  obtain ⟨seed, hseed⟩ := State.seeded_eq { s with tile.net.nextId := s.tile.net.nextId + 1, tile.net.marks := marks } (s.tile.comb[j]).sr s.tile.core.seed
  let g := (s.tile.comb[j]).rooted (s.sr b).toNat (s.sr (b + 1)).toNat m s.tile.core.seed
  let t : State := { s with tile.net.nextId := s.tile.net.nextId + 1, tile.net.marks := marks, tile.core.seed := seed,
                            tile.comb := s.tile.comb.set j.val g j.isLt }
  have hg : t.tile.comb[j] = g := Vector.getElem_set_self _
  refine ⟨t.after 2, ?_, (congrArg CombEntry.rootCount hg :), (congrArg CombEntry.record hg :), hmarked⟩
  change execCombCfgRoot d a b s = _
  unfold execCombCfgRoot
  refine State.issue_done (t := t) hc nofun rfl nofun ?_ rfl rfl
  have hentry : ¬ (16 ≤ j.val ∨ (!(s.tile.comb[j]).valid) = true ∨ (s.tile.comb[j]).out ≠ 0) := by
    rw [hvalid, hout]
    simp
  have hcount : ¬ (s.sr b = 0 ∨ 2 ^ 24 ≤ (s.sr b).toNat) := fun h => h.elim hn (Nat.not_le.2 hlim)
  simp only [ha, Nat.mod_eq_of_lt j.isLt, Fin.eta, if_neg hentry, if_neg hcount, hrec, ne_eq, not_true_eq_false, if_false, hm]
  exact congrArg (fun v : State => Res.done { v with tile.comb := v.tile.comb.set j.val g j.isLt }) hseed

/- Folios. -/

/-- A drained store queue has nothing left to perform. -/
theorem State.drained_of_no_stores (h : s.tile.view.stores = []) : s.drained = s := by
  have ht : { s.tile with view.stores := [] } = s.tile := by rw [← h]
  unfold State.drained Tile.drain
  rw [ht, h]
  rfl

theorem State.settled_settled (s : State) : s.settled.settled = s.settled := by
  by_cases h : s.tile.view.bad = []
  · have hs : s.settled = s := if_pos h
    rw [hs, hs]
  · have hs : s.settled = s.drained := if_neg h
    rw [hs, State.settled, State.drained_of_no_stores s.drained_stores, ite_self]

@[simp] theorem State.settled_sr (s : State) (r : Reg) : s.settled.sr r = s.sr r := by
  obtain ⟨v, hv⟩ := s.settled_eq
  rw [hv]
  rfl

/-- Granted accesses change the view and the pages of the masked window alone (R53, R76, R118). -/
theorem State.noted_eq (s : State) (l : List (Nat × Nat × Bool × Bool)) : ∃ v ms, s.noted l = { s with tile.view := v, tile.core.maskPages := ms } := by
  obtain ⟨v, hv⟩ := s.settled_eq
  obtain ⟨w, ms, hw⟩ := State.noteAll_eq { s with tile.view := v } l
  unfold State.noted
  rw [hv, hw]
  exact ⟨_, _, rfl⟩

/-- Accesses granted once are granted again, and go on in the same state. -/
theorem State.checked_settled (l : List (Nat × Nat × Bool × Bool)) (k : State → Res) (h : s.grants l = true) : s.settled.checked l k = k s.settled := by
  rw [State.checked_ok, State.settled_settled]
  unfold State.grants
  rw [State.settled_settled]
  exact h

theorem folioLoad_keeps {n : Nat} (hc : s.clear (.folioLoad a) [a] = true) (hurg : s.urgent = false) (halign : (s.sr a).toNat % 16 = 0)
    (hreplay : s.tile.strm.replay = none) (hhead : s.grants [((s.sr a).toNat, 16, false, true)] = true)
    (hn : n = (s.settled.wordAt (s.sr a).toNat 0).toNat % 512) (hlo : 1 ≤ n) (hhi : n ≤ 256)
    (hbody : s.grants [((s.sr a).toNat + 16, 32 * n, false, true)] = true)
    (hok : ∀ k, k < n → folioReason n (s.settled.folioRec ((s.sr a).toNat + 16 + 32 * k)) (s.settled.wordAt ((s.sr a).toNat + 16 + 32 * k) 16).toNat = none) :
    ∃ t, exec (.folioLoad a) s = .next t ∧ t.tile.strm.folio =
      some ((s.sr a).toNat, (List.range n).map fun k => s.settled.folioRec ((s.sr a).toNat + 16 + 32 * k)) := by
  obtain ⟨w, ms, hw⟩ := s.noted_eq [((s.sr a).toNat, 16, false, true), ((s.sr a).toNat + 16, 32 * n, false, true)]
  let rs := (List.range n).map fun k => s.settled.folioRec ((s.sr a).toNat + 16 + 32 * k)
  let t : State := { s with tile.view := w, tile.core.maskPages := ms, tile.strm.folio := some ((s.sr a).toNat, rs), tile.strm.ftags := [] }
  refine ⟨t.after 2, ?_, rfl⟩
  change execFolioLoad a s = _
  unfold execFolioLoad
  refine State.issue_done (t := t) hc nofun rfl (fun _ => hurg) ?_ rfl rfl
  rw [State.need_ok _ _ _ _ (by simpa using halign), if_neg (by simp [hreplay]), State.checked_ok _ _ _ hhead]
  dsimp only
  rw [← hn, if_neg (by omega), State.checked_settled _ _ hbody, List.findSome?_eq_none_iff.2]
  · rw [List.map_map]
    exact congrArg (fun u : State => Res.done { u with tile := { u.tile with strm.folio := some ((s.sr a).toNat, rs), strm.ftags := [] } }) hw
  · intro k hk
    have hkn := List.mem_range.1 hk
    rw [Option.map_eq_none_iff]
    simpa [List.getD_eq_getElem?_getD, hkn] using hok k hkn

theorem folioRun_starts {p : Nat} {rs : List FolioRec} (hc : s.clear (.folioRun d a) [a, a + 1, a + 2, a + 3] = true)
    (hfolio : s.tile.strm.folio = some (p, rs)) (hreplay : s.tile.strm.replay = none) (hslot : s.tile.copySlot.isSome = true) :
    ∃ t r, exec (.folioRun d a) s = .next t ∧ t.tile.strm.replay = some r ∧ r.counts = rs.map (·.deps) ∧
      r.bases = #v[s.sr a, s.sr (a + 1), s.sr (a + 2), s.sr (a + 3)] ∧ Marked s t d := by
  obtain ⟨w, hw⟩ := s.drained_eq
  obtain ⟨marks, hmark, hmarked⟩ := s.drained.mark_eq d false
  cases hm : s.drained.mark d with
  | mk u m =>
  rw [hm, hw] at hmark
  rw [hw] at hmarked
  dsimp only at hmark
  subst hmark
  let r : Replay := { bases := #v[s.sr a, s.sr (a + 1), s.sr (a + 2), s.sr (a + 3)], counts := rs.map (·.deps), urgent := s.urgent, mark := m,
                      scope := s.tile.core.cur.scope, own := s.tile.core.cur.own }
  let t : State := { s with tile.view := w, tile.net.nextId := s.tile.net.nextId + 1, tile.net.marks := marks, tile.strm.folio := some (p, rs),
                            tile.strm.replay := some r }
  refine ⟨t.after 2, r, ?_, rfl, rfl, rfl, hmarked⟩
  change execFolioRun d a s = _
  unfold execFolioRun
  refine State.issue_done (t := t) hc nofun rfl nofun ?_ rfl rfl
  simp only [hfolio, hreplay, Option.isSome_none, Bool.false_eq_true, if_false, Option.isNone_eq_false_iff.2 hslot, hm]
  rfl

end Configuration

/-- Settles O34, clause by clause: the operands pass every check of their instruction, and the entry, the folio or the replay that it makes is written. -/
theorem combiningAndFolios : Obligations.CombiningAndFolios := by
  intro s d a b j
  refine ⟨combCfg_writes, combCfgRoot_sets, ?_, fun p rs hc hfolio hreplay hslot => folioRun_starts hc hfolio hreplay hslot⟩
  rintro p n u rfl hc hurg halign hreplay hhead hn hlo hhi hbody hok
  exact folioLoad_keeps hc hurg halign hreplay hhead hn hlo hhi hbody hok

end Sys2Proof.Machine
end

section
/-!
O46 fails: its last clause asks for a line's report (R164, R184) in the carrel of every number, where a header holds 11 bits of it (R142).
-/

namespace Sys2Proof.Machine

/-- Carrel 2048, one past the numbers that a header can hold, on the second of its two wafers: its line 0 is high, and has not been reported. -/
def unnameable : Carrel := { num := 2048, nw := 2, k := 1 }

def unnameableLine : State := { State.reset with carrels := [unnameable], inp := { n := 2048 } }

theorem unnameableLine_high : unnameableLine.lineHigh unnameable 0 = true := by decide +kernel

/-- The messages that an outcome leaves in flight. -/
def netAfter : Host.Outcome State Fault Refusal → List Packet
  | .next t => t.net
  | _ => []

/-- The report's header names carrel 0, in which no name leads anywhere: nothing is sent. -/
theorem netAfter_unnameableLine : netAfter (exec .linePhaseReport unnameableLine) = [] := by decide +kernel

/-- Refutes O46 by its last clause: with a carrel numbered 2048, whose number a header's 11 bits (R142) do not hold, the report of a line that is high leads nowhere. -/
theorem not_combiningAndBarriersWork : ¬ Obligations.CombiningAndBarriersWork := by
  intro h
  obtain ⟨-, -, -, -, -, -, -, -, -, line⟩ := h unnameableLine { hdr := stewardHdr 0 0 0 0 0 false, body := .lineReport 0 } 0
  obtain ⟨-, -, report⟩ := line unnameable 0 ⟨rfl, rfl⟩ rfl rfl
  obtain ⟨t, k, ht, -, -, hsent⟩ := report (by decide) (by decide) (by decide) unnameableLine_high rfl nofun
  obtain ⟨e, he, -⟩ := hsent (by decide)
  have hnet : t.net = [] := by simpa only [ht, netAfter] using netAfter_unnameableLine
  rw [hnet] at he
  exact absurd he List.not_mem_nil

end Sys2Proof.Machine
end

section
/-!
What the works of a field change: its own entry in the list of fields, and of a tile the events that wait at a steward.
-/

namespace Sys2Proof.Machine

section Works

variable (s : State)

/-- An update of the tile at a coordinate is one of the tile in focus, or leaves it. -/
theorem State.updTile_tile (q : Phys) {g : Tile → Tile} (hp : ∀ t, (g t).phys = t.phys) : (s.updTile q g).tile = if s.tile.phys = q then g s.tile else s.tile := by
  split
  · next h =>
    subst h
    rw [State.updTile_here _ _ (hp _)]
  · next h =>
    unfold State.updTile
    rw [State.setTile_tile_of_ne]
    rw [hp, State.tileAt_phys]
    exact Ne.symm h

theorem State.tileAt_updTile (p q : Phys) {g : Tile → Tile} (hp : ∀ t, (g t).phys = t.phys) :
    (s.updTile p g).tileAt q = if p = q then g (s.tileAt q) else s.tileAt q := by
  unfold State.updTile
  rw [State.tileAt_setTile, hp, State.tileAt_phys]
  split
  · next h => rw [h]
  · rfl

theorem Tile.stewardEvent_phys (t : Tile) (e : Exn) : (t.stewardEvent e).phys = t.phys := by
  obtain ⟨l, h⟩ := t.stewardEvent_eq e
  rw [h]

/-- An event changes the events that wait at a tile, if it changes the tile in focus at all (R365). -/
theorem State.stewardEvent_tile (f : Nat × Nat) (n : Nat) (a i : Word) : ∃ l, (s.stewardEvent f n a i).tile = { s.tile with stw.exns := l } := by
  unfold State.stewardEvent
  rw [State.updTile_tile _ _ fun t => t.stewardEvent_phys _]
  split
  · exact s.tile.stewardEvent_eq _
  · exact ⟨_, rfl⟩

/-- An event that is not a further 0xC0 waits last at the steward that acts for the field (R365). -/
theorem State.stewardEvent_waits (f : Nat × Nat) {n : Nat} (a i : Word) (h : BitVec.ofNat 16 n ≠ 0xC0) :
    ((s.stewardEvent f n a i).tileAt (s.stewardOf f)).stw.exns = (s.tileAt (s.stewardOf f)).stw.exns ++ [{ cause := BitVec.ofNat 16 n, addr := a, info := i }] := by
  unfold State.stewardEvent
  rw [State.tileAt_updTile_self _ _ fun t => t.stewardEvent_phys _, Tile.stewardEvent, if_neg fun hn => h hn.2]

/-- The steward that acts for a field depends on who of the two is lost. -/
theorem State.stewardOf_congr {t : State} {f : Nat × Nat} (h : (t.fieldAt f).stewardsLost = (s.fieldAt f).stewardsLost) : t.stewardOf f = s.stewardOf f := by
  unfold State.stewardOf
  rw [h]

@[simp] theorem State.notifyField_fieldAt (f : Nat × Nat) (n : Nat) (a i : Word) : (s.notifyField f n a i).fieldAt = s.fieldAt := rfl
@[simp] theorem State.notifyField_tile (f : Nat × Nat) (n : Nat) (a i : Word) : (s.notifyField f n a i).tile = s.tile := rfl
@[simp] theorem State.notifyField_tileAt (f : Nat × Nat) (n : Nat) (a i : Word) : (s.notifyField f n a i).tileAt = s.tileAt := rfl

@[simp] theorem State.stewardEvent_fieldAt (f : Nat × Nat) (n : Nat) (a i : Word) : (s.stewardEvent f n a i).fieldAt = s.fieldAt :=
  funext (State.fieldAt_congr (State.stewardEvent_flds s f n a i))

@[simp] theorem State.thermalNotice_fieldAt (f : Nat × Nat) (r : Bool) : (s.thermalNotice f r).fieldAt = s.fieldAt := by
  unfold State.thermalNotice
  simp

theorem State.thermalNotice_tile (f : Nat × Nat) (r : Bool) : ∃ l, (s.thermalNotice f r).tile = { s.tile with stw.exns := l } := s.stewardEvent_tile ..

end Works

end Sys2Proof.Machine
end

section
/-!
O48: what the hardware and the stewards of a field do in time (R67, R146, R147, R169, R190, R345 to R347, R362, R366 to R368, R395, R396).
-/

namespace Sys2Proof.Machine

section Fields

variable {s : State}

/- Temperature. -/

theorem sensorSample_reads (h : s.pllsRun = true) : exec .sensorSample s = .next { s with tile.id.temp := s.inp.word.setWidth 16 } :=
  congrArg Host.Outcome.next (if_pos h)

theorem sensorSample_idle (h : s.pllsRun = false) : exec .sensorSample s = .next s :=
  congrArg Host.Outcome.next (if_neg (by rw [h]; exact Bool.false_ne_true))

/-- The clock that a thermal check sets in a field (R190). -/
def State.thermalPll (s : State) (f : Nat × Nat) : Nat :=
  let ts := (s.fieldTiles f).map (·.id.temp.toInt)
  if ts.any (decide <| warmTemp ≤ ·) then max 700 ((s.fieldAt f).pll - 50)
  else if ts.all (decide <| · ≤ coolTemp) then min 1050 ((s.fieldAt f).pll + 50) else (s.fieldAt f).pll

/-- A field that has done its thermal check. -/
def Field.clocked (fl : Field) (mhz : Nat) : Field := { (if mhz = fl.pll then fl else fl.setPll mhz) with did := frameKey :: fl.did }

theorem Field.clocked_pll (fl : Field) (mhz : Nat) : (fl.clocked mhz).pll = mhz := by
  unfold Field.clocked
  split
  · next h => exact h.symm
  · rfl

theorem Field.clocked_place (fl : Field) (mhz : Nat) : (fl.clocked mhz).fx = fl.fx ∧ (fl.clocked mhz).fy = fl.fy := by
  unfold Field.clocked
  split <;> exact ⟨rfl, rfl⟩

theorem State.thermalPll_warm {f : Nat × Nat} (h : ∃ x ∈ s.fieldTiles f, warmTemp ≤ x.id.temp.toInt) :
    s.thermalPll f = max 700 ((s.fieldAt f).pll - 50) := by
  refine if_pos (List.any_eq_true.2 ?_)
  obtain ⟨x, hx, ht⟩ := h
  exact ⟨_, List.mem_map_of_mem hx, decide_eq_true ht⟩

theorem State.thermalPll_cool {f : Nat × Nat} (h : ∀ x ∈ s.fieldTiles f, x.id.temp.toInt ≤ coolTemp) :
    s.thermalPll f = min 1050 ((s.fieldAt f).pll + 50) := by
  have hcool : ∀ y ∈ (s.fieldTiles f).map (·.id.temp.toInt), y ≤ coolTemp := List.forall_mem_map.2 h
  unfold State.thermalPll
  dsimp only
  rw [if_neg, if_pos]
  · exact List.all_eq_true.2 fun y hy => decide_eq_true (hcool y hy)
  · rw [List.any_eq_true]
    rintro ⟨y, hy, hw⟩
    exact absurd ((of_decide_eq_true hw).trans (hcool y hy)) (by decide)

theorem fieldThermalCheck_clocks (hdid : s.fld.did.contains frameKey = false) (hserved : s.fld.served = true) (hpaused : s.fld.paused = false) :
    ∃ t, exec .fieldThermalCheck s = .next t ∧ frameKey ∈ (t.fieldAt s.tile.phys.field).did ∧
      ((∃ x ∈ s.fieldTiles s.tile.phys.field, warmTemp ≤ x.id.temp.toInt) → (t.fieldAt s.tile.phys.field).pll = max 700 (s.fld.pll - 50)) ∧
      ((∀ x ∈ s.fieldTiles s.tile.phys.field, x.id.temp.toInt ≤ coolTemp) → (t.fieldAt s.tile.phys.field).pll = min 1050 (s.fld.pll + 50)) := by
  have hgo : ¬ (s.fld.did.contains frameKey = true ∨ (!s.fld.served) = true ∨ s.fld.paused = true) := by
    rw [hdid, hserved, hpaused]
    decide
  refine ⟨s.updField s.tile.phys.field (Field.clocked · (s.thermalPll s.tile.phys.field)), congrArg Host.Outcome.next (if_neg hgo), ?_⟩
  rw [State.fieldAt_updField_self _ _ fun k => k.clocked_place _, Field.clocked_pll]
  exact ⟨List.mem_cons_self, State.thermalPll_warm, State.thermalPll_cool⟩

theorem thermalPause_pauses (hpaused : s.fld.paused = false) (hhot : ∃ x ∈ s.fieldTiles s.tile.phys.field, tripTemp ≤ x.id.temp.toInt) :
    ∃ t, exec .thermalPause s = .next t ∧ (t.fieldAt s.tile.phys.field).paused = true ∧ (t.fieldAt s.tile.phys.field).pll = 700 := by
  have hgo : ¬ (s.fld.paused = true ∨ (!(s.fieldTiles s.tile.phys.field).any fun t => decide (tripTemp ≤ t.id.temp.toInt)) = true) := by
    simpa [hpaused] using hhot
  refine ⟨_, congrArg Host.Outcome.next (if_neg hgo), ?_⟩
  rw [State.thermalNotice_fieldAt, State.fieldAt_updField_self]
  · exact ⟨rfl, rfl⟩
  · exact fun k => ⟨rfl, rfl⟩

theorem thermalResume_resumes (hpaused : s.fld.paused = true) (hcool : ∀ x ∈ s.fieldTiles s.tile.phys.field, x.id.temp.toInt ≤ coolTemp) :
    ∃ t, exec .thermalResume s = .next t ∧ (t.fieldAt s.tile.phys.field).paused = false ∧ t.tile.core = s.tile.core := by
  have hgo : (s.fld.paused && (s.fieldTiles s.tile.phys.field).all fun t => decide (t.id.temp.toInt ≤ coolTemp)) = true := by
    simpa [hpaused] using hcool
  refine ⟨_, congrArg Host.Outcome.next (if_pos hgo), ?_, ?_⟩
  · rw [State.thermalNotice_fieldAt, State.fieldAt_updField_self]
    exact fun k => ⟨rfl, rfl⟩
  · obtain ⟨l, hl⟩ := State.thermalNotice_tile (s.updField s.tile.phys.field fun fl => { fl with paused := false }) s.tile.phys.field true
    exact (congrArg Tile.core hl :)

/- The almanac. -/

/-- A slot that begins is the field's, and its works are to be done (R146). -/
theorem State.fieldAt_beginSlot {f : Nat × Nat} (hf : s.tile.phys.field = f) (slot : Nat) (frame : Bool) :
    ∃ l, (s.beginSlot slot frame).fieldAt f = { s.fieldAt f with slot := slot, did := l } := by
  subst hf
  refine ⟨if frame then [] else s.fld.did.filter (frameKey ≤ ·), ?_⟩
  exact s.fieldAt_updField_self s.tile.phys.field
    (h := fun fl => { fl with slot := slot, did := if frame then [] else fl.did.filter (frameKey ≤ ·) }) fun k => ⟨rfl, rfl⟩

/-- It sets bit 7 of the event latch (R247). -/
theorem State.beginSlot_latch (slot : Nat) (frame : Bool) : (s.beginSlot slot frame).tile.core.latch = s.tile.core.latch ||| 0x80 :=
  congrArg (fun t : Tile => t.core.latch) (if_pos rfl : (if s.tile.phys.field = s.tile.phys.field then s.tile.latch 7 else s.tile) = s.tile.latch 7)

theorem almanacSlotBoundary_begins (hframe : frameOf s.fld.ns = s.fld.frame) (hslot : slotAt s.fld.ns ≠ s.fld.slot) :
    ∃ t, exec .almanacSlotBoundary s = .next t ∧ (t.fieldAt s.tile.phys.field).slot = slotAt s.fld.ns ∧
      t.tile.core.latch = s.tile.core.latch ||| 0x80 ∧ (t.fieldAt s.tile.phys.field).almanac = s.fld.almanac := by
  obtain ⟨l, hl⟩ := s.fieldAt_beginSlot rfl (slotAt s.fld.ns) false
  refine ⟨s.beginSlot (slotAt s.fld.ns) false, congrArg Host.Outcome.next (if_pos ⟨hframe, hslot⟩), ?_, s.beginSlot_latch .., ?_⟩
  · rw [hl]
  · rw [hl]
    rfl

/-- An almanac entry that is written reads back, and every other as before (R147). -/
theorem Field.almEntry_putEntry (fl : Field) (x : Nat × Nat × BitVec 16) (r i : Nat) :
    ({ fl with almanac := putEntry fl.almanac x } : Field).almEntry r i = if r = x.1 ∧ i = x.2.1 then x.2.2.toNat else fl.almEntry r i := by
  by_cases h : r = x.1 ∧ i = x.2.1
  · obtain ⟨rfl, rfl⟩ := h
    have hfind : (putEntry fl.almanac x).find? (fun y => y.1 == x.1 && y.2.1 == x.2.1) = some x := by
      unfold putEntry
      rw [List.find?_append, List.find?_filter, List.find?_eq_none.2 (by grind)]
      simp
    rw [if_pos ⟨rfl, rfl⟩]
    unfold Field.almEntry
    rw [hfind]
  · have hx : (x.1 == r && x.2.1 == i) = false := by
      rw [Bool.and_eq_false_iff, beq_eq_false_iff_ne, beq_eq_false_iff_ne]
      exact not_and_or.1 fun hn => h ⟨hn.1.symm, hn.2.symm⟩
    have hkept : (fun y : Nat × Nat × BitVec 16 => decide ((!(y.1 == x.1 && y.2.1 == x.2.1)) = true ∧ (y.1 == r && y.2.1 == i) = true)) =
        fun y => y.1 == r && y.2.1 == i := by
      funext y
      rw [Bool.eq_iff_iff, decide_eq_true_eq]
      refine and_iff_right_of_imp fun hy => ?_
      simp only [Bool.and_eq_true, beq_iff_eq] at hy
      obtain ⟨rfl, rfl⟩ := hy
      simpa using not_and_or.1 h
    have hfind : (putEntry fl.almanac x).find? (fun y => y.1 == r && y.2.1 == i) = fl.almanac.find? fun y => y.1 == r && y.2.1 == i := by
      unfold putEntry
      rw [List.find?_append, List.find?_filter, hkept, List.find?_cons, hx, List.find?_nil, Option.or_none]
    rw [if_neg h]
    unfold Field.almEntry
    rw [hfind]

/-- Writing the tables of a transit cycle changes what is to be written of a field, and nothing where no cycle is needed (R149). -/
theorem State.fieldAt_writeCycle (f : Nat × Nat) : ∃ l c, (s.writeCycle f).fieldAt f = { s.fieldAt f with almNext := l, cycled := c } ∧
    ((s.fieldAt f).cycled = false → s.runless (s.fieldAt f) = false → l = (s.fieldAt f).almNext) := by
  unfold State.writeCycle
  dsimp only
  split
  · next h =>
    refine ⟨_, _, s.fieldAt_updField_self f fun k => ⟨rfl, rfl⟩, fun hc hr => ?_⟩
    rw [hc, hr] at h
    exact absurd h Bool.false_ne_true
  · exact ⟨_, _, rfl, fun _ _ => rfl⟩

theorem State.writeCycle_tile (f : Nat × Nat) : (s.writeCycle f).tile = s.tile := by
  unfold State.writeCycle
  dsimp only
  split <;> rfl

/-- A field whose frame begins: what ALMSET wrote takes effect (R147). -/
def Field.turned (fl : Field) : Field := { fl with frame := frameOf fl.ns, almanac := fl.almNext.foldl putEntry fl.almanac, almNext := [] }

theorem frameStart_begins {x : Nat × Nat × BitVec 16} (hframe : s.fld.frame < frameOf s.fld.ns) (hnext : s.fld.almNext = [x]) :
    ∃ t, exec .frameStart s = .next t ∧ (t.fieldAt s.tile.phys.field).frame = frameOf s.fld.ns ∧
      (t.fieldAt s.tile.phys.field).almEntry x.1 x.2.1 = x.2.2.toNat ∧
      (∀ r i, ¬ (r = x.1 ∧ i = x.2.1) → (t.fieldAt s.tile.phys.field).almEntry r i = s.fld.almEntry r i) ∧
      (s.fld.cycled = false → s.runless { s.fld with almanac := putEntry s.fld.almanac x } = false → (t.fieldAt s.tile.phys.field).almNext = []) := by
  let u := s.updFld fun f => { f with frame := frameOf s.fld.ns, almanac := f.almNext.foldl putEntry f.almanac, almNext := [] }
  have hu : u.fieldAt s.tile.phys.field = s.fld.turned := s.fieldAt_updField_self _ fun k => ⟨rfl, rfl⟩
  obtain ⟨l, c, hl, hquiet⟩ := u.fieldAt_writeCycle s.tile.phys.field
  obtain ⟨did, hbegin⟩ := (u.writeCycle s.tile.phys.field).fieldAt_beginSlot (f := s.tile.phys.field) (by rw [u.writeCycle_tile]; rfl) (slotAt s.fld.ns) true
  rw [hl, hu] at hbegin
  rw [hu] at hquiet
  have hentry : ∀ r i, (((u.writeCycle s.tile.phys.field).beginSlot (slotAt s.fld.ns) true).fieldAt s.tile.phys.field).almEntry r i =
      if r = x.1 ∧ i = x.2.1 then x.2.2.toNat else s.fld.almEntry r i := fun r i => by
    rw [hbegin, ← Field.almEntry_putEntry, Field.turned, hnext]
    rfl
  refine ⟨_, congrArg Host.Outcome.next (if_neg (Nat.not_le.2 hframe)), ?_, ?_, fun r i h => ?_, fun hc hr => ?_⟩
  · exact congrArg Field.frame hbegin
  · exact (hentry ..).trans (if_pos ⟨rfl, rfl⟩)
  · exact (hentry ..).trans (if_neg h)
  · refine (congrArg Field.almNext hbegin :).trans (hquiet ?_ ?_)
    · exact hc
    · rw [Field.turned, hnext]
      exact hr

/- Errors. -/

/-- Reporting a correction changes the corrections still to be reported and the events that wait (R347, R365). -/
theorem State.reportFixed_tile (s : State) : ∃ l e, s.reportFixed.tile = { s.tile with view.fixed := l, stw.exns := e } := by
  unfold State.reportFixed
  split
  · exact ⟨_, _, rfl⟩
  · next ist w xs h =>
    obtain ⟨e, he⟩ := State.stewardEvent_tile ({ s with tile.view.fixed := xs }.updFld fun f =>
      { f with history := f.history ++ [(s.tile.phys, if ist then 0x1C0 else 0xC0, f.ns)] }) s.tile.phys.field 0xC0 s.tile.phys.operand
      (BitVec.ofNat 32 (w + if ist then 2 ^ 14 else 0))
    exact ⟨xs, e, he⟩

/-- So does reporting all of them. -/
theorem State.foldl_reportFixed_tile {α : Type} (l : List α) (s : State) :
    ∃ xs e, (l.foldl (fun s _ => s.reportFixed) s).tile = { s.tile with view.fixed := xs, stw.exns := e } := by
  induction l generalizing s with
  | nil => exact ⟨_, _, rfl⟩
  | cons y l ih =>
    obtain ⟨xs, e, h⟩ := s.reportFixed_tile
    obtain ⟨ys, e', h'⟩ := ih s.reportFixed
    rw [List.foldl_cons, h', h]
    exact ⟨ys, e', rfl⟩

theorem View.correct_of_mem {v : View} {ist : Bool} {w : Nat} (h : (ist, w) ∈ v.soft) :
    v.correct ist w = { v with soft := v.soft.erase (ist, w), ce := if ist then v.ce else v.ce + 1, ice := if ist then v.ice + 1 else v.ice,
                               ceAddr := BitVec.ofNat 15 (w + if ist then 2 ^ 14 else 0), fixed := v.fixed ++ [(ist, w)] } :=
  if_pos (List.contains_iff_mem.2 h)

theorem View.correct_of_not_mem {v : View} {ist : Bool} {w : Nat} (h : (ist, w) ∉ v.soft) : v.correct ist w = v :=
  if_neg fun hc => h (List.contains_iff_mem.1 hc)

theorem View.correct_bad (v : View) (ist : Bool) (w : Nat) : (v.correct ist w).bad = v.bad ∧ (v.correct ist w).badIst = v.badIst := by
  unfold View.correct
  split
  · exact ⟨rfl, rfl⟩
  · exact ⟨rfl, rfl⟩

theorem State.sramOff_of_on (h : s.tile.stop.off = false) : s.sramOff = false := by
  unfold State.sramOff
  rw [h, Bool.false_and]

theorem correctableError_corrects (hk : s.inp.k ≠ 1) (hfixed : s.tile.view.fixed = []) (hoff : s.tile.stop.off = false)
    (hsoft : (s.inp.ok, s.inp.n) ∈ s.tile.view.soft) : ∃ t, exec .correctableError s = .next t ∧
      t.tile.view.soft = s.tile.view.soft.erase (s.inp.ok, s.inp.n) ∧ t.tile.view.ce = s.tile.view.ce + (if s.inp.ok then 0 else 1) ∧
      t.tile.view.ice = s.tile.view.ice + (if s.inp.ok then 1 else 0) ∧ t.tile.view.mem = s.tile.view.mem ∧ t.tile.core = s.tile.core := by
  obtain ⟨l, e, h⟩ := State.reportFixed_tile { s with tile.view := s.tile.view.correct s.inp.ok s.inp.n }
  have hgo : s.tile.view.fixed = [] ∧ (!s.sramOff) = true := ⟨hfixed, by rw [State.sramOff_of_on hoff]; rfl⟩
  refine ⟨_, congrArg Host.Outcome.next ((if_neg hk).trans (if_pos hgo)), ?_⟩
  rw [h, View.correct_of_mem hsoft]
  refine ⟨rfl, ?_, ?_, rfl, rfl⟩
  · cases s.inp.ok <;> rfl
  · cases s.inp.ok <;> rfl

/-- Acting at the tile in focus alone. -/
theorem State.atEach_here {g : State → State} (h : (g s).tile.phys = s.tile.phys) : s.atEach g [s.tile.phys] = g s := by
  have hfocus : s.focus s.tile.phys = s := if_pos rfl
  change (g (s.focus s.tile.phys)).focus s.tile.phys = g s
  rw [hfocus]
  exact if_pos h

/-- The field of the tile in focus as its scrubbing goes on (R347). -/
def State.scrubbed (s : State) : State := s.updField s.tile.phys.field fun fl => { fl with did := 1 :: fl.did, scrub := (fl.scrub + 64) % 14336 }

/-- With no other tile listed, scrubbing is the tile in focus's. -/
theorem exec_scrub (hslot : s.fld.slot % 16 = 0) (hdid : s.fld.did.contains 1 = false) (hrest : s.rest = [])
    (hphys : (s.scrubbed.scrubTile s.fld.scrub).tile.phys = s.tile.phys) : exec .scrub s = .next (s.scrubbed.scrubTile s.fld.scrub) := by
  have hgo : ¬ (s.fld.slot % 16 ≠ 0 ∨ s.fld.did.contains 1 = true) := by
    rw [hslot, hdid]
    decide
  have htiles : (s.scrubbed.fieldTiles s.tile.phys.field).map (·.phys) = [s.scrubbed.tile.phys] := by
    unfold State.fieldTiles State.tiles
    rw [show s.scrubbed.rest = [] from hrest]
    simp [State.scrubbed]
  refine congrArg Host.Outcome.next ((if_neg hgo).trans ?_)
  change s.scrubbed.atEach (·.scrubTile s.fld.scrub) ((s.scrubbed.fieldTiles s.tile.phys.field).map (·.phys)) = _
  rw [htiles]
  exact State.atEach_here hphys

theorem State.scrubTile_clean {p : Nat} (hsoft : s.tile.view.soft = []) (hbad : s.tile.view.bad = []) (hist : s.tile.view.badIst = []) : s.scrubTile p = s :=
  if_pos (.inl ⟨hsoft, hbad, hist⟩)

theorem State.fieldAt_scrubbed : s.scrubbed.fieldAt s.tile.phys.field = { s.fld with did := 1 :: s.fld.did, scrub := (s.fld.scrub + 64) % 14336 } :=
  s.fieldAt_updField_self _ fun _ => ⟨rfl, rfl⟩

theorem scrub_clean (hslot : s.fld.slot % 16 = 0) (hdid : s.fld.did.contains 1 = false) (hrest : s.rest = []) (hbad : s.tile.view.bad = [])
    (hist : s.tile.view.badIst = []) (hsoft : s.tile.view.soft = []) :
    ∃ t, exec .scrub s = .next t ∧ (t.fieldAt s.tile.phys.field).scrub = (s.fld.scrub + 64) % 14336 ∧ 1 ∈ (t.fieldAt s.tile.phys.field).did ∧ t.tile = s.tile := by
  have hclean : s.scrubbed.scrubTile s.fld.scrub = s.scrubbed := State.scrubTile_clean hsoft hbad hist
  refine ⟨s.scrubbed, (exec_scrub hslot hdid hrest (by rw [hclean]; rfl)).trans (by rw [hclean]), ?_, ?_, rfl⟩
  · rw [State.fieldAt_scrubbed]
  · rw [State.fieldAt_scrubbed]
    exact List.mem_cons_self

/-- The word of a tile's 14,336 at a place: of data SRAM, or of the instruction store (R347). -/
def scrubPlace (i : Nat) : Bool × Nat := (decide (12288 ≤ i), if 12288 ≤ i then i - 12288 else i)

/-- Scrubbing a word of a tile with no uncorrectable one corrects it. -/
theorem State.scrubWord_correct (hbad : s.tile.view.bad = []) (hist : s.tile.view.badIst = []) (i : Nat) :
    s.scrubWord i = { s with tile.view := s.tile.view.correct (scrubPlace i).1 (scrubPlace i).2 } := by
  obtain ⟨hb, hi⟩ := s.tile.view.correct_bad (scrubPlace i).1 (scrubPlace i).2
  unfold State.scrubWord
  dsimp only [scrubPlace] at hb hi ⊢
  simp only [decide_eq_true_eq] at hb hi ⊢
  rw [hb, hi, hbad, hist]
  split <;> rfl

theorem State.foldl_scrubWord_clean (hsoft : s.tile.view.soft = []) (hbad : s.tile.view.bad = []) (hist : s.tile.view.badIst = []) (l : List Nat) :
    l.foldl State.scrubWord s = s :=
  List.foldl_fixed' (fun i => by
    rw [State.scrubWord_correct hbad hist, View.correct_of_not_mem]
    rw [hsoft]
    exact List.not_mem_nil) l

/-- The one word of data SRAM with a correctable error is corrected when it is among the words scrubbed. -/
theorem State.foldl_scrubWord_corrects {w : Nat} (hsoft : s.tile.view.soft = [(false, w)]) (hbad : s.tile.view.bad = []) (hist : s.tile.view.badIst = [])
    (hw : w < 12288) (l : List Nat) (hl : w ∈ l) : l.foldl State.scrubWord s = { s with tile.view := s.tile.view.correct false w } := by
  have hplace : scrubPlace w = (false, w) := by
    unfold scrubPlace
    rw [decide_eq_false (Nat.not_le.2 hw), if_neg (Nat.not_le.2 hw)]
  have hgone : (s.tile.view.correct false w).soft = [] := by
    rw [View.correct_of_mem (by rw [hsoft]; exact List.mem_singleton_self _), hsoft]
    simp
  obtain ⟨hb, hi⟩ := s.tile.view.correct_bad false w
  induction l with
  | nil => exact absurd hl List.not_mem_nil
  | cons i l ih =>
    rw [List.foldl_cons, State.scrubWord_correct hbad hist]
    by_cases hiw : scrubPlace i = (false, w)
    · rw [hiw]
      exact State.foldl_scrubWord_clean hgone (hb.trans hbad) (hi.trans hist) l
    · rw [View.correct_of_not_mem (by rw [hsoft, List.mem_singleton]; exact hiw)]
      refine ih ((List.mem_cons.1 hl).resolve_left ?_)
      rintro rfl
      exact hiw hplace

theorem scrub_corrects {w : Nat} (hslot : s.fld.slot % 16 = 0) (hdid : s.fld.did.contains 1 = false) (hrest : s.rest = []) (hbad : s.tile.view.bad = [])
    (hist : s.tile.view.badIst = []) (hoff : s.tile.stop.off = false) (hsoft : s.tile.view.soft = [(false, w)]) (hw : w < 12288)
    (hlo : s.fld.scrub ≤ w) (hhi : w < s.fld.scrub + 64) :
    ∃ t, exec .scrub s = .next t ∧ t.tile.view.soft = [] ∧ t.tile.view.ce = s.tile.view.ce + 1 := by
  have hgo : ¬ ((s.scrubbed.tile.view.soft = [] ∧ s.scrubbed.tile.view.bad = [] ∧ s.scrubbed.tile.view.badIst = []) ∨ s.scrubbed.sramOff = true) := by
    rintro (⟨h, -, -⟩ | h)
    · exact List.cons_ne_nil _ _ (hsoft.symm.trans h)
    · rw [State.sramOff_of_on (s := s.scrubbed) hoff] at h
      exact Bool.false_ne_true h
  have hmem : w ∈ (List.range 64).map (s.fld.scrub + ·) := List.mem_map.2 ⟨w - s.fld.scrub, List.mem_range.2 (by omega), by omega⟩
  have hfold := State.foldl_scrubWord_corrects (s := s.scrubbed) hsoft hbad hist hw _ hmem
  obtain ⟨l, e, htile⟩ := State.foldl_reportFixed_tile (s.tile.view.correct false w).fixed { s.scrubbed with tile.view := s.tile.view.correct false w }
  have hscrub : (s.scrubbed.scrubTile s.fld.scrub).tile = { s.tile with view := { s.tile.view.correct false w with fixed := l }, stw.exns := e } := by
    refine (congrArg State.tile (if_neg hgo)).trans ?_
    rw [hfold]
    exact htile
  refine ⟨_, exec_scrub hslot hdid hrest (by rw [hscrub]), ?_⟩
  rw [hscrub, View.correct_of_mem (by rw [hsoft]; exact List.mem_singleton_self _), hsoft]
  exact ⟨by simp, rfl⟩

end Fields

end Sys2Proof.Machine
end

section
/-!
O48, continued: time exchanges, the comparison of transit tables, and the heartbeats of the stewards (R169, R366, R367, R395, R396).
-/

namespace Sys2Proof.Machine

section Exchanges

variable {s : State} {f : Nat × Nat}

/- Time exchanges. -/

/-- The field of the tile in focus, once its exchange of the slot has been tried (R169). -/
def State.tried (s : State) : State := s.updField s.tile.phys.field fun fl => { fl with did := 2 :: fl.did }

theorem State.fieldAt_tried : s.tried.fieldAt s.tile.phys.field = { s.fld with did := 2 :: s.fld.did } :=
  s.fieldAt_updField_self _ fun _ => ⟨rfl, rfl⟩

/-- In Run an exchange is due in slots 0x000 and 0x800, and is not one of step 7 (R169, R193). -/
theorem exec_timeExchange (hpower : s.wafer.power = .run) (hslot : s.fld.slot = 0 ∨ s.fld.slot = 0x800) (hdid : s.fld.did.contains 2 = false)
    (hserved : s.fld.served = true) (hf : s.tile.phys.field ≠ (0, 0)) :
    exec .timeExchange s = .next (if s.inp.ok then
      let u := { s.tried.updField s.tile.phys.field (·.exchange false (s.tried.fieldAt (parentField s.tile.phys.field)).ns
        (s.tried.fieldAt (parentField s.tile.phys.field)).skew.toNat (Config.exchangeDelay s.free) (Config.exchangeDelay (s.free + 1))) with free := s.free + 2 }
      if !s.fld.aligned then u.notifyField s.tile.phys.field 0x7E 0 (BitVec.ofNat 32 (s.tile.phys.field.1 + 8 * s.tile.phys.field.2 + 256)) else u
      else s.tried.exchangeFails s.tile.phys.field) := by
  have hboot : (s.wafer.power == .boot && s.wafer.step == 7) = false := by
    rw [hpower]
    rfl
  have hslots : (s.fld.slot == 0 || s.fld.slot == 0x800) = true := by simpa using hslot
  refine congrArg Host.Outcome.next ?_
  simp only [hboot, hslots, hdid, hserved, hf, Bool.false_or, Bool.true_and, Bool.not_false, Bool.not_true, Bool.false_eq_true, if_false, false_and, or_self]
  change (if !s.inp.ok then _ else _) = _
  cases s.inp.ok <;> rfl

/-- The rate that a successful exchange sets is within 200 ppm of the PLL's (R169). -/
theorem Field.exchange_rate (fl : Field) (pns pskew there back : Nat) {base : Nat} (hbase : base = 2 ^ 32 * 1000 / fl.pll) :
    base - base / 5000 ≤ (fl.exchange false pns pskew there back).rate ∧ (fl.exchange false pns pskew there back).rate ≤ base + base / 5000 := by
  have hcast : (2 ^ 32 * 1000 / fl.pll : Int) = base := by
    rw [hbase]
    norm_cast
  have hrate : ∃ x : Int, (fl.exchange false pns pskew there back).rate = (base + max (-(base / 5000 : Int)) (min (base / 5000) x)).toNat := by
    refine ⟨base * offsetOf (stamps fl.ns pns there back) / 499322, ?_⟩
    rw [← clampInt_eq _ _ _ (by omega), ← hcast]
    rfl
  obtain ⟨x, hx⟩ := hrate
  rw [hx]
  omega

theorem timeExchange_aligns (hpower : s.wafer.power = .run) (hslot : s.fld.slot = 0 ∨ s.fld.slot = 0x800) (hdid : s.fld.did.contains 2 = false)
    (hserved : s.fld.served = true) (hf : s.tile.phys.field ≠ (0, 0)) (hok : s.inp.ok = true) :
    ∃ t, exec .timeExchange s = .next t ∧ (t.fieldAt s.tile.phys.field).failedEx = 0 ∧ (t.fieldAt s.tile.phys.field).aligned = true ∧
      (t.fieldAt s.tile.phys.field).time = s.fld.time ∧ 2 ∈ (t.fieldAt s.tile.phys.field).did ∧ ∀ base, base = 2 ^ 32 * 1000 / s.fld.pll →
      base - base / 5000 ≤ (t.fieldAt s.tile.phys.field).rate ∧ (t.fieldAt s.tile.phys.field).rate ≤ base + base / 5000 := by
  refine ⟨_, (exec_timeExchange hpower hslot hdid hserved hf).trans (congrArg Host.Outcome.next (if_pos hok)), ?_⟩
  generalize (s.tried.fieldAt (parentField s.tile.phys.field)).ns = pns
  generalize (s.tried.fieldAt (parentField s.tile.phys.field)).skew.toNat = pskew
  have hfield : ∀ u : State, u.fieldAt = (s.tried.updField s.tile.phys.field (·.exchange false pns pskew (Config.exchangeDelay s.free) (Config.exchangeDelay (s.free + 1)))).fieldAt →
      u.fieldAt s.tile.phys.field = ({ s.fld with did := 2 :: s.fld.did } : Field).exchange false pns pskew (Config.exchangeDelay s.free) (Config.exchangeDelay (s.free + 1)) := fun u hu => by
    rw [hu, State.fieldAt_updField_self, State.fieldAt_tried]
    exact fun k => ⟨rfl, rfl⟩
  dsimp only
  rw [hfield]
  · exact ⟨rfl, rfl, rfl, List.mem_cons_self, fun base hbase => Field.exchange_rate _ _ _ _ _ hbase⟩
  · split
    · rfl
    · rfl

/-- Every field that aligns through one at fault has its bound grow (R395). -/
def State.widened (s : State) (f : Nat × Nat) : State :=
  { s with flds := s.flds.map fun g => if alignsThrough (g.fx, g.fy) f then { g with skew := skewOf (g.skew.toNat + 200) } else g }

/-- A field aligns through itself, so its own bound grows with the others'. -/
theorem State.fieldAt_widened {fl : Field} (h : s.flds.find? (fun g => g.fx == f.1 && g.fy == f.2) = some fl) :
    (s.widened f).fieldAt f = { fl with skew := skewOf (fl.skew.toNat + 200) } := by
  have hplace : (fl.fx, fl.fy) = f := by
    have hp := List.find?_some h
    rw [Bool.and_eq_true, beq_iff_eq, beq_iff_eq] at hp
    exact Prod.ext hp.1 hp.2
  have hself : alignsThrough (fl.fx, fl.fy) f = true := by
    rw [hplace]
    simp [alignsThrough]
  have hkeep : ∀ g : Field, (if alignsThrough (g.fx, g.fy) f then { g with skew := skewOf (g.skew.toNat + 200) } else g).fx = g.fx ∧
      (if alignsThrough (g.fx, g.fy) f then { g with skew := skewOf (g.skew.toNat + 200) } else g).fy = g.fy := fun g => by
    split
    · exact ⟨rfl, rfl⟩
    · exact ⟨rfl, rfl⟩
  unfold State.fieldAt State.widened
  rw [List.find?_map]
  have hpred : ((fun g : Field => g.fx == f.1 && g.fy == f.2) ∘ fun g => if alignsThrough (g.fx, g.fy) f then { g with skew := skewOf (g.skew.toNat + 200) } else g) =
      fun g => g.fx == f.1 && g.fy == f.2 := by
    funext g
    rw [Function.comp_apply, (hkeep g).1, (hkeep g).2]
  rw [hpred, h, Option.map_some, if_pos hself, Option.getD_some]

/-- A field whose exchange has failed, before its steward is told (R395). -/
def State.missed (s : State) (f : Nat × Nat) : State :=
  let u := s.updField f fun fl => { fl with failedEx := (s.fieldAt f).failedEx + 1 }
  if (u.fieldAt f).slot = 0x800 ∧ 2 ≤ (s.fieldAt f).failedEx + 1 then u.widened f else u

theorem State.missed_keeps (s : State) (f : Nat × Nat) : (s.missed f).tile = s.tile ∧ (s.missed f).tileAt = s.tileAt := by
  unfold State.missed
  dsimp only
  split
  · exact ⟨rfl, rfl⟩
  · exact ⟨rfl, rfl⟩

theorem State.fieldAt_missed (s : State) (f : Nat × Nat) : (s.missed f).fieldAt f =
    { s.fieldAt f with failedEx := (s.fieldAt f).failedEx + 1,
                       skew := if (s.fieldAt f).slot = 0x800 ∧ 1 ≤ (s.fieldAt f).failedEx then skewOf ((s.fieldAt f).skew.toNat + 200) else (s.fieldAt f).skew } := by
  have hself : (s.updField f fun fl => { fl with failedEx := (s.fieldAt f).failedEx + 1 }).fieldAt f =
      { s.fieldAt f with failedEx := (s.fieldAt f).failedEx + 1 } := s.fieldAt_updField_self f fun _ => ⟨rfl, rfl⟩
  have hlist : (s.updField f fun fl => { fl with failedEx := (s.fieldAt f).failedEx + 1 }).flds.find? (fun g => g.fx == f.1 && g.fy == f.2) =
      some { s.fieldAt f with failedEx := (s.fieldAt f).failedEx + 1 } := by
    obtain ⟨hfx, hfy⟩ := s.fieldAt_place f
    exact (find?_putField ..).trans (if_pos ⟨hfx, hfy⟩)
  unfold State.missed
  dsimp only
  rw [hself]
  by_cases h : (s.fieldAt f).slot = 0x800 ∧ 1 ≤ (s.fieldAt f).failedEx
  · rw [if_pos ⟨h.1, Nat.succ_le_succ h.2⟩, State.fieldAt_widened hlist, if_pos h]
  · rw [if_neg fun hn => h ⟨hn.1, Nat.le_of_succ_le_succ hn.2⟩, hself, if_neg h]

theorem State.exchangeFails_eq (s : State) (f : Nat × Nat) : s.exchangeFails f =
    if (s.fieldAt f).failedEx + 1 = 4 then
      (((s.missed f).updField f fun fl => { fl with aligned := false }).stewardEvent f 0xE2 (actingSteward (parentField f)).operand
        (((s.missed f).fieldAt f).skew.setWidth 32)).notifyField f 0x7E 0 (BitVec.ofNat 32 (f.1 + 8 * f.2))
    else s.missed f := rfl

theorem timeExchange_misses (hpower : s.wafer.power = .run) (hslot : s.fld.slot = 0 ∨ s.fld.slot = 0x800) (hdid : s.fld.did.contains 2 = false)
    (hserved : s.fld.served = true) (hf : s.tile.phys.field ≠ (0, 0)) (hok : s.inp.ok = false) (hfailed : s.fld.failedEx ≠ 3) :
    ∃ t, exec .timeExchange s = .next t ∧ (t.fieldAt s.tile.phys.field).failedEx = s.fld.failedEx + 1 ∧
      (t.fieldAt s.tile.phys.field).time = s.fld.time ∧ (t.fieldAt s.tile.phys.field).rate = s.fld.rate ∧
      (t.fieldAt s.tile.phys.field).skew = if s.fld.slot = 0x800 ∧ 1 ≤ s.fld.failedEx then skewOf (s.fld.skew.toNat + 200) else s.fld.skew := by
  refine ⟨s.tried.missed s.tile.phys.field, (exec_timeExchange hpower hslot hdid hserved hf).trans (congrArg Host.Outcome.next ?_), ?_⟩
  · rw [hok, if_neg Bool.false_ne_true, State.exchangeFails_eq, State.fieldAt_tried, if_neg]
    exact fun h => hfailed (Nat.succ.inj h)
  · rw [State.fieldAt_missed, State.fieldAt_tried]
    exact ⟨rfl, rfl, rfl, rfl⟩

theorem timeExchange_unaligns (hpower : s.wafer.power = .run) (hslot : s.fld.slot = 0 ∨ s.fld.slot = 0x800) (hdid : s.fld.did.contains 2 = false)
    (hserved : s.fld.served = true) (hf : s.tile.phys.field ≠ (0, 0)) (hok : s.inp.ok = false) (hfailed : s.fld.failedEx = 3) :
    ∃ t e, exec .timeExchange s = .next t ∧ (t.fieldAt s.tile.phys.field).failedEx = 4 ∧ (t.fieldAt s.tile.phys.field).aligned = false ∧
      e.cause = 0xE2 ∧ e.addr = (actingSteward (parentField s.tile.phys.field)).operand ∧
      (t.tileAt (s.stewardOf s.tile.phys.field)).stw.exns = (s.tileAt (s.stewardOf s.tile.phys.field)).stw.exns ++ [e] := by
  let v := (s.tried.missed s.tile.phys.field).updField s.tile.phys.field fun fl => { fl with aligned := false }
  have hfield : v.fieldAt s.tile.phys.field = { (s.tried.missed s.tile.phys.field).fieldAt s.tile.phys.field with aligned := false } :=
    State.fieldAt_updField_self _ _ fun _ => ⟨rfl, rfl⟩
  rw [State.fieldAt_missed, State.fieldAt_tried, hfailed] at hfield
  have hsteward : v.stewardOf s.tile.phys.field = s.stewardOf s.tile.phys.field := State.stewardOf_congr _ (congrArg Field.stewardsLost hfield :)
  have htile : v.tileAt = s.tileAt := (s.tried.missed_keeps s.tile.phys.field).2
  have hexec := exec_timeExchange hpower hslot hdid hserved hf
  rw [hok, if_neg Bool.false_ne_true, State.exchangeFails_eq, State.fieldAt_tried, if_pos (congrArg Nat.succ hfailed)] at hexec
  refine ⟨_, { cause := 0xE2, addr := (actingSteward (parentField s.tile.phys.field)).operand,
               info := ((s.tried.missed s.tile.phys.field).fieldAt s.tile.phys.field).skew.setWidth 32 }, hexec, ?_, ?_, rfl, rfl, ?_⟩
  · rw [State.notifyField_fieldAt, State.stewardEvent_fieldAt, hfield]
  · rw [State.notifyField_fieldAt, State.stewardEvent_fieldAt, hfield]
  · have hwaits := v.stewardEvent_waits s.tile.phys.field (n := 0xE2) (actingSteward (parentField s.tile.phys.field)).operand
      (((s.tried.missed s.tile.phys.field).fieldAt s.tile.phys.field).skew.setWidth 32) (by decide)
    rw [hsteward, htile] at hwaits
    rw [State.notifyField_tileAt]
    exact hwaits

/- The comparison of the transit tables. -/

/-- The writes that a comparison of a field's table of a lane with its parent's asks for (R396). -/
def laneCopies (fl p : Field) (l : Nat) : List (Nat × Nat × BitVec 16) := if fl.laneCrc l = p.laneCrc l then [] else copyLane fl p l

/-- The comparison of one lane. -/
def State.compareLane (f : Nat × Nat) (fl p : Field) (s : State) (l : Nat) : State :=
  if fl.laneCrc l = p.laneCrc l then s
  else (s.updField f fun g => { g with almNext := g.almNext ++ copyLane fl p l }).stewardEvent f (0xE5 + 256 * l) (actingSteward (parentField f)).operand (fl.laneCrc l)

theorem State.fieldAt_compareLane (f : Nat × Nat) (fl p : Field) (s : State) (l : Nat) :
    (s.compareLane f fl p l).fieldAt f = { s.fieldAt f with almNext := (s.fieldAt f).almNext ++ laneCopies fl p l } := by
  unfold State.compareLane laneCopies
  split
  · rw [List.append_nil]
  · rw [State.stewardEvent_fieldAt]
    exact s.fieldAt_updField_self f fun _ => ⟨rfl, rfl⟩

theorem State.fieldAt_foldl_compareLane (f : Nat × Nat) (fl p : Field) (ls : List Nat) (s : State) :
    (ls.foldl (State.compareLane f fl p) s).fieldAt f = { s.fieldAt f with almNext := (s.fieldAt f).almNext ++ ls.flatMap (laneCopies fl p) } := by
  induction ls generalizing s with
  | nil => rw [List.foldl_nil, List.flatMap_nil, List.append_nil]
  | cons l ls ih => rw [List.foldl_cons, ih, State.fieldAt_compareLane, List.flatMap_cons, List.append_assoc]

theorem transitTableCheck_copies (hslot : s.fld.slot = 0x800) (hdid : s.fld.did.contains 5 = false) (hserved : s.fld.served = true)
    (hf : s.tile.phys.field ≠ (0, 0)) :
    ∃ t, exec .transitTableCheck s = .next t ∧ 5 ∈ (t.fieldAt s.tile.phys.field).did ∧ (t.fieldAt s.tile.phys.field).almanac = s.fld.almanac ∧
      ∀ l, l < 4 → s.fld.laneCrc l ≠ (s.fieldAt (parentField s.tile.phys.field)).laneCrc l →
        ∀ x ∈ copyLane s.fld (s.fieldAt (parentField s.tile.phys.field)) l, x ∈ (t.fieldAt s.tile.phys.field).almNext := by
  have hgo : ¬ (s.fld.slot ≠ 0x800 ∨ s.fld.did.contains 5 = true ∨ s.tile.phys.field = (0, 0) ∨ (!s.fld.served) = true) := by
    simp [hslot, hserved, hf, List.contains_eq_mem] at hdid ⊢
    exact hdid
  let u := s.updField s.tile.phys.field fun fl => { fl with did := 5 :: fl.did }
  have hu : u.fieldAt s.tile.phys.field = { s.fld with did := 5 :: s.fld.did } := s.fieldAt_updField_self _ fun _ => ⟨rfl, rfl⟩
  refine ⟨(List.range 4).foldl (State.compareLane s.tile.phys.field s.fld (s.fieldAt (parentField s.tile.phys.field))) u,
    congrArg Host.Outcome.next (if_neg hgo), ?_⟩
  rw [State.fieldAt_foldl_compareLane, hu]
  refine ⟨List.mem_cons_self, rfl, fun l hl hne x hx => List.mem_append_right _ (List.mem_flatMap.2 ⟨l, List.mem_range.2 hl, ?_⟩)⟩
  rw [laneCopies, if_neg hne]
  exact hx

/- Heartbeats. -/

theorem stewardHeartbeat_counts (hslot : s.fld.slot % 16 = 8) (hdid : s.fld.did.contains 3 = false) (ha : s.liveSteward s.tile.phys.field false = true)
    (hm : s.liveSteward s.tile.phys.field true = true) :
    ∃ t, exec .stewardHeartbeat s = .next t ∧ (t.fieldAt s.tile.phys.field).heartMissMirror = (if s.inp.n % 2 = 0 then 0 else s.fld.heartMissMirror + 1) ∧
      (t.fieldAt s.tile.phys.field).heartMiss = if s.inp.n / 2 % 2 = 0 then 0 else s.fld.heartMiss + 1 := by
  have hgo : ¬ (s.fld.slot % 16 ≠ 8 ∨ s.fld.did.contains 3 = true) := by
    rw [hslot, hdid]
    decide
  refine ⟨_, congrArg Host.Outcome.next (if_neg hgo), ?_⟩
  rw [State.fieldAt_updField_self]
  · dsimp only
    rw [ha, hm, Bool.true_and, Bool.true_and]
    simp only [beq_iff_eq]
    exact ⟨rfl, rfl⟩
  · exact fun k => ⟨rfl, rfl⟩

/-- A field with one steward that lives is served (R368). -/
theorem State.served_of_live {m : Bool} (h : m ∉ (s.fieldAt f).stewardsLost) : (s.fieldAt f).served = true := by
  unfold Field.served
  simp only [List.contains_eq_mem]
  cases m
  · simp [h]
  · simp [h]

theorem State.not_mem_stewardsLost {m : Bool} (h : s.liveSteward f m = true) : m ∉ (s.fieldAt f).stewardsLost := fun hm => by
  unfold State.liveSteward at h
  rw [List.contains_iff_mem.2 hm] at h
  exact Bool.false_ne_true h

/-- The mirror is lost while the acting steward lives (R367). -/
theorem State.lose_mirror (hlive : s.liveSteward f false = true) :
    true ∈ ((s.lose f true).fieldAt f).stewardsLost ∧ ((s.lose f true).tileAt (mirrorSteward f)).stop.off = true := by
  let u := s.updTile (mirrorSteward f) fun t => { t with stop.off := true }
  let v := u.updField f fun fl => { fl with stewardsLost := fl.stewardsLost ++ [true], heartMiss := 0, heartMissMirror := 0 }
  have hflds : u.fieldAt f = s.fieldAt f := State.fieldAt_congr (State.updTile_flds ..) f
  have hv : v.fieldAt f = { s.fieldAt f with stewardsLost := (s.fieldAt f).stewardsLost ++ [true], heartMiss := 0, heartMissMirror := 0 } := by
    rw [← hflds]
    exact u.fieldAt_updField_self f fun _ => ⟨rfl, rfl⟩
  have hserved : (v.fieldAt f).served = true := by
    refine State.served_of_live (m := false) ?_
    rw [hv, List.mem_append]
    simpa using State.not_mem_stewardsLost hlive
  have hoff : (v.tileAt (mirrorSteward f)).stop.off = true :=
    congrArg (fun t : Tile => t.stop.off) (s.tileAt_updTile_self (mirrorSteward f) (f := fun t => { t with stop.off := true }) fun _ => rfl)
  have hlose : s.lose f true = (v.stewardEvent f 0xC3 (mirrorSteward f).operand 0).notifyField f 0x18 0 0 := by
    change (if !(v.fieldAt f).served then (if !(v.fieldAt f).served then v else v.stewardEvent f 0xC3 (mirrorSteward f).operand 0).dropMoves f
      else if !(v.fieldAt f).served then v else v.stewardEvent f 0xC3 (mirrorSteward f).operand 0).notifyField f 0x18 0 (if !(v.fieldAt f).served then 1 else 0) = _
    rw [hserved]
    rfl
  rw [hlose, State.notifyField_fieldAt, State.stewardEvent_fieldAt, hv, State.notifyField_tileAt]
  refine ⟨List.mem_append_right _ (List.mem_singleton_self _), ?_⟩
  unfold State.stewardEvent
  rw [State.tileAt_updTile _ _ _ fun t => t.stewardEvent_phys _]
  split
  · obtain ⟨l, hl⟩ := (v.tileAt (mirrorSteward f)).stewardEvent_eq { cause := BitVec.ofNat 16 0xC3, addr := (mirrorSteward f).operand, info := 0 }
    rw [hl]
    exact hoff
  · exact hoff

theorem partnerLost_loses (hmiss : 3 ≤ s.fld.heartMiss) (ha : s.liveSteward s.tile.phys.field false = true) (hm : s.liveSteward s.tile.phys.field true = true) :
    ∃ t, exec .partnerLost s = .next t ∧ true ∈ (t.fieldAt s.tile.phys.field).stewardsLost ∧ (t.tileAt (mirrorSteward s.tile.phys.field)).stop.off = true :=
  ⟨_, congrArg Host.Outcome.next (if_pos (.inr ⟨hmiss, hm, ha⟩)), State.lose_mirror ha⟩

end Exchanges

/-- Settles O48, clause by clause in the order of the statement. -/
theorem fieldsWork : Obligations.FieldsWork := by
  rintro s f fl rfl rfl
  refine ⟨sensorSample_reads, sensorSample_idle, fieldThermalCheck_clocks, thermalPause_pauses, thermalResume_resumes, almanacSlotBoundary_begins,
    fun _ => frameStart_begins, ?_, fun hslot hdid hrest hbad hist => ⟨scrub_clean hslot hdid hrest hbad hist, fun w _ hoff _ => ?_⟩,
    fun hpower hslot hdid hserved hf => ⟨timeExchange_aligns hpower hslot hdid hserved hf, timeExchange_misses hpower hslot hdid hserved hf,
      timeExchange_unaligns hpower hslot hdid hserved hf⟩, transitTableCheck_copies, stewardHeartbeat_counts, partnerLost_loses⟩
  · rintro ist w rfl rfl
    exact correctableError_corrects
  · exact scrub_corrects hslot hdid hrest hbad hist hoff

end Sys2Proof.Machine
end

section
/-!
O47: routers (R142, R144, R145, R149, R390).
-/

namespace Sys2Proof.Machine

open Sys2Proof.Claims

section Routers

variable {s : State} {p : Packet} {w : Way}

/- Messages under way. -/

/-- A message that has a way is in flight with it. -/
theorem State.onWay_mem {m : Nat} (h : s.onWay m = some (p, w)) : p ∈ s.net ∧ p.way = some w := by
  obtain ⟨q, hq, hw⟩ := List.exists_of_findSome?_eq_some h
  obtain ⟨v, hv, he⟩ := Option.bind_eq_some_iff.1 hw
  split at he
  · obtain ⟨rfl, rfl⟩ := Prod.mk.inj (Option.some.inj he)
    exact ⟨hq, hv⟩
  · exact absurd he nofun

/-- A flit that ends changes the messages in flight, and how many have arrived. -/
theorem State.flitEnds_eq (s : State) (m : Nat) (lost : Bool) : ∃ l k, s.flitEnds m lost = { s with net := l, serial := k } := by
  unfold State.flitEnds
  split
  · exact ⟨_, _, rfl⟩
  · dsimp only
    split_ifs
    · exact ⟨_, _, rfl⟩
    · exact ⟨_, _, rfl⟩
    · exact ⟨_, _, rfl⟩

/-- With its last flit, none of them lost, a message has arrived. -/
theorem State.flitEnds_arrives {m : Nat} (h : s.onWay m = some (p, w)) (hleft : w.left = 1) (hlost : w.lost = false) :
    { p with way := none, place := some (w.dst, s.serial), fwd := w.fwd } ∈ (s.flitEnds m false).net := by
  unfold State.flitEnds
  rw [h]
  dsimp only
  rw [hleft, hlost, if_neg (Nat.lt_irrefl 0), if_neg (by decide)]
  exact List.mem_map.2 ⟨p, (State.onWay_mem h).1, if_pos rfl⟩

/- What enters a router. -/

/-- Where every flit at the router is of a message under way, none goes first. -/
theorem exec_routerFlitArrival (h : Current s) : exec .routerFlitArrival s =
    .next (if s.inp.k = 1 then s.deliver else if s.inp.dir = .lcl then s.inject else s.enter (Dir.code s.inp.dir - 1)) := by
  have hall : { s with tile.router.bufs := s.tile.router.bufs.filter fun x => s.under x.2 } = s := by
    rw [List.filter_eq_self.2 h]
  exact congrArg (fun u : State => Host.Outcome.next
    (if u.inp.k = 1 then u.deliver else if u.inp.dir = .lcl then u.inject else u.enter (Dir.code u.inp.dir - 1))) hall

/-- A router that admits a flit keeps it at its input (R142, R145). -/
theorem State.routeFlit_admits {d : Dir} {x : Flit} (h : Admits s.tile d x) : s.routeFlit d x = { s with tile := s.tile.pushFlit d x (s.clkAt s.tile) } := by
  obtain ⟨hoff, hdead, hreserved, hown⟩ := h
  unfold State.routeFlit
  dsimp only
  rw [hoff, hdead, hreserved, if_neg (by decide), if_neg (by decide), if_pos]
  rcases hown with hexempt | ⟨hlocal, hin, hout⟩
  · rw [hexempt]
    cases s.tile.hop (home x.hdr.dst) x.hops <;> simp
  · have hinput : (d == .lcl || (exempt x.hdr || (s.tile.owns 0 x.hdr.carrel && s.tile.owns (Dir.code d) x.hdr.carrel))) = true := by
      by_cases hd : d = .lcl
      · rw [hd]
        rfl
      · rw [hlocal, hin hd]
        simp
    rw [hinput, Bool.true_and]
    split
    · next n r e hhop =>
      rw [hlocal, hout n r e hhop]
      simp
    · rfl

theorem State.report_stray (hdid : s.fld.did.contains (routerKey s.tile.phys) = true) :
    s.report 2 = { s with tile.router.stray := s.tile.router.stray + 1 } := if_pos hdid

/-- A router that is off discards what reaches it (R390). -/
theorem State.routeFlit_off (d : Dir) (x : Flit) (hoff : s.tile.router.off = true) : s.routeFlit d x = s.discard 2 x := by
  unfold State.routeFlit
  dsimp only
  rw [hoff]
  rfl

theorem routerFlitArrival_injects (hcur : Current s) (hk : s.inp.k = 0) {v : Way} {x : Flit} (hdir : s.inp.dir = .lcl) (hpkt : s.inp.pkt = some p)
    (hway : p.way = some v) (hw : s.board p v s.inp.m = w) (hsrc : home w.src = s.tile.phys) (hx : x = ({ msg := w.id, i := w.sent, hdr := p.header w } : Flit))
    (hfirst : (s.net.find? fun q => q.hdr.carrel == p.hdr.carrel && q.way.any fun v => v.src == w.src && v.vc == w.vc && decide (v.sent < q.len + 1)) = some p)
    (hroom : s.tile.buffered .lcl (p.header w) < 8) (hnotice : stewardNotice p = true → 0 < w.sent ∨ s.fld.slot % 16 = 8)
    (htransit : w.vc = 3 → 0 < w.sent ∨ s.admits p w w.lane.toNat = true) (hadmit : Admits s.tile .lcl x) :
    ∃ t, exec .routerFlitArrival s = .next t ∧ t.tile.router.bufs = s.tile.router.bufs ++ [(.lcl, { x with since := s.clkAt s.tile })] ∧
      t.net = (s.putPacket p { p with way := some { w with sent := w.sent + 1 } }).net := by
  have hmsg : (s.inp.pkt.bind fun p => p.way.map (p, ·)) = some (p, v) := by rw [hpkt, Option.bind_some, hway, Option.map_some]
  have hgo : ¬ ((stewardNotice p = true ∧ w.sent = 0 ∧ s.fld.slot % 16 ≠ 8) ∨
      (s.net.find? fun q => q.hdr.carrel == p.hdr.carrel && q.way.any fun v => v.src == w.src && v.vc == w.vc && decide (v.sent < q.len + 1)) ≠ some p ∨
      home w.src ≠ s.tile.phys ∨ 8 ≤ s.tile.buffered .lcl (p.header w) ∨ (w.vc = 3 ∧ w.sent = 0 ∧ (!s.admits p w w.lane.toNat) = true)) := by
    rintro (⟨hn, hsent, hslot⟩ | hne | hne | hfull | ⟨hvc, hsent, hlane⟩)
    · exact (hnotice hn).elim (fun h => absurd h (by omega)) hslot
    · exact hne hfirst
    · exact hne hsrc
    · omega
    · rcases htransit hvc with h | h
      · omega
      · rw [h] at hlane
        exact Bool.false_ne_true hlane
  have hinject : s.inject = (s.putPacket p { p with way := some { w with sent := w.sent + 1 } }).routeFlit .lcl x := by
    unfold State.inject
    rw [hmsg]
    dsimp only
    rw [hw, if_neg hgo, hx]
  refine ⟨s.inject, (exec_routerFlitArrival hcur).trans ?_, ?_, ?_⟩
  · rw [hk, hdir, if_neg Nat.zero_ne_one, if_pos rfl]
  · rw [hinject, State.routeFlit_admits (s := s.putPacket p _) hadmit]
    rfl
  · rw [hinject, State.routeFlit_admits (s := s.putPacket p _) hadmit]

/- Links of a router. -/

@[simp] theorem Tile.link_setLink_self (t : Tile) (n : Nat) (l : Link) : (t.setLink n l).router.link n = l := Vector.getElem_set_self ..

theorem State.enter_accepted {n : Nat} {x : Flit} {xs : List Flit} (hlink : (s.tile.router.link n).accepted = x :: xs) (hunder : s.under x = true) :
    s.enter n = { s with tile := s.tile.setLink n { s.tile.router.link n with accepted := xs } }.routeFlit (linkDir n) x := by
  unfold State.enter
  dsimp only
  rw [hlink]
  exact if_pos hunder

theorem linkDir_code {d : Dir} (h : d ≠ .lcl) : linkDir (Dir.code d - 1) = d := by
  cases d with
  | lcl => exact absurd rfl h
  | west => rfl
  | north => rfl
  | east => rfl
  | south => rfl

theorem routerFlitArrival_enters (hcur : Current s) (hk : s.inp.k = 0) {x : Flit} {xs : List Flit} (hdir : s.inp.dir ≠ .lcl)
    (hlink : (s.tile.router.link (Dir.code s.inp.dir - 1)).accepted = x :: xs) (hunder : s.under x = true) :
    (Admits s.tile s.inp.dir x → ∃ t, exec .routerFlitArrival s = .next t ∧ t.net = s.net ∧
      t.tile.router.bufs = s.tile.router.bufs ++ [(s.inp.dir, { x with since := s.clkAt s.tile })] ∧
      (t.tile.router.link (Dir.code s.inp.dir - 1)).accepted = xs) ∧
    (s.tile.router.off = true → s.fld.did.contains (routerKey s.tile.phys) = true →
      ∃ t, exec .routerFlitArrival s = .next t ∧ t.tile.router.stray = s.tile.router.stray + 1 ∧ t.tile.router.bufs = s.tile.router.bufs) := by
  let u : State := { s with tile := s.tile.setLink (Dir.code s.inp.dir - 1) { s.tile.router.link (Dir.code s.inp.dir - 1) with accepted := xs } }
  have hexec : exec .routerFlitArrival s = .next (u.routeFlit s.inp.dir x) := by
    rw [exec_routerFlitArrival hcur, hk, if_neg Nat.zero_ne_one, if_neg hdir, State.enter_accepted hlink hunder, linkDir_code hdir]
  refine ⟨fun hadmit => ⟨_, hexec, ?_⟩, fun hoff hdid => ⟨_, hexec, ?_⟩⟩
  · rw [State.routeFlit_admits (s := u) hadmit]
    exact ⟨rfl, rfl, congrArg Link.accepted (s.tile.link_setLink_self _ _)⟩
  · obtain ⟨l, k, h⟩ := (u.report 2).flitEnds_eq x.msg true
    rw [State.routeFlit_off (s := u) _ _ hoff, State.discard, h, State.report_stray (s := u) hdid]
    exact ⟨rfl, rfl⟩

/- What leaves by the local port. -/

theorem routerFlitArrival_delivers {x : Dir × Flit} (hcur : Current s) (hk : s.inp.k = 1)
    (hhead : ((heads s.tile.router.bufs).find? fun x => x.1 == s.inp.dir && x.2.hdr.vc.toNat == s.inp.n && x.2.hdr.lane.toNat == s.inp.m) = some x)
    (hhop : s.tile.hop (home x.2.hdr.dst) x.2.hops = none)
    (htile : x.2.hdr.dst.agent = false → s.tile.owns 0 x.2.hdr.carrel = true ∧ s.holdFull x.2.hdr = false)
    (hagent : x.2.hdr.dst.agent = true → exempt x.2.hdr = true) :
    exec .routerFlitArrival s = .next ({ s with tile := s.tile.popFlit x (s.clkAt s.tile) }.flitEnds x.2.msg false) := by
  have hok : (if x.2.hdr.dst.agent then exempt x.2.hdr else s.tile.owns 0 x.2.hdr.carrel || (exempt x.2.hdr && s.tile.phys.steward)) = true := by
    split
    · next h => exact hagent h
    · next h =>
      rw [(htile (Bool.eq_false_iff.2 h)).1]
      rfl
  have hgo : ¬ ((none : Option (Nat × List (BitVec 2) × Bool)).isSome = true ∨ (True ∧ (!x.2.hdr.dst.agent) = true ∧ s.holdFull x.2.hdr = true)) := by
    rintro (h | ⟨-, h, hfull⟩)
    · exact Bool.false_ne_true h
    · rw [(htile (Bool.not_eq_true' _ ▸ h)).2] at hfull
      exact Bool.false_ne_true hfull
  rw [exec_routerFlitArrival hcur, hk, if_pos rfl]
  unfold State.deliver
  dsimp only
  rw [hhead]
  dsimp only
  rw [hhop, hok]
  exact congrArg Host.Outcome.next ((if_neg (by simpa using hgo)).trans (if_pos rfl))

/- What a link's output may serve (R141). -/

theorem State.served_control {t : Tile} {c : Nat} {xs : List (Dir × Flit × List (BitVec 2))} (hc : c % 4 ≠ 3) (hwait : ∀ x ∈ xs, c < x.2.1.since + 64)
    (hcontrol : ∃ x ∈ xs, x.2.1.hdr.vc = 4) : ∀ x ∈ s.served t c xs, x.2.1.hdr.vc = 4 := by
  have hlate : (([0, 1, 2, 4] : List (BitVec 3)).find? fun v => (xs.filter (·.2.1.hdr.vc == v)).any fun x => decide (x.2.1.since + 64 ≤ c)) = none := by
    refine List.find?_eq_none.2 fun v _ h => ?_
    obtain ⟨x, hx, hle⟩ := List.any_eq_true.1 h
    exact absurd (of_decide_eq_true hle) (Nat.not_le.2 (hwait x (List.mem_of_mem_filter hx)))
  have hsome : (!(xs.filter (·.2.1.hdr.vc == 4)).isEmpty) = true := by
    obtain ⟨x, hx, hvc⟩ := hcontrol
    rw [Bool.not_eq_true', List.isEmpty_eq_false_iff_exists_mem]
    exact ⟨x, List.mem_filter.2 ⟨hx, beq_iff_eq.2 hvc⟩⟩
  have hserved : s.served t c xs = xs.filter (·.2.1.hdr.vc == 4) := by
    unfold State.served
    dsimp only
    rw [if_neg hc, hlate]
    simp only [List.map_cons]
    rw [List.find?_cons, hsome]
    rfl
  intro x hx
  rw [hserved] at hx
  exact beq_iff_eq.1 (List.mem_filter.1 hx).2

theorem State.served_transit {t : Tile} {c : Nat} {xs : List (Dir × Flit × List (BitVec 2))} (hc : c % 4 = 3) :
    ∀ x ∈ s.served t c xs, (x.2.1.hdr.vc = 3 ∧ (s.fieldAt t.phys.field).owns (53 + x.2.1.hdr.lane.toNat) x.2.1.hdr.carrel = true) ∨
      (x.2.1.hdr.vc = 4 ∧ x.2.1.hdr.stw = true ∧ (s.fieldAt t.phys.field).slot % 16 = 8) := by
  intro x hx
  unfold State.served at hx
  dsimp only at hx
  rw [if_pos hc] at hx
  split at hx
  · exact absurd hx List.not_mem_nil
  · have hmay := (List.mem_filter.1 hx).2
    simpa [and_assoc] using hmay

end Routers

end Sys2Proof.Machine
end

section
/-!
O47, continued: links and routers that die (R141, R143, R344, R385, R389).
-/

namespace Sys2Proof.Machine

open Sys2Proof.Claims

section Links

variable {s : State} {n : Nat} {q : Phys} {l : Link}

theorem physOver_ne {p : Phys} (h : physOver p n = some q) : p ≠ q := by
  have hmove : ∀ r : Phys, (if r != p && r.onWafer then some r else none) = some q → p ≠ q := fun r hr => by
    split at hr
    · next hgo =>
      rw [← Option.some.inj hr]
      exact (bne_iff_ne.1 (Bool.and_eq_true_iff.1 hgo).1).symm
    · exact absurd hr nofun
  exact hmove _ h

/-- An update of another tile is read there, whatever becomes of the tile in focus. -/
theorem State.tileAt_updTile_withTile {g : Tile → Tile} {t : Tile} (hp : ∀ t, (g t).phys = t.phys) (ht : t.phys = s.tile.phys) (hq : s.tile.phys ≠ q) :
    ({ s.updTile q g with tile := t } : State).tileAt q = g (s.tileAt q) := by
  have hfocus : (s.updTile q g).tile.phys = s.tile.phys := s.updTile_keeps Tile.phys q hp hp
  rw [← State.tileAt_updTile_self s q hp]
  exact (if_neg (ht ▸ hq)).trans (if_neg (hfocus ▸ hq)).symm

/- Groups. -/

theorem exec_linkGroup (hn : n = s.inp.n % 4) (hq : physOver s.tile.phys n = some q) (hdead : (s.tile.router.link n).dead = false) :
    (s.inp.k = 0 → exec .linkGroup s = .next ({ s with tile.router.bufs := s.tile.router.bufs.filter fun x => s.under x.2 }.sendGroup n (s.tileAt q))) ∧
    (s.inp.k = 1 → exec .linkGroup s = .next (s.takeGroup n q (BitVec.ofNat 528 s.inp.j))) ∧
    (s.inp.k = 2 → exec .linkGroup s = .next (if (s.tile.router.link n).unacked = [] ∨ (!((s.tileAt q).router.link (linkBack n)).bad) = true then s
      else { s with tile := s.tile.setLink n { s.tile.router.link n with
        rounds := (s.tile.router.link n).rounds + 1, wires := (s.tile.router.link n).wires ++ (s.tile.router.link n).unacked.map (·.seq) } })) := by
  subst hn
  refine ⟨fun hk => ?_, fun hk => ?_, fun hk => ?_⟩
  all_goals
    change execLinkGroup s = _
    unfold execLinkGroup State.become
    dsimp only
    rw [hq]
    dsimp only
    rw [if_neg (by rw [hdead]; exact Bool.false_ne_true), hk]
    rfl

theorem linkGroup_sends (hn : n = s.inp.n % 4) (hq : physOver s.tile.phys n = some q) (hdead : (s.tile.router.link n).dead = false)
    (u : Tile) (g : List OutFlit) (hcur : Current s) (hk : s.inp.k = 0) (htaken : (s.tile.router.link n).taken ≤ s.clkAt s.tile)
    (hroom : (s.tile.router.link n).unacked.length < 16) (halive : s.tile.router.dead = false)
    (hfill : s.fillGroup n (s.tileAt q) s.inp.bytes 4 s.tile [] = (u, g)) (hsome : ∃ x ∈ g, x ≠ none) :
    exec .linkGroup s = .next { s with tile := u.setLink n { u.router.link n with
      next := (u.router.link n).next + 1, wires := (u.router.link n).wires ++ [(u.router.link n).next],
      unacked := (u.router.link n).unacked ++ [{ seq := (u.router.link n).next, flits := g, bits := s.groupBits g }],
      taken := s.clkAt s.tile + 4 } } := by
  have hall : { s with tile.router.bufs := s.tile.router.bufs.filter fun x => s.under x.2 } = s := by
    rw [List.filter_eq_self.2 hcur]
  have hgo : ¬ (s.clkAt s.tile < (s.tile.router.link n).taken ∨ 16 ≤ (s.tile.router.link n).unacked.length ∨ s.tile.router.dead = true) := by
    rw [halive]
    rintro (h | h | h)
    · omega
    · omega
    · exact Bool.false_ne_true h
  have hsome' : ¬ (g.all (·.isNone)) = true := fun hnone => by
    obtain ⟨x, hx, hne⟩ := hsome
    exact hne (Option.isNone_iff_eq_none.1 (List.all_eq_true.1 hnone x hx))
  rw [(exec_linkGroup hn hq hdead).1 hk, hall]
  unfold State.sendGroup
  dsimp only
  rw [if_neg hgo, hfill]
  dsimp only
  rw [if_neg hsome']

theorem linkGroup_accepts (hn : n = s.inp.n % 4) (hq : physOver s.tile.phys n = some q) (hdead : (s.tile.router.link n).dead = false)
    {i : BitVec 5} {is : List (BitVec 5)} {g : Group} (hk : s.inp.k = 1) (halive : s.tile.router.dead = false)
    (hwires : ((s.tileAt q).router.link (linkBack n)).wires = i :: is)
    (hgroup : ((s.tileAt q).router.link (linkBack n)).unacked.find? (·.seq = i) = some g) (hj : s.inp.j = 0) (hi : i = (s.tile.router.link n).expect) :
    ∃ t, exec .linkGroup s = .next t ∧ t.tile.router.link n = { s.tile.router.link n with
        expect := i + 1, bad := false,
        accepted := (s.tile.router.link n).accepted ++ g.flits.filterMap fun x => x.map fun y => { y.2.1 with hops := y.2.2 } } ∧
      ((t.tileAt q).router.link (linkBack n)).unacked = ackGroups i ((s.tileAt q).router.link (linkBack n)).unacked := by
  have hcrc : (crc16 (g.bits ^^^ (BitVec.ofNat 528 0).setWidth 512) == crc16 g.bits ^^^ (BitVec.ofNat 528 0 >>> 512).setWidth 16) = true := by
    rw [BitVec.setWidth_zero, BitVec.zero_ushiftRight, BitVec.setWidth_zero, BitVec.xor_zero, BitVec.xor_zero]
    exact beq_self_eq_true _
  have hgo : ¬ (s.tile.router.dead = true ∨ (true = true ∧ BitVec.ofNat 528 0 ≠ 0)) := by
    rw [halive]
    rintro (h | ⟨-, h⟩)
    · exact Bool.false_ne_true h
    · exact h rfl
  have hgood : ¬ ((!true) = true ∨ i ≠ (s.tile.router.link n).expect) := by
    rintro (h | h)
    · exact Bool.false_ne_true h
    · exact h hi
  have hne := physOver_ne hq
  have htake : exec .linkGroup s = .next (s.takeGroup n q (BitVec.ofNat 528 0)) := hj ▸ (exec_linkGroup hn hq hdead).2.1 hk
  unfold State.takeGroup at htake
  dsimp only at htake
  rw [hwires] at htake
  dsimp only at htake
  rw [hgroup] at htake
  dsimp only at htake
  rw [hcrc, if_neg hgo, if_neg hgood] at htake
  refine ⟨_, htake, Tile.link_setLink_self .., ?_⟩
  rw [State.tileAt_updTile_withTile]
  · rw [Tile.link_setLink_self]
  · exact fun _ => rfl
  · rfl
  · exact hne

theorem linkGroup_discards (hn : n = s.inp.n % 4) (hq : physOver s.tile.phys n = some q) (hdead : (s.tile.router.link n).dead = false)
    {i : BitVec 5} {is : List (BitVec 5)} {g : Group} (hk : s.inp.k = 1) (halive : s.tile.router.dead = false)
    (hwires : ((s.tileAt q).router.link (linkBack n)).wires = i :: is)
    (hgroup : ((s.tileAt q).router.link (linkBack n)).unacked.find? (·.seq = i) = some g) {e : BitVec 528} (he : e = BitVec.ofNat 528 s.inp.j)
    (hcrc : crc16 (g.bits ^^^ e.setWidth 512) ≠ crc16 g.bits ^^^ (e >>> 512).setWidth 16) :
    ∃ t, exec .linkGroup s = .next t ∧ t.tile.router.link n = { s.tile.router.link n with bad := true } := by
  have htake := (exec_linkGroup hn hq hdead).2.1 hk
  rw [← he] at htake
  unfold State.takeGroup at htake
  dsimp only at htake
  rw [hwires] at htake
  dsimp only at htake
  rw [hgroup] at htake
  dsimp only at htake
  rw [beq_eq_false_iff_ne.2 hcrc, if_neg (by rw [halive]; simp), if_pos (.inl rfl)] at htake
  exact ⟨_, htake, Tile.link_setLink_self ..⟩

theorem linkGroup_resends (hn : n = s.inp.n % 4) (hq : physOver s.tile.phys n = some q) (hdead : (s.tile.router.link n).dead = false) (hk : s.inp.k = 2)
    (hkept : (s.tile.router.link n).unacked ≠ []) (hbad : ((s.tileAt q).router.link (linkBack n)).bad = true) :
    ∃ t, exec .linkGroup s = .next t ∧ t.tile.router.link n = { s.tile.router.link n with
      rounds := (s.tile.router.link n).rounds + 1, wires := (s.tile.router.link n).wires ++ (s.tile.router.link n).unacked.map (·.seq) } := by
  refine ⟨_, ((exec_linkGroup hn hq hdead).2.2 hk).trans (congrArg Host.Outcome.next (if_neg ?_)), Tile.link_setLink_self ..⟩
  rintro (h | h)
  · exact hkept h
  · rw [hbad] at h
    exact Bool.false_ne_true h

/- The end of a link. -/

theorem Tile.killLink_dead (t : Tile) (n : Nat) : ((t.killLink n).router.link n).dead = true := congrArg Link.dead (Tile.link_setLink_self ..)

@[simp] theorem State.setTile_wafer (t : Tile) : (s.setTile t).wafer = s.wafer := by
  unfold State.setTile
  split <;> rfl

/-- An event leaves the router of every tile as it was. -/
theorem State.stewardEvent_router (s : State) (f : Nat × Nat) (k : Nat) (a i : Word) (q : Phys) : ((s.stewardEvent f k a i).tileAt q).router = (s.tileAt q).router := by
  unfold State.stewardEvent
  rw [State.tileAt_updTile _ _ _ fun t => t.stewardEvent_phys _]
  split
  · obtain ⟨l, h⟩ := (s.tileAt q).stewardEvent_eq { cause := BitVec.ofNat 16 k, addr := a, info := i }
    rw [h]
  · rfl

theorem State.stewardEvent_router_here (s : State) (f : Nat × Nat) (k : Nat) (a i : Word) : (s.stewardEvent f k a i).tile.router = s.tile.router := by
  obtain ⟨x, hx⟩ := s.stewardEvent_tile f k a i
  rw [hx]

@[simp] theorem State.stewardEvent_wafer (f : Nat × Nat) (k : Nat) (a i : Word) : (s.stewardEvent f k a i).wafer = s.wafer := State.setTile_wafer _

@[simp] theorem State.notifyOwners_tile (ps : List Phys) (code : Nat) (i : Word) : (s.notifyOwners ps code i).tile = s.tile := rfl
@[simp] theorem State.notifyOwners_tileAt (ps : List Phys) (code : Nat) (i : Word) : (s.notifyOwners ps code i).tileAt = s.tileAt := rfl
@[simp] theorem State.notifyOwners_wafer (ps : List Phys) (code : Nat) (i : Word) : (s.notifyOwners ps code i).wafer = s.wafer := rfl

theorem linkDead_kills (hn : n = s.inp.n % 4) (hq : physOver s.tile.phys n = some q) (hdead : (s.tile.router.link n).dead = false)
    (hend : 8 ≤ (s.tile.router.link n).rounds ∨ s.inp.ok = true) :
    ∃ t, exec .linkDead s = .next t ∧ (t.tile.router.link n).dead = true ∧ ((t.tileAt q).router.link (linkBack n)).dead = true ∧
      t.wafer.deadLinks = s.wafer.deadLinks ++ [(s.tile.phys, linkDir n)] := by
  have hgo : ¬ ((s.tile.router.link n).dead || !(s.inp.ok || decide (8 ≤ (s.tile.router.link n).rounds))) = true := by
    rw [hdead]
    rcases hend with h | h
    · simp [h]
    · simp [h]
  subst hn
  let u : State := { s with tile := s.tile.killLink (s.inp.n % 4), wafer.deadLinks := s.wafer.deadLinks ++ [(s.tile.phys, linkDir (s.inp.n % 4))] }
  let v := u.updTile q (·.killLink (linkBack (s.inp.n % 4)))
  have hexec : exec .linkDead s = .next ((v.stewardEvent s.tile.phys.field (0xE0 + 256 * (s.inp.n % 4)) s.tile.phys.operand
      (BitVec.ofNat 32 (s.tile.router.link (s.inp.n % 4)).unacked.length)).notifyOwners [s.tile.phys, q] 0x7C
      (BitVec.ofNat 32 (s.tile.phys.operand.toNat + 2 ^ 22 * (s.inp.n % 4)))) := by
    change execLinkDead s = _
    unfold execLinkDead State.become
    dsimp only
    rw [hq]
    exact congrArg Host.Outcome.next (if_neg hgo)
  have hhere : v.tile = s.tile.killLink (s.inp.n % 4) :=
    (u.updTile_tile q (g := (·.killLink (linkBack (s.inp.n % 4)))) fun _ => rfl).trans (if_neg (physOver_ne hq))
  have hfar : v.tileAt q = (u.tileAt q).killLink (linkBack (s.inp.n % 4)) := u.tileAt_updTile_self q (f := (·.killLink (linkBack (s.inp.n % 4)))) fun _ => rfl
  have hwafer : v.wafer = u.wafer := State.setTile_wafer _
  refine ⟨_, hexec, ?_, ?_, ?_⟩
  · rw [State.notifyOwners_tile, State.stewardEvent_router_here, hhere]
    exact s.tile.killLink_dead _
  · rw [State.notifyOwners_tileAt, State.stewardEvent_router, hfar]
    exact (u.tileAt q).killLink_dead _
  · rw [State.notifyOwners_wafer, State.stewardEvent_wafer, hwafer]

end Links

section Routers

variable {s : State}

/-- Flits that are lost with a router change the messages in flight, and how many have arrived. -/
theorem State.foldl_flitEnds_eq (xs : List Flit) (s : State) :
    ∃ l k, xs.foldl (fun s x => s.flitEnds x.msg true) s = { s with net := l, serial := k } := by
  induction xs generalizing s with
  | nil => exact ⟨_, _, rfl⟩
  | cons x xs ih =>
    obtain ⟨l, k, h⟩ := s.flitEnds_eq x.msg true
    obtain ⟨l', k', h'⟩ := ih (s.flitEnds x.msg true)
    rw [List.foldl_cons, h', h]
    exact ⟨l', k', rfl⟩

theorem State.linksGone_of_dead (h : ∀ k : Fin 4, (s.tile.router.links[k]).dead = true) (off : Bool) : s.linksGone off = true := by
  unfold State.linksGone
  refine List.all_eq_true.2 fun x hx => ?_
  obtain ⟨k, hk, hlink⟩ := Vector.mem_iff_getElem.1 (Vector.mem_toList_iff.1 (List.fst_mem_of_mem_zipIdx hx))
  rw [← hlink, show (s.tile.router.links[k]).dead = true from h ⟨k, hk⟩, Bool.true_or]

/-- The gang of no residency does not end. -/
theorem State.endGang_of_none (h : s.tile.core.phase = .unbound ∨ s.myGang = none) : (if s.tile.core.phase = .unbound then s else s.endGang) = s := by
  split
  · rfl
  · next hbound =>
    unfold State.endGang
    rw [h.resolve_left hbound]

/-- A tile whose router has died. -/
def Tile.routerless (t : Tile) : Tile :=
  { t with stop.off := true, router := { t.router with dead := true, off := true, bufs := [], links := t.router.links.map fun l => { l with accepted := [] } } }

theorem deadRouter_dies (hgang : s.tile.core.phase = .unbound ∨ s.myGang = none) (halive : s.tile.router.dead = false)
    (hlinks : ∀ k : Fin 4, (s.tile.router.links[k]).dead = true) :
    ∃ u : State, u.tile.stop.off = true ∧ u.tile.router.dead = true ∧ u.tile.router.bufs = [] ∧ s.tile.phys ∈ u.fld.defects ∧
      exec .deadRouter s = .next (if s.fld.served then u.replaceNonet s.tile.phys.field s.tile.phys.nonet else u) := by
  have hgo : ¬ (s.tile.router.dead || !(s.inp.ok || s.linksGone false)) = true := by
    rw [halive, State.linksGone_of_dead hlinks]
    simp
  obtain ⟨l, k, hlost⟩ := State.foldl_flitEnds_eq (s.tile.router.bufs.map (·.2) ++ s.tile.router.links.toList.flatMap (·.accepted)) s
  let v : State := { s with tile := s.tile.routerless, net := l, serial := k }
  have hfld : (v.updFld fun f => { f with defects := f.defects ++ [s.tile.phys] }).fld = { s.fld with defects := s.fld.defects ++ [s.tile.phys] } :=
    v.fieldAt_updField_self _ fun _ => ⟨rfl, rfl⟩
  have hexec : exec .deadRouter s = .next
      (if (v.updFld fun f => { f with defects := f.defects ++ [s.tile.phys] }).fld.served then
        (v.updFld fun f => { f with defects := f.defects ++ [s.tile.phys] }).replaceNonet s.tile.phys.field s.tile.phys.nonet
      else v.updFld fun f => { f with defects := f.defects ++ [s.tile.phys] }) := by
    change execDeadRouter s = _
    unfold execDeadRouter State.become
    dsimp only
    rw [if_neg hgo, State.endGang_of_none hgang, hlost]
    rfl
  refine ⟨v.updFld fun f => { f with defects := f.defects ++ [s.tile.phys] }, rfl, rfl, rfl, ?_, hexec.trans ?_⟩
  · rw [hfld]
    exact List.mem_append_right _ (List.mem_singleton_self _)
  · rw [hfld]
    rfl

end Routers

end Sys2Proof.Machine
end

section
/-!
O47, continued: peer ports (R182, R183, R397, R398).
-/

namespace Sys2Proof.Machine

open Sys2Proof.Claims

section Ports

variable {s : State} {n : Nat} {p : Packet}

/- A port reads back what is written of it. -/

theorem find?_putPeer (q : PeerPort) (m : Nat) (l : List PeerPort) :
    (putPeer q l).find? (·.num = m) = if q.num = m then some q else l.find? (·.num = m) := by
  induction l with
  | nil => simp only [putPeer, List.find?_singleton, decide_eq_true_eq, List.find?_nil]
  | cons r l ih =>
    by_cases hr : r.num = q.num
    · rw [putPeer, if_pos hr, List.find?_cons, List.find?_cons, hr]
      by_cases hq : q.num = m
      · simp [hq]
      · simp [hq]
    · rw [putPeer, if_neg hr, List.find?_cons, List.find?_cons, ih]
      by_cases hm : r.num = m
      · simp [hm, show ¬ q.num = m from fun hq => hr (hm.trans hq.symm)]
      · simp [hm]

theorem State.peer_num (s : State) (n : Nat) : (s.peer n).num = n := by
  unfold State.peer
  cases h : s.wafer.peers.find? (·.num = n) with
  | none => rfl
  | some q => simpa using List.find?_some h

theorem State.peer_updPeer (m : Nat) {f : PeerPort → PeerPort} (hf : (f (s.peer n)).num = n) :
    (s.updPeer n f).peer m = if n = m then f (s.peer n) else s.peer m := by
  change ((putPeer (f (s.peer n)) s.wafer.peers).find? _).getD _ = _
  rw [find?_putPeer, hf]
  split
  · rfl
  · rfl

theorem State.peer_updPeer_self {f : PeerPort → PeerPort} (hf : (f (s.peer n)).num = n) : (s.updPeer n f).peer n = f (s.peer n) :=
  (State.peer_updPeer n hf).trans (if_pos rfl)

theorem State.peer_congr {t : State} (h : t.wafer = s.wafer) : t.peer = s.peer := by
  unfold State.peer
  rw [h]

/- Frames that are received. -/

/-- The steps of a port, by what is asked of it (R182, R183). -/
theorem exec_peerFrame (hn : n = s.inp.n) (hport : n < 144) :
    (s.inp.k = 0 → exec .peerFrame s = .next (
      if !(s.peer n).up then s
      else if !frameGood s.inp.bytes then s.updPeer n fun q => { q with bad := true }
      else if BitVec.ofNat 16 (field s.inp.bytes 64 2) ≠ (s.peer n).expect then s
      else s.acceptFrame n s.inp.bytes s.inp.pkt s.inp.word s.inp.j (if s.inp.ok then some (s.inp.m % 144) else none))) ∧
    (s.inp.k = 1 → exec .peerFrame s = .next (if (s.peer n).up then s.sendFrame n else s.handOver n)) ∧
    (s.inp.k = 2 → exec .peerFrame s = .next (
      if (s.peer n).up && !(s.peer n).buf.isEmpty then s.updPeer n fun q => { q with replays := q.replays + 1 } else s)) ∧
    (s.inp.k = 3 → exec .peerFrame s = .next (s.updPeer n fun q => { q with replays := 0, buf := ackFrames (BitVec.ofNat 16 s.inp.m) q.buf })) ∧
    (s.inp.k = 4 → exec .peerFrame s = .next (s.resolveAt n (s.inp.m % 4))) := by
  subst hn
  refine ⟨fun hk => ?_, fun hk => ?_, fun hk => ?_, fun hk => ?_, fun hk => ?_⟩
  all_goals
    change execPeerFrame s = _
    unfold execPeerFrame State.become
    dsimp only
    rw [if_neg (Nat.not_le.2 hport), hk]
    rfl

/-- A port that is up gets a frame that it does not drop. -/
theorem peerFrame_expected (hn : n = s.inp.n) (hport : n < 144) (hup : (s.peer n).up = true) (hk : s.inp.k = 0) (hgood : frameGood s.inp.bytes = true)
    (hseq : BitVec.ofNat 16 (field s.inp.bytes 64 2) = (s.peer n).expect) :
    exec .peerFrame s = .next (s.acceptFrame n s.inp.bytes s.inp.pkt s.inp.word s.inp.j (if s.inp.ok then some (s.inp.m % 144) else none)) := by
  rw [(exec_peerFrame hn hport).1 hk, hup, hgood, if_neg (by decide), if_neg (by decide), if_neg fun h => h hseq]

theorem peerFrame_drops (hn : n = s.inp.n) (hport : n < 144) (hup : (s.peer n).up = true) (hk : s.inp.k = 0) (hbad : frameGood s.inp.bytes = false) :
    ∃ t, exec .peerFrame s = .next t ∧ t.peer n = { s.peer n with bad := true } ∧ t.net = s.net := by
  refine ⟨s.updPeer n fun q => { q with bad := true }, ?_, State.peer_updPeer_self (s.peer_num n), rfl⟩
  rw [(exec_peerFrame hn hport).1 hk, hup, hbad]
  rfl

theorem peerFrame_inside (hn : n = s.inp.n) (hport : n < 144) (hup : (s.peer n).up = true) (hk : s.inp.k = 0) (hgood : frameGood s.inp.bytes = true)
    (hseq : BitVec.ofNat 16 (field s.inp.bytes 64 2) = (s.peer n).expect) (hpkt : s.inp.pkt = none) :
    ∃ t, exec .peerFrame s = .next t ∧ t.net = s.net ∧ t.peer n = { s.peer n with
      expect := (s.peer n).expect + 1, bad := false, used := takeCredits (s.peer n).used (creditsOf (field s.inp.bytes 66 2)) } := by
  refine ⟨_, (peerFrame_expected hn hport hup hk hgood hseq).trans (by rw [hpkt]), ?_⟩
  exact ⟨rfl, State.peer_updPeer_self (s.peer_num n)⟩

/-- The message that a frame ends waits at its port for its name to be resolved (R183). -/
theorem peerFrame_ends {c : Carrel} {r : Packet} (hn : n = s.inp.n) (hport : n < 144) (hup : (s.peer n).up = true) (hk : s.inp.k = 0)
    (hgood : frameGood s.inp.bytes = true) (hseq : BitVec.ofNat 16 (field s.inp.bytes 64 2) = (s.peer n).expect) (hpkt : s.inp.pkt = some p)
    (hok : s.inp.ok = false) (honly : Only s c) (hkey : c.key = s.inp.word) (hlet : c.letIn s.inp.j p = some r) :
    ∃ t, exec .peerFrame s = .next t ∧ (t.peer n).expect = (s.peer n).expect + 1 ∧ (t.peer n).waiting = (s.peer n).waiting ++ [r] := by
  let u := s.updPeer n fun q => { q with
    expect := q.expect + 1, bad := false, used := takeCredits q.used (creditsOf (field s.inp.bytes 66 2)), owed := addCredit q.owed (p.lch (peerWay p)) }
  have hu : u.peer n = { s.peer n with
    expect := (s.peer n).expect + 1, bad := false, used := takeCredits (s.peer n).used (creditsOf (field s.inp.bytes 66 2)),
    owed := addCredit (s.peer n).owed (p.lch (peerWay p)) } := State.peer_updPeer_self (s.peer_num n)
  have hcarrel : (u.carrels.find? fun c => c.live && c.key == s.inp.word) = some c := by
    obtain ⟨hone, hlive⟩ := honly
    rw [show u.carrels = [c] from hone, List.find?_cons, hlive, hkey, Bool.true_and, beq_self_eq_true]
  have haccept : s.acceptFrame n s.inp.bytes (some p) s.inp.word s.inp.j none = u.updPeer n fun q => { q with waiting := q.waiting ++ [r] } := by
    change (match u.carrels.find? fun c => c.live && c.key == s.inp.word with
      | none => u
      | some c => match c.letIn s.inp.j p with
        | none => u
        | some p => u.updPeer n fun q => { q with waiting := q.waiting ++ [p] }) = _
    rw [hcarrel]
    dsimp only
    rw [hlet]
  refine ⟨_, (peerFrame_expected hn hport hup hk hgood hseq).trans (by rw [hpkt, hok, if_neg Bool.false_ne_true, haccept]), ?_⟩
  rw [State.peer_updPeer_self (u.peer_num n), hu]
  exact ⟨rfl, rfl⟩

/- Frames that are sent. -/

/-- A port that has nothing of its own to send takes the oldest message that has come to it (R182). -/
theorem State.sendFrame_oldest {c : Carrel} (hlate : (s.peer n).late = []) (hcur : (s.peer n).cur = none) (hrelay : (s.peer n).relay = [])
    (hold : s.oldestAt (peerAgent n) = some p) (hc : s.carrel p.hdr.carrel.toNat = some c) :
    (c.noWay p.hdr.dst = true → s.sendFrame n = s.turnBack n .noPath p) ∧
    (∀ f fs, c.noWay p.hdr.dst = false → (s.peer n).buf.length < 64 → (s.peer n).used.getD (p.lch (peerWay p)) 0 ≤ Config.peerCredits → framesOf p = f :: fs →
      ∃ x g, s.sendFrame n = (s.unsend p).updPeer n (fun _ => g) ∧ g.num = n ∧ g.sent = (s.peer n).sent + 1 ∧ g.buf = (s.peer n).buf ++ [x] ∧
        x.seq = (s.peer n).sent ∧ x.flits = f ∧ x.last = fs.isEmpty ∧ g.cur = if fs = [] then none else some (p, fs)) := by
  refine ⟨fun hway => ?_, fun f fs hway hbuf hused hframes => ?_⟩
  · unfold State.sendFrame
    dsimp only
    rw [hcur, hlate, hrelay, hold]
    dsimp only
    rw [hc]
    exact if_pos hway
  · have hfull : ¬ (decide (64 ≤ (s.peer n).buf.length) || decide (Config.peerCredits < (s.peer n).used.getD (p.lch (peerWay p)) 0)) = true := by
      rw [decide_eq_false (Nat.not_le.2 hbuf), decide_eq_false (Nat.not_lt.2 hused)]
      exact Bool.false_ne_true
    unfold State.sendFrame
    dsimp only
    rw [hcur, hlate, hrelay, hold]
    dsimp only
    rw [hc]
    dsimp only
    rw [if_neg (by rw [hway]; exact Bool.false_ne_true), if_neg hfull, hframes]
    exact ⟨_, _, rfl, s.peer_num n, rfl, rfl, rfl, rfl, rfl, rfl⟩

theorem peerFrame_sends {c : Carrel} {f : List (BitVec 128)} {fs : List (List (BitVec 128))} (hn : n = s.inp.n) (hport : n < 144) (hup : (s.peer n).up = true)
    (hk : s.inp.k = 1) (hlate : (s.peer n).late = []) (hcur : (s.peer n).cur = none) (hrelay : (s.peer n).relay = [])
    (hold : s.oldestAt (peerAgent n) = some p) (hc : s.carrel p.hdr.carrel.toNat = some c) (hway : c.noWay p.hdr.dst = false)
    (hbuf : (s.peer n).buf.length < 64) (hused : (s.peer n).used.getD (p.lch (peerWay p)) 0 ≤ Config.peerCredits) (hframes : framesOf p = f :: fs) :
    ∃ t x, exec .peerFrame s = .next t ∧ t.net = s.net.erase p ∧ (t.peer n).sent = (s.peer n).sent + 1 ∧ (t.peer n).buf = (s.peer n).buf ++ [x] ∧
      x.seq = (s.peer n).sent ∧ x.flits = f ∧ x.last = fs.isEmpty ∧ (t.peer n).cur = if fs = [] then none else some (p, fs) := by
  obtain ⟨x, g, hsend, hnum, hg⟩ := (State.sendFrame_oldest hlate hcur hrelay hold hc).2 f fs hway hbuf hused hframes
  refine ⟨s.sendFrame n, x, ((exec_peerFrame hn hport).2.1 hk).trans (congrArg Host.Outcome.next (if_pos hup)), ?_, ?_⟩
  · rw [hsend]
    rfl
  · rw [hsend, State.peer_updPeer_self hnum]
    exact hg

/-- A store that cannot go is answered to its issuer (R374, R398). -/
theorem State.turnBack_rst (how : AckKind) {a : Nat} {bs : List Byte} {k : Option (BitVec 4)} (hbody : p.body = .rst a bs k) (hsrc : p.hdr.src ≠ 0xFFFFFFFF)
    (horphan : p.orphan = false) : s.turnBack n how p = (s.unsend p).emitFrom (peerAgent n) (turned p how) := by
  unfold State.turnBack
  dsimp only
  rw [if_neg (not_or.2 ⟨hsrc, Bool.eq_false_iff.1 horphan⟩), hbody]
  rfl

theorem peerFrame_turnsBack {c : Carrel} {a : Nat} {bs : List Byte} {k : Option (BitVec 4)} (hn : n = s.inp.n) (hport : n < 144) (hup : (s.peer n).up = true)
    (hk : s.inp.k = 1) (hlate : (s.peer n).late = []) (hcur : (s.peer n).cur = none) (hrelay : (s.peer n).relay = [])
    (hold : s.oldestAt (peerAgent n) = some p) (hc : s.carrel p.hdr.carrel.toNat = some c) (hway : c.noWay p.hdr.dst = true)
    (hbody : p.body = .rst a bs k) (hsrc : p.hdr.src ≠ 0xFFFFFFFF) (horphan : p.orphan = false) :
    exec .peerFrame s = .next ((s.unsend p).emitFrom (peerAgent n) (turned p .noPath)) := by
  rw [(exec_peerFrame hn hport).2.1 hk, if_pos hup, (State.sendFrame_oldest hlate hcur hrelay hold hc).1 hway, State.turnBack_rst .noPath hbody hsrc horphan]

theorem peerFrame_replays (hn : n = s.inp.n) (hport : n < 144) (hup : (s.peer n).up = true) (hk : s.inp.k = 2) (hbuf : (s.peer n).buf ≠ []) :
    ∃ t, exec .peerFrame s = .next t ∧ (t.peer n).replays = (s.peer n).replays + 1 := by
  refine ⟨s.updPeer n fun q => { q with replays := q.replays + 1 }, ?_, ?_⟩
  · rw [(exec_peerFrame hn hport).2.2.1 hk, if_pos]
    rw [hup, List.isEmpty_eq_false_iff.2 hbuf]
    rfl
  · rw [State.peer_updPeer_self (s.peer_num n)]

theorem peerFrame_acknowledged (hn : n = s.inp.n) (hport : n < 144) (hk : s.inp.k = 3) :
    ∃ t, exec .peerFrame s = .next t ∧ (t.peer n).replays = 0 ∧ (t.peer n).buf = ackFrames (BitVec.ofNat 16 s.inp.m) (s.peer n).buf := by
  refine ⟨_, (exec_peerFrame hn hport).2.2.2.1 hk, ?_⟩
  rw [State.peer_updPeer_self (s.peer_num n)]
  exact ⟨rfl, rfl⟩

/- Names of other wafers. -/

theorem peerFrame_resolves {ps : List Packet} {c : Carrel} {a : Nat} {bs : List Byte} {k : Option (BitVec 4)} (hn : n = s.inp.n) (hport : n < 144)
    (hk : s.inp.k = 4) (hwaiting : (s.peer n).waiting = p :: ps) (hc : s.carrel p.hdr.carrel.toNat = some c) (hbody : p.body = .rst a bs k)
    (hfree : (s.fieldAt (peerFieldOf n)).walkerFree (s.inp.m % 4) p.hdr.carrel = true) (hbehind : s.behindDead n p = false) :
    ∃ t, ∃ u : State, exec .peerFrame s = .next t ∧
      u.net = s.net ∧ u.carrels = s.carrels ∧ (u.peer n).waiting = ps ∧ (u.unmappedHere n c p = false → t = u.emitFrom (peerAgent n) p) ∧
      (u.unmappedHere n c p = true → p.hdr.src ≠ 0xFFFFFFFF → p.orphan = false → t = (u.unsend p).emitFrom (peerAgent n) (turned p .unmapped)) := by
  let v := s.updField (peerFieldOf n) fun fl => { fl with walked := putAt (s.inp.m % 4) fl.clk fl.walked }
  let u := v.updPeer n fun q => { q with waiting := ps }
  have htake : u.takeAbroad n c p = if u.unmappedHere n c p then u.turnBack n .unmapped p else u.emitFrom (peerAgent n) p := by
    unfold State.takeAbroad
    rw [hbody]
  have hresolve : s.resolveAt n (s.inp.m % 4) = u.takeAbroad n c p := by
    unfold State.resolveAt
    rw [hwaiting]
    dsimp only
    rw [hc]
    dsimp only
    rw [hfree, hbehind]
    rfl
  have hport' : u.peer n = { v.peer n with waiting := ps } := State.peer_updPeer_self (v.peer_num n)
  refine ⟨u.takeAbroad n c p, u, ((exec_peerFrame hn hport).2.2.2.2 hk).trans (congrArg Host.Outcome.next hresolve), rfl, rfl, ?_, fun hmapped => ?_,
    fun hunmapped hsrc horphan => ?_⟩
  · rw [hport']
  · rw [htake, hmapped]
    rfl
  · rw [htake, hunmapped, if_pos rfl, State.turnBack_rst .unmapped hbody hsrc horphan]

/- The loss of a port, and its return. -/

/-- A list of a carrel with one other port, which is live, is left to it (R397). -/
theorem State.replacePort_pair {m : Nat} (hm : m ≠ n) (hup : (s.peer m).up = true) : s.replacePort n [n, m] = [m, m] := by
  have hrange : List.range [n, m].length = [0, 1] := rfl
  have hlive : s.nextLive [n, m] 0 = some m := by
    unfold State.nextLive
    rw [hrange, List.map_cons, List.find?_cons, show [n, m].getD ((0 + 0 + 1) % [n, m].length) 0 = m from rfl, hup]
  unfold State.replacePort
  rw [hrange, List.map_cons, List.map_singleton, show [n, m].getD 0 0 = n from rfl, show [n, m].getD 1 0 = m from rfl, if_pos rfl, if_neg hm, hlive,
    Option.getD_some]

theorem State.loseRoutes_pair {c : Carrel} {w m : Nat} (path : List Nat) (hcs : s.carrels = [c]) (hpeers : c.peers = [(w, [n, m])]) (hm : m ≠ n)
    (hup : (s.peer m).up = true) : s.loseRoutes n path c = { s with carrels := [{ c with peers := [(w, [m, m])] }] } := by
  have hlive : ([m, m].any fun m => (s.peer m).up) = true := by
    rw [List.any_cons, hup, Bool.true_or]
  unfold State.loseRoutes
  rw [hpeers, List.foldl_cons, List.foldl_nil]
  dsimp only
  rw [if_neg (by simp), State.replacePort_pair hm hup, hlive, if_pos rfl, if_pos (List.cons_ne_nil _ _)]
  unfold State.updCarrel
  rw [hcs, List.map_singleton, if_pos rfl]
  dsimp only
  rw [hpeers, List.map_singleton, if_pos rfl, if_neg Bool.false_ne_true]

/-- What a dead port relays is left to the next port of the edge ring (R182, R397). -/
def State.relayed (s : State) (n : Nat) (ps : List Packet) : State :=
  match s.ringPort n with
  | none => s
  | some m => s.updPeer m fun r => { r with relay := r.relay ++ ps.map fun p => { p with dest := some (peerAgent m) } }

theorem State.relayed_carrels (s : State) (n : Nat) (ps : List Packet) : (s.relayed n ps).carrels = s.carrels := by
  unfold State.relayed
  split <;> rfl

/-- That port is live, so it is another. -/
theorem State.peer_relayed (ps : List Packet) (hdown : (s.peer n).up = false) : (s.relayed n ps).peer n = s.peer n := by
  unfold State.relayed
  split
  · rfl
  · next m hring =>
    have hup : (s.peer m).up = true := by simpa using List.find?_some hring
    have hne : m ≠ n := by
      rintro rfl
      exact Bool.false_ne_true (hdown.symm.trans hup)
    exact (State.peer_updPeer n (s.peer_num m)).trans (if_neg hne)

/-- A notice to the host leaves the peer ports of a carrel as they were. -/
theorem State.notifyAll_singleton {c : Carrel} (h : s.carrels = [c]) (code : Nat) (a i : Word) :
    ∃ d, (s.notifyAll code a i).carrels = [d] ∧ d.peers = c.peers := by
  unfold State.notifyAll
  dsimp only
  rw [h, List.map_singleton]
  exact ⟨_, rfl, rfl⟩

/-- A port that goes down, as its lists are changed. -/
def State.downed (s : State) (n : Nat) : State :=
  s.updPeer n fun q => { q with up := false, buf := [], cur := none, late := [], relay := [], waiting := q.waiting ++ s.deadMarkers }

theorem State.peer_downed (s : State) (n : Nat) : (s.downed n).peer n =
    { s.peer n with up := false, buf := [], cur := none, late := [], relay := [], waiting := (s.peer n).waiting ++ s.deadMarkers } :=
  State.peer_updPeer_self (s.peer_num n)

theorem State.peer_downed_of_ne {m : Nat} (h : m ≠ n) : (s.downed n).peer m = s.peer m :=
  (State.peer_updPeer m (s.peer_num n)).trans (if_neg (Ne.symm h))

theorem peerPortDown_leaves {c : Carrel} {w m : Nat} (hn : n = s.inp.n) (hport : n < 144) (hup : (s.peer n).up = true)
    (hend : 16 ≤ (s.peer n).replays ∨ s.inp.ok = true) (hcs : s.carrels = [c]) (hpeers : c.peers = [(w, [n, m])]) (hm : m ≠ n)
    (hmup : (s.peer m).up = true) (hlate : (s.peer n).late = []) (hcur : (s.peer n).cur = none) (hbuf : (s.peer n).buf = []) :
    ∃ t k, exec .peerPortDown s = .next t ∧ (t.peer n).up = false ∧ t.carrels = [k] ∧ k.peers = [(w, [m, m])] ∧
      (t.peer n).waiting = (s.peer n).waiting ++ s.deadMarkers := by
  subst hn
  have hgo : ¬ (144 ≤ s.inp.n ∨ (!(s.peer s.inp.n).up) = true ∨ (!decide (s.inp.ok = true ∨ 16 ≤ (s.peer s.inp.n).replays)) = true) := by
    rw [hup, decide_eq_true hend.symm]
    rintro (h | h | h)
    · omega
    · exact Bool.false_ne_true h
    · exact Bool.false_ne_true h
  let v := ((s.downed s.inp.n).stewardEvent (peerFieldOf s.inp.n) (0xE3 + 256 * s.inp.n) 0 (((s.peer s.inp.n).sent - 1).setWidth 32)).notifyAll 0x7D 0
    (BitVec.ofNat 32 s.inp.n)
  let lose : State → Carrel → State := fun u c => u.loseRoutes s.inp.n (u.inp.bytes.map fun b => b.toNat % 144) c
  obtain ⟨d, hd, hdpeers⟩ : ∃ d, v.carrels = [d] ∧ d.peers = c.peers :=
    State.notifyAll_singleton ((State.setTile_carrels (s.downed s.inp.n) _).trans hcs) ..
  rw [hpeers] at hdpeers
  have hv : v.peer = (s.downed s.inp.n).peer := State.peer_congr (State.setTile_wafer _)
  let u : State := { v with carrels := [{ d with peers := [(w, [m, m])] }] }
  have hlose : v.carrels.foldl lose v = u := by
    rw [hd]
    exact State.loseRoutes_pair _ hd hdpeers hm (by rw [hv, State.peer_downed_of_ne hm]; exact hmup)
  have hnone : ∀ k, (s.peer s.inp.n).unaccepted k ++ (s.peer s.inp.n).late = [] := fun k => by
    unfold PeerPort.unaccepted
    rw [hbuf, hcur, hlate]
    rfl
  have hu : u.peer s.inp.n = _ := (congrFun hv s.inp.n).trans (s.peer_downed s.inp.n)
  have hexec : exec .peerPortDown s = .next (u.relayed s.inp.n (s.peer s.inp.n).relay) := by
    change execPeerPortDown s = _
    unfold execPeerPortDown State.become
    dsimp only
    rw [if_neg hgo]
    change Host.Outcome.next (State.relayed (((s.peer s.inp.n).unaccepted (BitVec.ofNat 16 (v.carrels.foldl lose v).inp.m) ++ (s.peer s.inp.n).late).foldl
      (fun s' x => s'.moveFrame s.inp.n x) (v.carrels.foldl lose v)) s.inp.n (s.peer s.inp.n).relay) = _
    rw [hlose, hnone, List.foldl_nil]
  have ht : (u.relayed s.inp.n (s.peer s.inp.n).relay).peer s.inp.n = _ := (State.peer_relayed _ (by rw [hu])).trans hu
  refine ⟨_, _, hexec, ?_, State.relayed_carrels .., rfl, ?_⟩
  · rw [ht]
  · rw [ht]

theorem peerPortUp_returns (hn : n = s.inp.n) (hport : n < 144) (hdown : (s.peer n).up = false) :
    ∃ t, exec .peerPortUp s = .next t ∧ (t.peer n).up = true ∧ (t.peer n).replays = 0 := by
  subst hn
  let u := s.updPeer s.inp.n fun q => { q with up := true, bad := false, replays := 0, expect := 0, sent := 0, used := [0, 0, 0, 0], owed := [0, 0, 0, 0] }
  have hu : u.peer s.inp.n = { s.peer s.inp.n with up := true, bad := false, replays := 0, expect := 0, sent := 0, used := [0, 0, 0, 0], owed := [0, 0, 0, 0] } :=
    State.peer_updPeer_self (s.peer_num _)
  refine ⟨u.notifyAll 0x7D 0 (BitVec.ofNat 32 (s.inp.n + 256)), congrArg Host.Outcome.next (if_neg ?_), ?_⟩
  · rintro (h | h)
    · omega
    · rw [hdown] at h
      exact Bool.false_ne_true h
  · rw [show (u.notifyAll 0x7D 0 (BitVec.ofNat 32 (s.inp.n + 256))).peer = u.peer from rfl, hu]
    exact ⟨rfl, rfl⟩

theorem peerFrame_handsOver {c : Carrel} (hn : n = s.inp.n) (hport : n < 144) (hdown : (s.peer n).up = false) (hk : s.inp.k = 1)
    (hold : s.oldestAt (peerAgent n) = some p) (hc : s.carrel p.hdr.carrel.toNat = some c) (hway : c.noWay p.hdr.dst = false) :
    ∃ t, exec .peerFrame s = .next t ∧ t.net = (s.putPacket p { p with place := some (c.egress p.hdr.src p.hdr.dst, s.serial) }).net := by
  refine ⟨s.handOver n, ((exec_peerFrame hn hport).2.1 hk).trans (by rw [hdown, if_neg Bool.false_ne_true]), ?_⟩
  unfold State.handOver
  rw [hold]
  dsimp only
  rw [hc]
  dsimp only
  rw [if_neg (by rw [hway]; exact Bool.false_ne_true)]

end Ports

/-- Settles O47, clause by clause in the order of the statement. -/
theorem linksWork : Obligations.LinksWork := by
  intro s n q l p
  refine ⟨fun hcur hk => ⟨fun v w x => routerFlitArrival_injects hcur hk, fun x xs => routerFlitArrival_enters hcur hk⟩,
    fun x => routerFlitArrival_delivers, fun m w => State.flitEnds_arrives, fun t c xs => ⟨State.served_control, State.served_transit⟩,
    fun hn hq hl hdead => ?_, deadRouter_dies, fun hn hport hup => ?_, fun hn hport hdown => ?_⟩
  · subst hl
    exact ⟨linkGroup_sends hn hq hdead,
      fun i is g hk halive hwires hgroup => ⟨linkGroup_accepts hn hq hdead hk halive hwires hgroup, fun e => linkGroup_discards hn hq hdead hk halive hwires hgroup⟩,
      linkGroup_resends hn hq hdead, linkDead_kills hn hq hdead⟩
  · exact ⟨peerFrame_drops hn hport hup,
      fun hk hgood hseq => ⟨peerFrame_inside hn hport hup hk hgood hseq, fun c r => peerFrame_ends hn hport hup hk hgood hseq⟩,
      fun c f fs hk hlate hcur hrelay hold hc => ⟨peerFrame_sends hn hport hup hk hlate hcur hrelay hold hc,
        fun a bs k => peerFrame_turnsBack hn hport hup hk hlate hcur hrelay hold hc⟩,
      peerFrame_replays hn hport hup, peerFrame_acknowledged hn hport, fun ps c a bs k => peerFrame_resolves hn hport,
      fun c w m => peerPortDown_leaves hn hport hup⟩
  · exact ⟨peerPortUp_returns hn hport hdown, fun c => peerFrame_handsOver hn hport hdown⟩

end Sys2Proof.Machine
end

section
/-!
O52 fails: its clause on a withdrawal (kind 0x03 of R177) asks that the launch complete in whatever slot the home field is, where R148 has the home steward serve
a carrel in the carrel's own steward-service slots.
-/

namespace Sys2Proof.Machine

/-- The oldest payload of the one carrel's queue is its command of that kind (R177). -/
theorem State.command_singleton {s : State} {c : Carrel} {b : List Byte} {bs : List (List Byte)} {kind : Nat} (hc : s.carrels = [c])
    (hfwd : c.queue.fwd = b :: bs) (hkind : field b 0 1 = kind) : s.command c.num kind = some (c, b) := by
  unfold State.command
  rw [State.carrel_singleton hc]
  dsimp only
  rw [hfwd]
  exact if_pos hkind

/-- A withdrawal waits for a steward-service slot of its carrel (R148). -/
theorem withdrawLaunch_waits {s : State} {c : Carrel} {b : List Byte} (hb : s.command s.inp.n 3 = some (c, b)) (hs : s.inService c = false) :
    exec .withdrawLaunch s = .next s := by
  change execWithdrawLaunch s = _
  unfold execWithdrawLaunch State.become
  dsimp only
  rw [hb]
  exact congrArg Host.Outcome.next (if_pos (by rw [hs]; rfl))

/-- A launch of one member that the home steward holds under host tag 7. -/
def heldLaunch : Launch :=
  { stage := 0, pin := false, w := 1, h := 1, scope := 0, tag := 7, image := 0x2000, parcels := 32, arg := 0, pw := List.replicate 8 (0, 0, 0), reservedBits := false }

/-- The payload that withdraws it (R177). -/
def withdrawal : List Byte := [3, 0, 0, 0, 7] ++ List.replicate 235 0

/-- Carrel 1, which holds the launch; its queue has forwarded the withdrawal. -/
def withdrawing : Carrel := { num := 1, held := [heldLaunch], queue := { off := 0x100000, fwd := [withdrawal] } }

/-- The package in Run; the carrel owns steward-service slot 1 of its home field, which is in slot 0, a control slot. -/
def beforeService : State :=
  { State.reset with
    wafer.power := .run, flds := [{ fx := 0, fy := 0, slot := 0, almanac := [(48, 1, 0x8001)] }], carrels := [withdrawing], inp := { n := 1 } }

theorem withdrawal_form : field withdrawal 0 1 = 3 ∧ heldLaunch.tag = BitVec.ofNat 32 (field withdrawal 4 4) ∧
    zeros withdrawal 1 4 = true ∧ zeros withdrawal 8 240 = true := by
  decide +kernel

/-- Refutes O52 by its clause on withdrawals, which lacks the hypothesis that the carrel is in its steward-service slot: in another slot the withdrawal waits, and the
launch is held as before. -/
theorem not_hostWorks : ¬ Obligations.HostWorks := by
  intro h
  obtain ⟨-, -, -, -, -, payloads⟩ := h beforeService withdrawing 1 0 {} rfl rfl
  obtain ⟨-, -, withdraw, -⟩ := payloads withdrawal [] rfl rfl (by decide) rfl
  obtain ⟨hkind, htag, hword, hrest⟩ := withdrawal_form
  obtain ⟨t, k, ht, hk, hheld, -⟩ := withdraw heldLaunch hkind rfl htag hword hrest
  have hcommand : beforeService.command 1 3 = some (withdrawing, withdrawal) := State.command_singleton (c := withdrawing) rfl rfl hkind
  obtain rfl : beforeService = t := Host.Outcome.next.inj ((withdrawLaunch_waits hcommand (by decide)).symm.trans ht)
  obtain rfl : withdrawing = k := List.singleton_inj.1 hk
  exact absurd hheld (List.cons_ne_nil _ _)

end Sys2Proof.Machine
end

section
/-!
O58: the machine right after reset (R192, R193, R204, R205, R207).
-/

namespace Sys2Proof.Machine

theorem State.reset_registers (r : Reg) : State.reset.sr r = 0 ∧ State.reset.vr r = 0 ∧ State.reset.kr r = 0 := by
  revert r
  decide

/-- The special registers whose reset value R207 gives as 0. -/
theorem State.reset_ctl_zero :
    ∀ n ∈ [0x08, 0x09, 0x0A, 0x10, 0x11, 0x13, 0x14, 0x15, 0x20, 0x2F, 0x30, 0x33, 0x40, 0x41, 0x42, 0x43], State.reset.ctl n = 0 := by
  decide

/-- Settles O58: the registers are read one by one, and every list of the state is empty. -/
theorem resetState : Obligations.ResetState :=
  ⟨rfl, rfl, rfl, rfl, rfl, State.reset_registers, State.reset_ctl_zero, rfl, rfl, rfl, rfl, State.reset_memoriesCanonical⟩

end Sys2Proof.Machine
end

section
/-!
What the steps of the power-on sequence change (R193 to R197): the steward tiles, the fields' clocks and time, and of the edge nothing but the step.
-/

namespace Sys2Proof.Machine

section Sequence

variable (s : State)

/- What updates of tiles and fields leave of the edge and package. -/

@[simp] theorem State.updTile_wafer (q : Phys) (f : Tile → Tile) : (s.updTile q f).wafer = s.wafer := State.setTile_wafer _
@[simp] theorem State.updField_wafer (f : Nat × Nat) (h : Field → Field) : (s.updField f h).wafer = s.wafer := rfl

@[simp] theorem State.setOwner_wafer (p : Phys) (o : Owner) : (s.setOwner p o).wafer = s.wafer := by
  unfold State.setOwner
  dsimp only
  rw [State.foldl_keeps State.wafer fun _ _ => State.updTile_wafer .., State.updTile_wafer]

@[simp] theorem State.detourRound_wafer (p : Phys) : (s.detourRound p).wafer = s.wafer :=
  State.foldl_keeps State.wafer (fun _ _ => (State.updField_wafer ..).trans (State.updTile_wafer ..)) (around p) s

/- Step 3. -/

theorem State.pll_lockPlls (f : Nat × Nat) : (s.lockPlls.fieldAt f).pll = 1050 := by
  unfold State.fieldAt
  cases h : s.lockPlls.flds.find? fun g => g.fx == f.1 && g.fy == f.2 with
  | none => rfl
  | some g =>
    obtain ⟨k, -, rfl⟩ := List.mem_map.1 (List.mem_of_find?_eq_some h)
    rfl

/- Step 4. -/

theorem State.zeroTiles_empty {u : Tile} (h : u ∈ s.zeroTiles.tiles) : u.view.mem = [] ∧ u.view.ist = [] ∧ u.view.bad = [] ∧ u.view.badIst = [] := by
  rcases List.mem_cons.1 h with rfl | h
  · exact ⟨rfl, rfl, rfl, rfl⟩
  · obtain ⟨t, -, rfl⟩ := List.mem_map.1 h
    exact ⟨rfl, rfl, rfl, rfl⟩

/- Step 5. -/

/-- Both stewards of a field are started on an image (R197). -/
def State.startField (img : List Byte) (s : State) (f : Nat × Nat) : State :=
  (s.setTile (bootSteward (actingSteward f) img)).setTile (bootSteward (mirrorSteward f) img)

theorem State.startStewards_eq_foldl (img : List Byte) : s.startStewards img = allFields.foldl (State.startField img) s := rfl

theorem State.tileAt_startField (img : List Byte) (f : Nat × Nat) (q : Phys) :
    (s.startField img f).tileAt q = if q = actingSteward f ∨ q = mirrorSteward f then bootSteward q img else s.tileAt q := by
  unfold State.startField
  rw [State.tileAt_setTile, State.tileAt_setTile]
  change (if mirrorSteward f = q then _ else if actingSteward f = q then _ else _) = _
  by_cases hm : mirrorSteward f = q
  · rw [if_pos hm, if_pos (.inr hm.symm), hm]
  · by_cases ha : actingSteward f = q
    · rw [if_neg hm, if_pos ha, if_pos (.inl ha.symm), ha]
    · rw [if_neg hm, if_neg ha, if_neg (not_or.2 ⟨Ne.symm ha, Ne.symm hm⟩)]

/-- A tile that runs the image, or that is a steward of one of the fields, runs the image once they are started: no field's start undoes another's. -/
theorem State.tileAt_foldl_startField (img : List Byte) (l : List (Nat × Nat)) (q : Phys) {s : State}
    (h : s.tileAt q = bootSteward q img ∨ ∃ f ∈ l, q = actingSteward f ∨ q = mirrorSteward f) :
    (l.foldl (State.startField img) s).tileAt q = bootSteward q img := by
  induction l generalizing s with
  | nil => exact h.resolve_right (by simp)
  | cons g l ih =>
    refine ih ?_
    rw [State.tileAt_startField]
    by_cases hg : q = actingSteward g ∨ q = mirrorSteward g
    · exact .inl (if_pos hg)
    · rw [if_neg hg]
      refine h.imp_right ?_
      rintro ⟨f, hf, hq⟩
      rcases List.mem_cons.1 hf with rfl | hf
      · exact absurd hq hg
      · exact ⟨f, hf, hq⟩

theorem State.tileAt_startStewards (img : List Byte) {f : Nat × Nat} (hf : f ∈ allFields) :
    (s.startStewards img).tileAt (actingSteward f) = bootSteward (actingSteward f) img ∧
      (s.startStewards img).tileAt (mirrorSteward f) = bootSteward (mirrorSteward f) img := by
  rw [State.startStewards_eq_foldl]
  exact ⟨State.tileAt_foldl_startField img allFields _ (.inr ⟨f, hf, .inl rfl⟩), State.tileAt_foldl_startField img allFields _ (.inr ⟨f, hf, .inr rfl⟩)⟩

@[simp] theorem State.startStewards_wafer (img : List Byte) : (s.startStewards img).wafer = s.wafer := by
  rw [State.startStewards_eq_foldl, State.foldl_keeps State.wafer fun s f => ?_]
  rw [State.startField, State.setTile_wafer, State.setTile_wafer]

/- Step 6. -/

@[simp] theorem State.replaceFlawed_wafer (f : Nat × Nat) : (s.replaceFlawed f).wafer = s.wafer := by
  unfold State.replaceFlawed
  split
  · rfl
  · refine State.foldl_keeps State.wafer (fun s g => ?_) _ s
    split
    · rfl
    · split
      · rfl
      · exact State.updField_wafer ..

@[simp] theorem State.fuseTile_wafer (x : Phys × BitVec 2) : (s.fuseTile x).wafer = s.wafer := by
  unfold State.fuseTile
  split
  · rfl
  · dsimp only
    split
    · rw [State.setOwner_wafer, State.detourRound_wafer, State.updField_wafer, State.updTile_wafer]
    · rw [State.updField_wafer, State.updTile_wafer]

/-- What step 6 makes of the fields and tiles, before the time is set (R194). -/
def State.repaired : State := s.wafer.fuses.foldl State.fuseTile (allFields.foldl State.replaceFlawed s)

@[simp] theorem State.repaired_wafer : s.repaired.wafer = s.wafer := by
  unfold State.repaired
  rw [State.foldl_keeps State.wafer State.fuseTile_wafer, State.foldl_keeps State.wafer State.replaceFlawed_wafer]

/- Steps 6 and 7: the time of field (0, 0). -/

@[simp] theorem State.takeTime_wafer (ns : Nat) : (s.takeTime ns).wafer = s.wafer := rfl

theorem State.fieldAt_takeTime (ns : Nat) : ((s.takeTime ns).fieldAt (0, 0)).time = ns * 2 ^ 32 ∧ ((s.takeTime ns).fieldAt (0, 0)).skew = 0 := by
  have h : (s.takeTime ns).fieldAt (0, 0) = _ := State.fieldAt_updField_self _ (0, 0) fun _ => ⟨rfl, rfl⟩
  rw [h]
  exact ⟨rfl, rfl⟩

end Sequence

end Sys2Proof.Machine
end

section
/-!
O51, first part: the passages between the package's power states and the power-on sequence (R192 to R197).
-/

namespace Sys2Proof.Machine

section Power

variable {s : State}

/- Power states. -/

theorem vauxValid_next (h : s.wafer.power = .off) : exec .vauxValid s = .next { s with wafer.power := .aux } :=
  congrArg Host.Outcome.next (if_pos h)

theorem vauxLost_next (h : s.wafer.power = .aux) : exec .vauxLost s = .next { s with wafer.power := .off, wafer.step := 0, wafer.failed := false } :=
  congrArg Host.Outcome.next (if_pos h)

theorem pwrenAsserted_next (h : s.wafer.power = .aux) : exec .pwrenAsserted s = .next { s with
    wafer.power := .boot, wafer.step := 1, wafer.failed := false,
    wafer.strapped := if strapsOf s.inp.n = [] then s.wafer.strapped else strapsOf s.inp.n } :=
  congrArg Host.Outcome.next (if_pos h)

theorem powerOnStepLimit_next (h : s.wafer.power = .boot) : exec .powerOnStepLimit s = .next s.bootFails :=
  congrArg Host.Outcome.next (if_pos h)

/-- With no archive asked for, the rails drop at once. -/
theorem pwrenDeasserted_next (h : s.wafer.power = .run) (hok : s.inp.ok = false) :
    exec .pwrenDeasserted s = .next { s.dropRails with wafer.step := 0 } := by
  refine congrArg Host.Outcome.next ((if_neg (not_not.2 h)).trans (if_neg ?_))
  rw [hok, Bool.false_and]
  exact Bool.false_ne_true

theorem resetNAsserted_next (h : s.wafer.power = .run) : exec .resetNAsserted s = .next { s.dropRails with wafer.step := 0 } :=
  congrArg Host.Outcome.next (if_pos (.inl h))

/- The power-on sequence. -/

/-- The sequence goes on to its next step. -/
def State.stepDone (s : State) : State := { s with wafer.step := s.wafer.step + 1 }

/-- Step 5 notes the bank of the flash and its image. -/
def State.tookBank (s : State) (b : Nat) : State := { s with wafer.bank := b == 1, wafer.image := (Config.flash b).1 }

@[simp] theorem State.stepDone_step (s : State) : s.stepDone.wafer.step = s.wafer.step + 1 := rfl
@[simp] theorem State.stepDone_tileAt (s : State) : s.stepDone.tileAt = s.tileAt := rfl
@[simp] theorem State.tookBank_step (s : State) (b : Nat) : (s.tookBank b).wafer.step = s.wafer.step := rfl
@[simp] theorem State.tookBank_tileAt (s : State) (b : Nat) : (s.tookBank b).tileAt = s.tileAt := rfl

/-- Step 5 with a bank of the flash: the stewards start on its image (R197). -/
def State.bootFrom (s : State) (b : Nat) : State := (s.startStewards (Config.flash b).1).tookBank b

/-- The end of each step (R193 to R197). -/
theorem exec_powerOnStepEnd (hp : s.wafer.power = .boot) :
    (s.wafer.step < 3 → exec .powerOnStepEnd s = .next s.stepDone) ∧
    (s.wafer.step = 3 → exec .powerOnStepEnd s = .next s.lockPlls.stepDone) ∧
    (s.wafer.step = 4 → exec .powerOnStepEnd s = .next s.zeroTiles.stepDone) ∧
    (s.wafer.step = 5 → exec .powerOnStepEnd s = .next (
      if accepted 0 then (s.bootFrom 0).stepDone else if accepted 1 then (s.bootFrom 1).stepDone else s.bootFails)) ∧
    (s.wafer.step = 6 → exec .powerOnStepEnd s = .next (s.repaired.takeTime 0).stepDone) ∧
    (s.wafer.step = 7 → exec .powerOnStepEnd s = .next (if allFields.all fun f => (s.fieldAt f).skew != 0xFFFF then s.stepDone else s)) ∧
    (s.wafer.step = 8 → exec .powerOnStepEnd s = .next { s.trainLinks with wafer.power := .run, wafer.ready := true }) := by
  have hboot : ¬ s.wafer.power ≠ .boot := not_not.2 hp
  refine ⟨fun h => ?early, fun h => ?_, fun h => ?_, fun h => ?_, fun h => ?_, fun h => ?_, fun h => ?_⟩
  all_goals refine congrArg Host.Outcome.next ((if_neg hboot).trans ?_)
  case early =>
    obtain h | h | h : s.wafer.step = 0 ∨ s.wafer.step = 1 ∨ s.wafer.step = 2 := by omega
    all_goals
      rw [h]
      rfl
  all_goals
    rw [h]
    rfl

/-- Step 3: the PLLs lock (R193). -/
theorem powerOnStepEnd_locks (hp : s.wafer.power = .boot) (hs : s.wafer.step = 3) :
    ∃ t, exec .powerOnStepEnd s = .next t ∧ t.wafer.step = 4 ∧ t.tile = s.tile ∧ ∀ f, (t.fieldAt f).pll = 1050 := by
  obtain ⟨-, lock, -⟩ := exec_powerOnStepEnd hp
  exact ⟨_, lock hs, congrArg (· + 1) hs, rfl, s.pll_lockPlls⟩

/-- Step 4: the tiles' memories are zeroed (R193). -/
theorem powerOnStepEnd_zeroes (hp : s.wafer.power = .boot) (hs : s.wafer.step = 4) :
    ∃ t, exec .powerOnStepEnd s = .next t ∧ t.wafer.step = 5 ∧ ∀ u ∈ t.tiles, u.view.mem = [] ∧ u.view.ist = [] ∧ u.view.bad = [] ∧ u.view.badIst = [] := by
  obtain ⟨-, -, zero, -⟩ := exec_powerOnStepEnd hp
  exact ⟨_, zero hs, congrArg (· + 1) hs, fun u hu => s.zeroTiles_empty hu⟩

/-- The bank whose image step 5 takes is the first that is accepted (R197). -/
theorem powerOnStepEnd_takes {b : Nat} (hp : s.wafer.power = .boot) (hs : s.wafer.step = 5)
    (hb : b = 0 ∧ accepted 0 = true ∨ b = 1 ∧ accepted 0 = false ∧ accepted 1 = true) : exec .powerOnStepEnd s = .next (s.bootFrom b).stepDone := by
  obtain ⟨-, -, -, boot, -⟩ := exec_powerOnStepEnd hp
  rw [boot hs]
  rcases hb with ⟨rfl, h0⟩ | ⟨rfl, h0, h1⟩
  · rw [if_pos h0]
  · rw [if_neg (Bool.eq_false_iff.1 h0), if_pos h1]

/-- Step 5 with an image: every steward runs it from handler-table entry 15 (R197). -/
theorem powerOnStepEnd_starts {b : Nat} (hp : s.wafer.power = .boot) (hs : s.wafer.step = 5)
    (hb : b = 0 ∧ accepted 0 = true ∨ b = 1 ∧ accepted 0 = false ∧ accepted 1 = true) :
    ∃ t, exec .powerOnStepEnd s = .next t ∧ t.wafer.step = 6 ∧ t.wafer.bank = (b == 1) ∧ t.wafer.image = (Config.flash b).1 ∧
      ∀ f ∈ allFields, (t.tileAt (actingSteward f)).core.phase = .running ∧ (t.tileAt (mirrorSteward f)).core.phase = .running ∧
        (t.tileAt (actingSteward f)).core.normal = {} ∧ (t.tileAt (actingSteward f)).core.cur.pc = ((t.tileAt (actingSteward f)).handler 15).1 := by
  refine ⟨_, powerOnStepEnd_takes hp hs hb, ?_, rfl, rfl, fun f hf => ?_⟩
  · rw [State.stepDone_step, State.bootFrom, State.tookBank_step, State.startStewards_wafer, hs]
  · obtain ⟨hacting, hmirror⟩ := s.tileAt_startStewards (Config.flash b).1 hf
    rw [State.stepDone_tileAt, State.bootFrom, State.tookBank_tileAt, hacting, hmirror]
    exact ⟨rfl, rfl, rfl, rfl⟩

/-- Step 5 without an image that is accepted fails (R197). -/
theorem powerOnStepEnd_fails (hp : s.wafer.power = .boot) (hs : s.wafer.step = 5) (h0 : accepted 0 = false) (h1 : accepted 1 = false) :
    exec .powerOnStepEnd s = .next s.bootFails := by
  obtain ⟨-, -, -, boot, -⟩ := exec_powerOnStepEnd hp
  rw [boot hs, if_neg (Bool.eq_false_iff.1 h0), if_neg (Bool.eq_false_iff.1 h1)]

/-- Step 6 ends with field (0, 0) at time 0 (R196). -/
theorem powerOnStepEnd_repairs (hp : s.wafer.power = .boot) (hs : s.wafer.step = 6) :
    ∃ t, exec .powerOnStepEnd s = .next t ∧ t.wafer.step = 7 ∧ (t.fieldAt (0, 0)).time = 0 ∧ (t.fieldAt (0, 0)).skew = 0 := by
  obtain ⟨-, -, -, -, repair, -⟩ := exec_powerOnStepEnd hp
  refine ⟨_, repair hs, ?_, s.repaired.fieldAt_takeTime 0⟩
  change (s.repaired.takeTime 0).wafer.step + 1 = 7
  rw [State.takeTime_wafer, State.repaired_wafer, hs]

/-- Step 7 ends once every field is aligned (R196). -/
theorem powerOnStepEnd_aligned (hp : s.wafer.power = .boot) (hs : s.wafer.step = 7) (h : ∀ f ∈ allFields, (s.fieldAt f).skew ≠ 0xFFFF) :
    exec .powerOnStepEnd s = .next s.stepDone := by
  obtain ⟨-, -, -, -, -, align, -⟩ := exec_powerOnStepEnd hp
  rw [align hs, if_pos (List.all_eq_true.2 fun f hf => bne_iff_ne.2 (h f hf))]

/-- Step 8: the links train, and the package is in Run (R193). -/
theorem powerOnStepEnd_runs (hp : s.wafer.power = .boot) (hs : s.wafer.step = 8) :
    ∃ t, exec .powerOnStepEnd s = .next t ∧ t.wafer.power = .run ∧ t.wafer.ready = true ∧ t.wafer.ports.length = 48 := by
  obtain ⟨-, -, -, -, -, -, train⟩ := exec_powerOnStepEnd hp
  exact ⟨_, train hs, rfl, rfl, (List.length_map ..).trans List.length_range⟩

/-- The start time is written in step 7 (R196). -/
theorem startTimeWrite_next (hp : s.wafer.power = .boot) (hs : s.wafer.step = 7) :
    exec .startTimeWrite s = .next ({ s with wafer.startTime := BitVec.ofNat 64 s.inp.j }.takeTime (s.inp.j % 2 ^ 64)) :=
  congrArg Host.Outcome.next (if_pos ⟨hp, hs⟩)

end Power

end Sys2Proof.Machine
end

section
/-!
O51, second part: signed configuration, attestation, management registers and BOOTSTAT (R195, R198, R173, R348, R361).
-/

namespace Sys2Proof.Machine

section Management

variable {s : State}

/- Signed configuration. -/

/-- In Run a signed request acts by its kind (R348, R361). -/
theorem exec_signedConfiguration (hp : s.wafer.power = .run) (hok : s.inp.ok = true) :
    (s.inp.k = 0 → exec .signedConfiguration s = .next { s with wafer.policy := (s.inp.n, s.inp.j) }) ∧
    (s.inp.k = 1 → exec .signedConfiguration s = .next (s.updCarrel s.inp.n fun c => { c with lw := s.inp.word.toNat % 65536 })) := by
  have hsigned : ¬ ((!s.inp.ok) = true ∨ s.wafer.power ≠ .run) := by simp [hok, hp]
  refine ⟨fun hk => ?_, fun hk => ?_⟩
  all_goals
    refine congrArg Host.Outcome.next ((if_neg hsigned).trans ?_)
    rw [hk]
    rfl

/-- The wait limit of the one carrel is set (R361). -/
theorem signedConfiguration_limits {c : Carrel} (hp : s.wafer.power = .run) (hok : s.inp.ok = true) (hk : s.inp.k = 1) (hc : s.carrels = [c])
    (hn : c.num = s.inp.n) : exec .signedConfiguration s = .next { s with carrels := [{ c with lw := s.inp.word.toNat % 65536 }] } := by
  rw [(exec_signedConfiguration hp hok).2 hk, ← hn]
  exact congrArg (fun l => Host.Outcome.next { s with carrels := l }) (State.updCarrel_singleton hc _)

/- Attestation. -/

/-- With an image that runs, the report is the body with its signature (R198). -/
theorem attestationRequest_reports (hn : s.inp.bytes.length = 48) (hp : s.wafer.power = .run ∨ s.wafer.power = .boot ∧ 5 < s.wafer.step) {r : List Byte}
    (hr : r = s.inp.bytes ++ natBytes 2 Config.waferId.toNat ++ Config.sha384 s.wafer.image ++ Config.sha384 (fuseBytes s.wafer.fuses) ++
      [Config.svn, if s.wafer.bank then 1 else 0]) :
    exec .attestationRequest s = .next { s with wafer.reports := s.wafer.reports ++ [r ++ Config.attestSignature r] } := by
  subst hr
  exact congrArg Host.Outcome.next ((if_neg (not_not.2 hn)).trans (if_pos hp))

/-- Before an image runs, the request is refused (R198). -/
theorem attestationRequest_refuses (hn : s.inp.bytes.length = 48) (hp : s.wafer.power = .boot) (hs : s.wafer.step ≤ 5) :
    exec .attestationRequest s = .next { s with wafer.reports := s.wafer.reports ++ [[]] } := by
  have hearly : ¬ (s.wafer.power = .run ∨ s.wafer.power = .boot ∧ 5 < s.wafer.step) := by
    rintro (h | ⟨-, h⟩)
    · rw [hp] at h
      cases h
    · omega
  exact congrArg Host.Outcome.next ((if_neg (not_not.2 hn)).trans (if_neg hearly))

/- Management registers. -/

theorem find?_putWindow (p w : Nat) (x : LaunchWindow) (l : List (Nat × Nat × LaunchWindow)) :
    (putWindow p w x l).find? (fun y => y.1 == p && y.2.1 == w) = some (p, w, x) := by
  induction l with
  | nil => simp [putWindow]
  | cons y l ih =>
    unfold putWindow
    by_cases hy : y.1 = p ∧ y.2.1 = w
    · rw [if_pos hy]
      simp
    · rw [if_neg hy, List.find?_cons_of_neg (by simpa using hy)]
      exact ih

/-- A launch window is set. -/
def State.setWindow (s : State) (p w : Nat) (x : LaunchWindow) : State := { s with wafer.windows := putWindow p w x s.wafer.windows }

/-- A window reads back what is written of it. -/
theorem State.window_setWindow (s : State) (p w : Nat) (x : LaunchWindow) : (s.setWindow p w x).window p w = x := by
  change (((putWindow p w x s.wafer.windows).find? _).map _).getD _ = x
  rw [find?_putWindow]
  rfl

/-- The registers of a port that takes what the host sends it (R173, R185). -/
theorem exec_managementRegisterWrite (hport : s.hostPort s.inp.n = true) :
    (s.inp.m < 16 → s.inp.k = 0 → s.downstream.contains (farOwner (s.inp.j % 2 ^ 47 / 2 ^ 30 * 2 ^ 30)) = true →
      exec .managementRegisterWrite s =
        .next (s.setWindow s.inp.n s.inp.m { s.window s.inp.n s.inp.m with base := s.inp.j % 2 ^ 47 / 2 ^ 30 * 2 ^ 30 })) ∧
    (s.inp.m < 16 → s.inp.k = 1 → exec .managementRegisterWrite s =
        .next (s.setWindow s.inp.n s.inp.m { s.window s.inp.n s.inp.m with en := s.inp.ok })) ∧
    (s.inp.k = 2 → exec .managementRegisterWrite s = .next { s with wafer.parent := if s.inp.ok then none else some s.inp.m }) := by
  have hlisted (h : s.inp.m < 16 ∨ s.inp.k = 2) : ¬ ((!s.hostPort s.inp.n) = true ∨ 16 ≤ s.inp.m ∧ s.inp.k < 2) := by
    rw [hport]
    rintro (h' | h')
    · cases h'
    · omega
  refine ⟨fun hm hk ha => ?_, fun hm hk => ?_, fun hk => ?_⟩
  · refine congrArg Host.Outcome.next ((if_neg (hlisted (.inl hm))).trans ?_)
    rw [hk]
    exact if_pos ha
  · refine congrArg Host.Outcome.next ((if_neg (hlisted (.inl hm))).trans ?_)
    rw [hk]
    rfl
  · refine congrArg Host.Outcome.next ((if_neg (hlisted (.inr hk))).trans ?_)
    rw [hk]
    rfl

/- BOOTSTAT. -/

/-- What BOOTSTAT shows of a power state (R195). -/
def Power.shown : Power → Nat
  | .boot => 1
  | .run => 2
  | _ => 0

theorem Power.shown_lt (p : Power) : p.shown < 16 := by cases p <;> decide

theorem flagBit_eq (b : Nat) (x : Bool) : flagBit b x = 2 ^ b * x.toNat := by cases x <;> simp [flagBit]

/-- BOOTSTAT as a number (R195). -/
theorem State.bootstat_toNat (s : State) : s.bootstat.toNat = s.wafer.power.shown + 16 * (s.wafer.step % 16) + 256 * s.wafer.failed.toNat +
    512 * s.wafer.bank.toNat + 1024 * s.wafer.ready.toNat + 65536 * Config.svn.toNat := by
  have hshown : s.bootstat = BitVec.ofNat 32 (s.wafer.power.shown + at' 4 (s.wafer.step % 16) + flagBit 8 s.wafer.failed + flagBit 9 s.wafer.bank +
      flagBit 10 s.wafer.ready + at' 16 Config.svn.toNat) := by
    unfold State.bootstat Power.shown
    dsimp only
    cases s.wafer.power <;> rfl
  have hpower := s.wafer.power.shown_lt
  have hfailed := Bool.toNat_lt s.wafer.failed
  have hbank := Bool.toNat_lt s.wafer.bank
  have hready := Bool.toNat_lt s.wafer.ready
  have hsvn := Config.svn.isLt
  rw [hshown, BitVec.toNat_ofNat, flagBit_eq, flagBit_eq, flagBit_eq, at', at']
  omega

/-- The fields of BOOTSTAT (R195). -/
theorem State.bootstat_fields (s : State) : s.bootstat.toNat % 16 = s.wafer.power.shown ∧ s.bootstat.toNat / 16 % 16 = s.wafer.step % 16 ∧
    s.bootstat.toNat / 2 ^ 8 % 2 = s.wafer.failed.toNat ∧ s.bootstat.toNat / 2 ^ 9 % 2 = s.wafer.bank.toNat ∧
    s.bootstat.toNat / 2 ^ 10 % 2 = s.wafer.ready.toNat ∧ s.bootstat.toNat / 2048 % 32 = 0 ∧ s.bootstat.toNat / 65536 % 256 = Config.svn.toNat ∧
    s.bootstat.toNat / 2 ^ 24 = 0 := by
  have hpower := s.wafer.power.shown_lt
  have hfailed := Bool.toNat_lt s.wafer.failed
  have hbank := Bool.toNat_lt s.wafer.bank
  have hready := Bool.toNat_lt s.wafer.ready
  have hsvn := Config.svn.isLt
  rw [s.bootstat_toNat]
  omega

theorem Word.getLsbD_of_bit {w : Word} {i : Nat} {x : Bool} (h : w.toNat / 2 ^ i % 2 = x.toNat) : w.getLsbD i = x := by
  rw [BitVec.getLsbD, Nat.testBit_eq_decide_div_mod_eq, h]
  cases x <;> rfl

end Management

/-- Settles O51, clause by clause in the order of the statement. -/
theorem powerWorks : Obligations.PowerWorks := by
  intro s
  refine ⟨vauxValid_next, fun haux => ⟨⟨_, vauxLost_next haux, rfl⟩, pwrenAsserted_next haux⟩, fun hboot => ?_, fun hrun => ?_, fun hnonce => ?_,
    fun a ha hport => ?_, fun b hb => ?_⟩
  · obtain ⟨early, -⟩ := exec_powerOnStepEnd hboot
    exact ⟨early, powerOnStepEnd_locks hboot, powerOnStepEnd_zeroes hboot, fun b => powerOnStepEnd_starts hboot, powerOnStepEnd_fails hboot,
      powerOnStepEnd_repairs hboot,
      fun hs h => (powerOnStepEnd_aligned hboot hs h).trans (by rw [State.stepDone, hs]), powerOnStepEnd_runs hboot,
      ⟨_, powerOnStepLimit_next hboot, rfl, rfl, rfl, rfl⟩, fun hs => ⟨_, startTimeWrite_next hboot hs, rfl, State.fieldAt_takeTime _ _⟩⟩
  · exact ⟨fun hok => ⟨_, pwrenDeasserted_next hrun hok, rfl, rfl, rfl, rfl, rfl, rfl, rfl⟩, ⟨_, resetNAsserted_next hrun, rfl, rfl, rfl, rfl⟩,
      fun hok => (exec_signedConfiguration hrun hok).1, fun c hok => signedConfiguration_limits hrun hok⟩
  · exact ⟨fun r hp hr => attestationRequest_reports hnonce hp hr, attestationRequest_refuses hnonce⟩
  · subst ha
    obtain ⟨base, enable, parent⟩ := exec_managementRegisterWrite hport
    exact ⟨fun hm hk hown => ⟨_, base hm hk hown, State.window_setWindow ..⟩, fun hm hk => ⟨_, enable hm hk, State.window_setWindow ..⟩, parent⟩
  · subst hb
    obtain ⟨hpower, hstep, hfailed, hbank, hready, hzero, hsvn, hhigh⟩ := s.bootstat_fields
    exact ⟨fun h => by rw [hpower, h]; rfl, fun h => by rw [hpower, h]; rfl, hstep, Word.getLsbD_of_bit hfailed, Word.getLsbD_of_bit hbank,
      Word.getLsbD_of_bit hready, hzero, hsvn, hhigh⟩

end Sys2Proof.Machine
end

section
/-!
The fields of an instruction's bits (R200 to R203): what is joined from fixed bits and operands is read back in the operands' fields and
outside them, and a number is put together again from its fields.
-/

namespace Sys2Proof.Encoding

theorem toNat_fld (w lo n : Nat) : (fld w lo n).toNat = bits w lo n := BitVec.toNat_ofNat ..

theorem bits_zero_one (w : Nat) : bits w 0 1 = w % 2 := by rw [bits, Nat.pow_zero, Nat.div_one, Nat.pow_one]

/- One operand placed in a field of zeros. -/

theorem placed_div {n : Nat} (c lo : Nat) (x : BitVec n) : (c + placed x lo) / 2 ^ lo = c / 2 ^ lo + x.toNat :=
  Nat.add_mul_div_right _ _ (Nat.two_pow_pos lo)

theorem exists_div_of_bits_eq_zero {c lo n : Nat} (h : bits c lo n = 0) : ∃ q, c / 2 ^ lo = 2 ^ n * q := Nat.dvd_of_mod_eq_zero h

/-- A value placed in a field of zeros is read back there. -/
theorem fld_add_placed {c lo n : Nat} (x : BitVec n) (h : bits c lo n = 0) : fld (c + placed x lo) lo n = x := by
  obtain ⟨q, hq⟩ := exists_div_of_bits_eq_zero h
  apply BitVec.eq_of_toNat_eq
  rw [toNat_fld, bits, placed_div, hq, Nat.mul_add_mod, Nat.mod_eq_of_lt x.isLt]

/-- A value placed in a field of zeros leaves every field apart from it: below it stands a multiple of the lower field's end, and nothing is
carried out of it. -/
theorem bits_add_placed {c lo' m lo n : Nat} (x : BitVec m) (h : bits c lo' m = 0) (ha : lo + n ≤ lo' ∨ lo' + m ≤ lo) :
    bits (c + placed x lo') lo n = bits c lo n := by
  rcases ha with ha | ha
  · obtain ⟨j, rfl⟩ := Nat.exists_eq_add_of_le ha
    have hx : placed x (lo + n + j) = 2 ^ n * (2 ^ j * x.toNat) * 2 ^ lo := by rw [placed]; ring
    rw [bits, hx, Nat.add_mul_div_right _ _ (Nat.two_pow_pos lo), Nat.add_mul_mod_self_left, bits]
  · obtain ⟨j, rfl⟩ := Nat.exists_eq_add_of_le ha
    obtain ⟨q, hq⟩ := exists_div_of_bits_eq_zero h
    simp only [bits, Nat.pow_add, ← Nat.div_div_eq_div_mul, placed_div, hq, Nat.mul_add_div (Nat.two_pow_pos m),
      Nat.div_eq_of_lt x.isLt, Nat.mul_div_cancel_left _ (Nat.two_pow_pos m), Nat.add_zero]

theorem bits_bits {w lo n j : Nat} (h : j < n) : bits (bits w lo n) j 1 = bits w (lo + j) 1 := by
  obtain ⟨m, rfl⟩ := Nat.exists_eq_add_of_lt h
  simp only [bits, Nat.pow_add, ← Nat.div_div_eq_div_mul, Nat.mul_assoc, Nat.mod_mul_right_div_self, Nat.mod_mul_left_mod]

/- All the operands of an instruction. -/

/-- The operands' fields of an instruction's format: of each its lowest bit and its width. -/
abbrev Layout := List (Nat × Nat)

namespace Layout

/-- A value for each field. -/
def Values : Layout → Type
  | [] => Unit
  | (_, n) :: L => BitVec n × Values L

/-- The values at their places, as `joinBits` takes them. -/
def place : (L : Layout) → L.Values → List Nat
  | [], _ => []
  | (lo, _) :: L, xs => placed xs.1 lo :: place L xs.2

/-- Each field of `w` holds its value. -/
def Holds (w : Nat) : (L : Layout) → L.Values → Prop
  | [], _ => True
  | (lo, n) :: L, xs => fld w lo n = xs.1 ∧ Holds w L xs.2

/-- Bits [lo + n − 1 : lo] lie outside every field. -/
def outside (L : Layout) (lo n : Nat) : Bool := L.all fun s => decide (lo + n ≤ s.1 ∨ s.1 + s.2 ≤ lo)

/-- The fields are apart, and `c` is 0 in them. -/
def fits (c : Nat) : Layout → Bool
  | [] => true
  | s :: L => bits c s.1 s.2 == 0 && outside L s.1 s.2 && fits c L

/-- Where `c` stands outside the fields, a bit there tells that bits [lo + n − 1 : lo] are not `k`. -/
def differs (L : Layout) (c lo n k : Nat) : Bool :=
  (List.range n).any fun j => outside L (lo + j) 1 && bits c (lo + j) 1 != bits k j 1

theorem outside_cons (s : Nat × Nat) (L : Layout) (lo n : Nat) :
    outside (s :: L) lo n = true ↔ (lo + n ≤ s.1 ∨ s.1 + s.2 ≤ lo) ∧ outside L lo n = true := by
  simp [outside]

theorem fits_cons (c : Nat) (s : Nat × Nat) (L : Layout) :
    fits c (s :: L) = true ↔ bits c s.1 s.2 = 0 ∧ outside L s.1 s.2 = true ∧ fits c L = true := by
  simp [fits, and_assoc]

/-- Fixed bits with one operand beside them leave the fields that are apart from it zeros. -/
theorem fits_add_placed {c lo n : Nat} (x : BitVec n) (h : bits c lo n = 0) :
    ∀ {L : Layout}, outside L lo n = true → fits c L = true → fits (c + placed x lo) L = true
  | [], _, _ => rfl
  | s :: L, ho, hf => by
    rw [outside_cons] at ho
    rw [fits_cons] at hf ⊢
    exact ⟨(bits_add_placed x h (by omega)).trans hf.1, hf.2.1, fits_add_placed x h ho.2 hf.2.2⟩

theorem bits_joinBits {lo n : Nat} : ∀ {L : Layout} {c : Nat} (xs : L.Values), fits c L = true → outside L lo n = true →
    bits (joinBits c (L.place xs)) lo n = bits c lo n
  | [], _, _, _, _ => rfl
  | (lo', m) :: L, c, xs, hf, ho => by
    obtain ⟨hz, ha, hf⟩ := (fits_cons ..).1 hf
    obtain ⟨h, ho⟩ := (outside_cons ..).1 ho
    exact (bits_joinBits xs.2 (fits_add_placed xs.1 hz ha hf) ho).trans (bits_add_placed xs.1 hz h)

theorem holds_joinBits : ∀ {L : Layout} {c : Nat} (xs : L.Values), fits c L = true → L.Holds (joinBits c (L.place xs)) xs
  | [], _, _, _ => trivial
  | (lo, n) :: L, c, xs, hf => by
    obtain ⟨hz, ha, hf⟩ := (fits_cons ..).1 hf
    have hf := fits_add_placed xs.1 hz ha hf
    have h := bits_joinBits xs.2 hf ha
    rw [← toNat_fld, ← toNat_fld, fld_add_placed _ hz] at h
    exact ⟨BitVec.eq_of_toNat_eq h, holds_joinBits xs.2 hf⟩

end Layout

open Layout

/-- Outside the fields of a layout `w` holds the fixed bits `c`. -/
def Agrees (w c : Nat) (L : Layout) : Prop := ∀ lo n, outside L lo n = true → bits w lo n = bits c lo n

theorem Agrees.eq {w c : Nat} {L : Layout} (h : Agrees w c L) {lo n : Nat} (ho : outside L lo n = true) :
    bits w lo n = c / 2 ^ lo % 2 ^ n := h lo n ho

theorem Agrees.ne {w c : Nat} {L : Layout} (h : Agrees w c L) {lo n k : Nat} (hd : differs L c lo n k = true) : bits w lo n ≠ k := by
  rintro rfl
  obtain ⟨j, hj, hd⟩ := List.any_eq_true.1 hd
  simp only [Bool.and_eq_true, bne_iff_ne] at hd
  exact hd.2 (by rw [bits_bits (List.mem_range.1 hj), h _ _ hd.1])

/-- An instruction's bits hold its operands in the fields of its format, and the format's fixed bits outside them. -/
theorem reads_of_bits {i : Instr} {w c : Nat} (L : Layout) (xs : L.Values) (hw : i.bits = w) (hc : i.bits = joinBits c (L.place xs))
    (hf : fits c L = true) : Agrees w c L ∧ L.Holds w xs := by
  rw [← hw, hc]
  exact ⟨fun _ _ => bits_joinBits xs hf, holds_joinBits xs hf⟩

/- A number from its fields. -/

/-- The number in the `n` lowest bits. -/
def low (w n : Nat) : Nat := w % 2 ^ n

theorem low_zero (w : Nat) : low w 0 = 0 := Nat.mod_one w

theorem low_add (w lo n : Nat) : low w (lo + n) = low w lo + bits w lo n * 2 ^ lo := by
  rw [low, Nat.pow_add, Nat.mod_mul, Nat.mul_comm (2 ^ lo), low, bits]

theorem bits_eq_iff (w lo n k : Nat) : bits w lo n = k ↔ low w (lo + n) = low w lo + k * 2 ^ lo := by
  rw [low_add, Nat.add_left_cancel_iff, Nat.mul_left_inj (Nat.two_pow_pos lo).ne']

theorem joinBits_nil (c : Nat) : joinBits c [] = c := rfl

theorem joinBits_cons (c p : Nat) (ps : List Nat) : joinBits c (p :: ps) = p + joinBits c ps := by
  rw [joinBits, List.foldl_cons, Nat.add_comm c p, List.foldl_assoc, joinBits]

/-- A field of `w` put back at its place fills the gap between what `w` holds below the field's two ends. -/
theorem joinBits_fld_cons (w c lo n : Nat) (ps : List Nat) (x y : Nat) :
    joinBits c (placed (fld w lo n) lo :: ps) + x = y ↔ joinBits c ps + (low w (lo + n) + x) = low w lo + y := by
  rw [joinBits_cons, low_add, placed, toNat_fld]
  omega

end Sys2Proof.Encoding
end

section
/-!
The decoder's tables against the encoder's (R199 to R212, R289): an instruction's bits are found as that instruction, and what is found in
a number is an instruction with those bits.
-/

namespace Sys2Proof.Encoding

/-- Bit 0 of a 32-bit instruction is 1, and its bits are found as the instruction, with every operand. The cases are the formats: outside the
operands' fields the bits are the format's, which decides every test that the decoder makes, and in them the operands are read back. -/
theorem rawWord_bits {i : Instr} (hp : i.parcels = 2) : bits i.bits 0 1 = 1 ∧ rawWord i.bits = some i := by
  generalize hw : i.bits = w
  cases i with
  | add d a b | sub d a b | adds d a b | subs d a b | and d a b | or d a b | xor d a b | andn d a b | orn d a b
  | slt d a b | sltu d a b | min d a b | max d a b | minu d a b | maxu d a b | shl d a b | shr d a b | sra d a b
  | rot d a b | mul d a b | mulh d a b | mulhu d a b | div d a b | divu d a b | rem d a b | remu d a b | crcw d a b
  | shli d a b | shri d a b | srai d a b | roti d a b | ldbit d a b | stbit d a b | vext d a b | vins d a b
  | get d a b | getFar d a b | getLoc d a b | wmcfg d a b | tnew d a b | tdec d a b | spawn d a b | istore d a b
  | istoreM d a b | cntset d a b | barJoin d a b | combCfgRoot d a b | migr d a b | migrG d a b | shoot d a b
  | almset d a b | archive d a b =>
    obtain ⟨h, hd, ha, hb, -⟩ := reads_of_bits [(8, 5), (13, 5), (18, 5)] (d, a, b, ()) hw rfl rfl
    simp (disch := decide) [rawWord, rawMajor0, rawMajor1, rawMajor3, rawMajor4, rawMajor5, rawMajor6, rawMajor7, h.eq, h.ne, hd, ha, hb]
  | clz d a | ctz d a | popc d a | brev d a | vmov d a | vbcast d a | kset d a | kget d a | tarm d a | tfeed d a
  | strmCfg d a | recvSel d a | cntsetV d a | cntrd d a | barLine d a | cancel d a | folioRun d a | maprd d a
  | tileoff d a | eccrd d a =>
    obtain ⟨h, hd, ha, -⟩ := reads_of_bits [(8, 5), (13, 5)] (d, a, ()) hw rfl rfl
    simp (disch := decide) [rawWord, rawMajor0, rawMajor4, rawMajor5, rawMajor6, rawMajor7, h.eq, h.ne, hd, ha]
  | fshl d a b c | fshr d a b c =>
    obtain ⟨h, hd, ha, hb, hc, -⟩ := reads_of_bits [(8, 5), (13, 5), (18, 5), (23, 5)] (d, a, b, c, ()) hw rfl rfl
    simp (disch := decide) [rawWord, rawMajor0, h.eq, hd, ha, hb, hc]
  | addi d a i | andi d a i | ori d a i | xori d a i | slti d a i | sltiu d a i | jalr d a i | ldb d a i | ldbu d a i
  | ldh d a i | ldhu d a i | ldw d a i | ldd d a i | stb d a i | sth d a i | stw d a i | std d a i | vld d a i
  | vst d a i | vldt d a i =>
    obtain ⟨h, hd, ha, hi, -⟩ := reads_of_bits [(8, 5), (13, 5), (18, 14)] (d, a, i, ()) hw rfl rfl
    simp (disch := decide) [rawWord, rawMajor1, rawMajor2, rawMajor3, h.eq, hd, ha, hi]
  | li d i | lui d i | jal d i =>
    obtain ⟨h, hd, hi, -⟩ := reads_of_bits [(8, 5), (13, 19)] (d, i, ()) hw rfl rfl
    simp (disch := decide) [rawWord, rawMajor1, rawMajor2, h.eq, hd, hi]
  | bfx d a n p | bfi d a n p =>
    obtain ⟨h, hd, ha, hn, hp, -⟩ := reads_of_bits [(8, 5), (13, 5), (23, 5), (18, 5)] (d, a, n, p, ()) hw rfl rfl
    simp (disch := decide) [rawWord, rawMajor1, h.eq, hd, ha, hn, hp]
  | lut3 d a b t | vlut3 d a b t =>
    obtain ⟨h, hd, ha, hb, ht, -⟩ := reads_of_bits [(8, 5), (13, 5), (18, 5), (23, 8)] (d, a, b, t, ()) hw rfl rfl
    simp (disch := decide) [rawWord, rawMajor1, rawMajor4, h.eq, hd, ha, hb, ht]
  | beq o t x | bne o t x | blt o t x | bge o t x | bltu o t x | bgeu o t x =>
    obtain ⟨h, ho, ht, hx, -⟩ := reads_of_bits [(18, 14), (13, 5), (8, 5)] (o, t, x, ()) hw rfl rfl
    simp (disch := decide) [rawWord, rawMajor2, h.eq, ho, ht, hx]
  | loop a l k =>
    obtain ⟨h, ha, hl, hk, -⟩ := reads_of_bits [(13, 5), (18, 14), (8, 1)] (a, l, k, ()) hw rfl rfl
    simp (disch := decide) [rawWord, rawMajor2, h.eq, ha, hl, hk]
  | loopi c l k =>
    obtain ⟨h, hc, hl, hk, -⟩ := reads_of_bits [(13, 12), (25, 7), (8, 1)] (c, l, k, ()) hw rfl rfl
    simp (disch := decide) [rawWord, rawMajor2, h.eq, hc, hl, hk]
  | nop | done | doneG | yield | cancelchk | mask | unmask | strmSync | sfence | fenceFar | scopeClose | eret =>
    exact hw ▸ ⟨rfl, rfl⟩
  | fence x | tcfg x =>
    obtain ⟨h, hx, -⟩ := reads_of_bits [(23, 2)] (x, ()) hw rfl rfl
    simp (disch := decide) [rawWord, rawMajor2, rawMajor5, h.eq, h.ne, hx]
  | mfc d n =>
    obtain ⟨h, hd, hn, -⟩ := reads_of_bits [(8, 5), (18, 7)] (d, n, ()) hw rfl rfl
    simp (disch := decide) [rawWord, rawMajor2, h.eq, hd, hn]
  | mtc a n =>
    obtain ⟨h, ha, hn, -⟩ := reads_of_bits [(13, 5), (18, 7)] (a, n, ()) hw rfl rfl
    simp (disch := decide) [rawWord, rawMajor2, h.eq, ha, hn]
  | trap c | sleep c =>
    obtain ⟨h, hc, -⟩ := reads_of_bits [(18, 14)] (c, ()) hw rfl rfl
    simp (disch := decide) [rawWord, rawMajor2, h.eq, hc]
  | ldp d a b n =>
    obtain ⟨h, hd, ha, hb, hn, -⟩ := reads_of_bits [(8, 5), (13, 5), (18, 5), (23, 3)] (d, a, b, n, ()) hw rfl rfl
    simp (disch := decide) [rawWord, rawMajor3, h.eq, hd, ha, hb, hn]
  | atom d a b o | atomD d a b o =>
    obtain ⟨h, hd, ha, hb, ho, -⟩ := reads_of_bits [(8, 5), (13, 5), (18, 5), (23, 4)] (d, a, b, o, ()) hw rfl rfl
    simp (disch := decide) [rawWord, rawMajor3, h.eq, h.ne, hd, ha, hb, ho]
  | alloc a k | recvM a k | combCfg a k =>
    obtain ⟨h, ha, hk, -⟩ := reads_of_bits [(13, 5), (18, 5)] (a, k, ()) hw rfl rfl
    simp (disch := decide) [rawWord, rawMajor3, rawMajor6, h.eq, h.ne, ha, hk]
  | free a | pin a | barJoinX a | barArrive a | barWait a | folioLoad a =>
    obtain ⟨h, ha, -⟩ := reads_of_bits [(13, 5)] (a, ()) hw rfl rfl
    simp (disch := decide) [rawWord, rawMajor3, rawMajor6, h.eq, ha]
  | vaddF d a b f r | vsubF d a b f r | vmulF d a b f r | vcmp d a b f r =>
    obtain ⟨h, hd, ha, hb, hf, hr, -⟩ := reads_of_bits [(8, 5), (13, 5), (18, 5), (30, 2), (28, 2)] (d, a, b, f, r, ()) hw rfl rfl
    simp (disch := decide) [rawWord, rawMajor4, h.eq, hd, ha, hb, hf, hr]
  | vfma d a b c f r =>
    obtain ⟨h, hd, ha, hb, hc, hf, hr, -⟩ := reads_of_bits [(8, 5), (13, 5), (18, 5), (23, 5), (30, 2), (28, 2)] (d, a, b, c, f, r, ()) hw rfl rfl
    simp (disch := decide) [rawWord, rawMajor4, h.eq, hd, ha, hb, hc, hf, hr]
  | vmin d a b f | vmax d a b f | vaddI d a b f | vsubI d a b f | vadds d a b f | vsubs d a b f | vmulI d a b f
  | vmulh d a b f | vmulhu d a b f | vshl d a b f | vshr d a b f | vsra d a b f | vrot d a b f | vamax d a b f =>
    obtain ⟨h, hd, ha, hb, hf, -⟩ := reads_of_bits [(8, 5), (13, 5), (18, 5), (30, 2)] (d, a, b, f, ()) hw rfl rfl
    simp (disch := decide) [rawWord, rawMajor4, h.eq, hd, ha, hb, hf]
  | vabs d a f | vneg d a f =>
    obtain ⟨h, hd, ha, hf, -⟩ := reads_of_bits [(8, 5), (13, 5), (30, 2)] (d, a, f, ()) hw rfl rfl
    simp (disch := decide) [rawWord, rawMajor4, h.eq, hd, ha, hf]
  | vsel d a b c n | vshuf d a b c n =>
    obtain ⟨h, hd, ha, hb, hc, hn, -⟩ := reads_of_bits [(8, 5), (13, 5), (18, 5), (23, 5), (30, 2)] (d, a, b, c, n, ()) hw rfl rfl
    simp (disch := decide) [rawWord, rawMajor4, h.eq, hd, ha, hb, hc, hn]
  | vred d a k r | rqacc d a k r =>
    obtain ⟨h, hd, ha, hk, hr, -⟩ := reads_of_bits [(8, 5), (13, 5), (30, 2), (28, 2)] (d, a, k, r, ()) hw rfl rfl
    simp (disch := decide) [rawWord, rawMajor4, h.eq, hd, ha, hk, hr]
  | tzero d | strmStop d | recv d | trigClr d | scopeOpen d =>
    obtain ⟨h, hd, -⟩ := reads_of_bits [(8, 5)] (d, ()) hw rfl rfl
    simp (disch := decide) [rawWord, rawMajor5, rawMajor6, h.eq, hd]
  | tdrain d a n =>
    obtain ⟨h, hd, ha, hn, -⟩ := reads_of_bits [(8, 5), (13, 5), (23, 2)] (d, a, n, ()) hw rfl rfl
    simp (disch := decide) [rawWord, rawMajor5, h.eq, hd, ha, hn]
  | strmBind d a b f | mapwrSlot d a b f | mapwrDetour d a b f | mapwrOwnership d a b f | mapwrDistbound d a b f =>
    obtain ⟨h, hd, ha, hb, hf, -⟩ := reads_of_bits [(8, 5), (13, 5), (18, 5), (27, 1)] (d, a, b, f, ()) hw rfl rfl
    simp (disch := decide) [rawWord, rawMajor5, rawMajor7, h.eq, h.ne, hd, ha, hb, hf]
  | put d a b x r | putFar d a b x r | rst d a b x r | rstDw d a b x r | rstV d a b x r =>
    obtain ⟨h, hd, ha, hb, hx, hr, -⟩ := reads_of_bits [(8, 5), (13, 5), (18, 5), (28, 2), (27, 1)] (d, a, b, x, r, ()) hw rfl rfl
    simp (disch := decide) [rawWord, rawMajor5, rawMajor6, h.eq, hd, ha, hb, hx, hr]
  | send d a b c x r | sendm d a b c x r =>
    obtain ⟨h, hd, ha, hb, hc, hx, hr, -⟩ := reads_of_bits [(8, 5), (13, 5), (18, 5), (23, 4), (28, 2), (27, 1)] (d, a, b, c, x, r, ()) hw rfl rfl
    simp (disch := decide) [rawWord, rawMajor6, h.eq, hd, ha, hb, hc, hx, hr]
  | ratom d a b x r o | ratomD d a b x r o =>
    obtain ⟨h, hd, ha, hb, hx, hr, ho, -⟩ := reads_of_bits [(8, 5), (13, 5), (18, 5), (28, 2), (27, 1), (23, 4)] (d, a, b, x, r, o, ()) hw rfl rfl
    simp (disch := decide) [rawWord, rawMajor6, h.eq, hd, ha, hb, hx, hr, ho]
  | trigArm d a b n =>
    obtain ⟨h, hd, ha, hb, hn, -⟩ := reads_of_bits [(8, 5), (13, 5), (18, 5), (27, 4)] (d, a, b, n, ()) hw rfl rfl
    simp (disch := decide) [rawWord, rawMajor6, h.eq, hd, ha, hb, hn]
  | cvtRne d a b x f t =>
    obtain ⟨h, hd, ha, hb, hx, hf, ht, -⟩ := reads_of_bits [(8, 5), (13, 5), (18, 5), (31, 1), (27, 4), (23, 4)] (d, a, b, x, f, t, ()) hw rfl rfl
    simp (disch := decide) [rawWord, rawMajor7, h.eq, hd, ha, hb, hx, hf, ht]
  | cvtRtz d a b f t | cvtRdn d a b f t | cvtRup d a b f t =>
    obtain ⟨h, hd, ha, hb, hf, ht, -⟩ := reads_of_bits [(8, 5), (13, 5), (18, 5), (27, 4), (23, 4)] (d, a, b, f, t, ()) hw rfl rfl
    simp (disch := decide) [rawWord, rawMajor7, h.eq, hd, ha, hb, hf, ht]
  | cvts d a b f =>
    obtain ⟨h, hd, ha, hb, hf, -⟩ := reads_of_bits [(8, 5), (13, 5), (18, 5), (23, 1)] (d, a, b, f, ()) hw rfl rfl
    simp (disch := decide) [rawWord, rawMajor7, h.eq, hd, ha, hb, hf]
  | bkpack d a b x r k e | bkunpack d a b x r k e =>
    obtain ⟨h, hd, ha, hb, hx, hr, hk, he, -⟩ := reads_of_bits [(8, 5), (13, 5), (18, 5), (31, 1), (29, 2), (25, 2), (23, 2)] (d, a, b, x, r, k, e, ()) hw rfl rfl
    simp (disch := decide) [rawWord, rawMajor7, h.eq, hd, ha, hb, hx, hr, hk, he]
  | _ => cases hp

/-- So for a compact instruction, whose bit 0 is 0. -/
theorem rawCompact_bits {i : Instr} (hp : i.parcels = 1) : bits i.bits 0 1 = 0 ∧ rawCompact i.bits = some i := by
  generalize hw : i.bits = w
  cases i with
  | mov a b | addCompact a b | subCompact a b | andCompact a b | orCompact a b | xorCompact a b | addi5 a b
  | shliCompact a b | shriCompact a b | sraiCompact a b | li5 a b | beqz a b | bnez a b | ldwCompact a b
  | stwCompact a b =>
    obtain ⟨h, ha, hb, -⟩ := reads_of_bits [(6, 5), (11, 5)] (a, b, ()) hw rfl rfl
    simp (disch := decide) [rawCompact, h.eq, ha, hb]
  | jr a =>
    obtain ⟨h, ha, -⟩ := reads_of_bits [(6, 5)] (a, ()) hw rfl rfl
    simp (disch := decide) [rawCompact, h.eq, ha]
  | doneCompact | doneGCompact | nopCompact | cancelchkCompact =>
    exact hw ▸ ⟨rfl, rfl⟩
  | _ => cases hp

/-- What a table finds in `w` is an instruction of `n` parcels, and its bits are those of the `n` parcels of `w`. -/
def Sound (w n : Nat) (r : Option Instr) : Prop := ∀ i, r = some i → i.parcels = n ∧ i.bits = low w (16 * n)

theorem Sound.ite {w n : Nat} {p : Prop} [Decidable p] {a r : Option Instr} (ha : p → Sound w n a) (hr : Sound w n r) :
    Sound w n (if p then a else r) := by
  split
  · exact ha ‹p›
  · exact hr

theorem eq_low_of_joinBits {w n c : Nat} {ps : List Nat} {i : Instr} (hn : i.parcels = n) (hi : i.bits = joinBits c ps)
    (h : joinBits c ps + 0 = low w (16 * n)) : i.parcels = n ∧ i.bits = low w (16 * n) :=
  ⟨hn, hi.trans h⟩

/-- In each row of the tables the tests name the bits outside the operands' fields, so that tests and operands together are `w` again: what `w`
holds below the ends of its fields adds up from bit 0 to bit 32. -/
theorem rawWord_sound {w : Nat} (h0 : bits w 0 1 = 1) : Sound w 2 (rawWord w) := by
  unfold rawWord rawMajor0 rawMajor1 rawMajor2 rawMajor3 rawMajor4 rawMajor5 rawMajor6 rawMajor7
  split
  all_goals split
  all_goals repeat' refine Sound.ite (fun _ => ?_) ?_
  all_goals rintro _ ⟨⟩
  all_goals
    refine eq_low_of_joinBits rfl rfl ?_
    simp only [joinBits_fld_cons, bits_eq_iff, joinBits_nil, low_zero, Nat.reduceAdd, Nat.reduceMul, Nat.reducePow] at *
    omega

theorem rawCompact_sound {w : Nat} (h0 : bits w 0 1 = 0) : Sound w 1 (rawCompact w) := by
  unfold rawCompact
  split
  all_goals repeat' refine Sound.ite (fun _ => ?_) ?_
  all_goals rintro _ ⟨⟩
  all_goals
    refine eq_low_of_joinBits rfl rfl ?_
    simp only [joinBits_fld_cons, bits_eq_iff, joinBits_nil, low_zero, Nat.reduceAdd, Nat.reduceMul, Nat.reducePow] at *
    omega

end Sys2Proof.Encoding
end

section
/-!
Decoding and encoding agree (R199 to R203, R209 to R211, R350): the parcels of an instruction and the instruction of parcels.
-/

namespace Sys2Proof.Encoding

theorem parcels_le_two (i : Instr) : i.parcels ≤ 2 := by
  cases i <;> exact Nat.le_of_ble_eq_true rfl

/- What `decode` and `encode` give for one parcel and for two. -/

theorem bind_allocated_eq_some {r : Option Instr} {i : Instr} : r.bind allocated = some i ↔ r = some i ∧ i.wf = true := by
  simp only [Option.bind_eq_some_iff, allocated, Option.ite_none_right_eq_some, Option.some.injEq]
  constructor
  · rintro ⟨j, hr, hw, rfl⟩
    exact ⟨hr, hw⟩
  · rintro ⟨hr, hw⟩
    exact ⟨i, hr, hw, rfl⟩

theorem decodeBits_even {w : Nat} {i : Instr} (h : bits w 0 1 = 0) : decodeBits w = some i ↔ rawCompact w = some i ∧ i.wf = true := by
  rw [decodeBits, ← bits_zero_one, if_pos h, bind_allocated_eq_some]

theorem decodeBits_odd {w : Nat} {i : Instr} (h : bits w 0 1 = 1) : decodeBits w = some i ↔ rawWord w = some i ∧ i.wf = true := by
  rw [decodeBits, ← bits_zero_one, h, if_neg one_ne_zero, bind_allocated_eq_some]

theorem decode_cons_even {p : Parcel} (ps : List Parcel) (h : bits p.toNat 0 1 = 0) :
    decode (p :: ps) = (decodeBits p.toNat).map (·, ps) := by
  rw [bits_zero_one] at h
  cases ps <;> rw [decode, if_pos h]

theorem decode_cons_odd {p : Parcel} (q : Parcel) (ps : List Parcel) (h : bits p.toNat 0 1 = 1) :
    decode (p :: q :: ps) = (decodeBits (p.toNat + 65536 * q.toNat)).map (·, ps) := by
  rw [bits_zero_one] at h
  rw [decode, h, if_neg one_ne_zero]

theorem decode_singleton_odd {p : Parcel} (h : bits p.toNat 0 1 = 1) : decode [p] = none := by
  rw [bits_zero_one] at h
  rw [decode, h, if_neg one_ne_zero]

theorem encode_one {i : Instr} (h : i.parcels = 1) : encode i = [BitVec.ofNat 16 i.bits] := by simp only [encode, h]

theorem encode_two {i : Instr} (h : i.parcels = 2) : encode i = [BitVec.ofNat 16 i.bits, BitVec.ofNat 16 (i.bits / 65536)] := by
  simp only [encode, h]

/- Encoding, then decoding. -/

theorem decode_encode_compact {i : Instr} (hp : i.parcels = 1) (hw : i.wf = true) (ps : List Parcel) :
    decode (encode i ++ ps) = some (i, ps) := by
  obtain ⟨h0, h⟩ := rawCompact_bits hp
  obtain ⟨-, hb⟩ := rawCompact_sound h0 i h
  have hn : (BitVec.ofNat 16 i.bits).toNat = i.bits := hb.symm
  rw [encode_one hp, List.singleton_append, decode_cons_even ps (by rw [hn, h0]), hn, (decodeBits_even h0).2 ⟨h, hw⟩, Option.map_some]

theorem decode_encode_word {i : Instr} (hp : i.parcels = 2) (hw : i.wf = true) (ps : List Parcel) :
    decode (encode i ++ ps) = some (i, ps) := by
  obtain ⟨h0, h⟩ := rawWord_bits hp
  obtain ⟨-, hb⟩ := rawWord_sound h0 i h
  have hn : (BitVec.ofNat 16 i.bits).toNat + 65536 * (BitVec.ofNat 16 (i.bits / 65536)).toNat = i.bits := by
    rw [low] at hb
    rw [BitVec.toNat_ofNat, BitVec.toNat_ofNat]
    omega
  have hodd : bits (BitVec.ofNat 16 i.bits).toNat 0 1 = 1 := by
    rw [bits_zero_one] at h0 ⊢
    omega
  rw [encode_two hp, List.cons_append, List.singleton_append, decode_cons_odd _ ps hodd, hn, (decodeBits_odd h0).2 ⟨h, hw⟩,
    Option.map_some]

theorem decode_encode {i : Instr} (hp : i.parcels ≠ 0) (hw : i.wf = true) (ps : List Parcel) : decode (encode i ++ ps) = some (i, ps) := by
  have h2 := parcels_le_two i
  rcases (show i.parcels = 1 ∨ i.parcels = 2 by omega) with h | h
  · exact decode_encode_compact h hw ps
  · exact decode_encode_word h hw ps

/- Decoding, then encoding. -/

theorem encode_append_of_decode_even {p : Parcel} {ps qs : List Parcel} {i : Instr} (h0 : bits p.toNat 0 1 = 0)
    (h : decode (p :: ps) = some (i, qs)) : i.parcels = 1 ∧ i.wf = true ∧ encode i ++ qs = p :: ps := by
  rw [decode_cons_even ps h0, Option.map_eq_some_iff] at h
  obtain ⟨_, hd, ⟨⟩⟩ := h
  obtain ⟨hr, hw⟩ := (decodeBits_even h0).1 hd
  obtain ⟨hp, hb⟩ := rawCompact_sound h0 i hr
  rw [low, Nat.mod_eq_of_lt p.isLt] at hb
  rw [encode_one hp, hb, BitVec.ofNat_toNat, BitVec.setWidth_eq]
  exact ⟨hp, hw, rfl⟩

theorem encode_append_of_decode_odd {p q : Parcel} {ps qs : List Parcel} {i : Instr} (h0 : bits p.toNat 0 1 = 1)
    (h : decode (p :: q :: ps) = some (i, qs)) : i.parcels = 2 ∧ i.wf = true ∧ encode i ++ qs = p :: q :: ps := by
  rw [decode_cons_odd q ps h0, Option.map_eq_some_iff] at h
  obtain ⟨_, hd, ⟨⟩⟩ := h
  have h1 : bits (p.toNat + 65536 * q.toNat) 0 1 = 1 := by
    rw [bits_zero_one] at h0 ⊢
    omega
  obtain ⟨hr, hw⟩ := (decodeBits_odd h1).1 hd
  obtain ⟨hp, hb⟩ := rawWord_sound h1 i hr
  rw [low, Nat.mod_eq_of_lt (by omega)] at hb
  have hl : BitVec.ofNat 16 i.bits = p := BitVec.eq_of_toNat_eq (by rw [BitVec.toNat_ofNat]; omega)
  have hh : BitVec.ofNat 16 (i.bits / 65536) = q := BitVec.eq_of_toNat_eq (by rw [BitVec.toNat_ofNat]; omega)
  rw [encode_two hp, hl, hh]
  exact ⟨hp, hw, rfl⟩

theorem encode_append_of_decode {i : Instr} {ps qs : List Parcel} (h : decode ps = some (i, qs)) :
    i.parcels ≠ 0 ∧ i.wf = true ∧ encode i ++ qs = ps := by
  match ps with
  | [] => cases h
  | p :: ps =>
    rcases bits_zero_one p.toNat ▸ Nat.mod_two_eq_zero_or_one p.toNat with h0 | h0
    · obtain ⟨hp, he⟩ := encode_append_of_decode_even h0 h
      exact ⟨by omega, he⟩
    · match ps with
      | [] =>
        rw [decode_singleton_odd h0] at h
        cases h
      | q :: ps =>
        obtain ⟨hp, he⟩ := encode_append_of_decode_odd h0 h
        exact ⟨by omega, he⟩

/-- Settles O56: the tables of the decoder and the encoder agree row by row (`rawWord_bits`, `rawWord_sound`). -/
theorem decodeEncode : Obligations.DecodeEncode :=
  ⟨fun _ ps hp hw => decode_encode hp hw ps, fun _ _ _ h => encode_append_of_decode h⟩

/-- Settles O55: the decoder runs on each word. -/
theorem decodeWords : Obligations.DecodeWords := ⟨by decide, by decide⟩

end Sys2Proof.Encoding
end

section
/-!
A scalar register (R204), and a step of the tile in focus or of another agent (R199, R347; log entries 4, 6, 34).
-/

namespace Sys2Proof.Machine

open Sys2Proof.Claims

/-- Settles O10, by the rules of a register's write. -/
theorem scalarRegisters : Obligations.ScalarRegisters := fun s d r x =>
  ⟨s.sr_zero, s.setS_zero x, s.setS_sr_self d x, s.setS_sr_ne d r x, s.setS_vr d r x, s.setS_kr d r x⟩

/- The fetch. -/

/-- What the fetch corrects is in the lists of words with an error and of corrections, and the counters (R347). -/
theorem State.fetched_eq (s : State) : ∃ so ce ic ad fx, s.fetched =
    { s with tile.view := { s.tile.view with soft := so, ce := ce, ice := ic, ceAddr := ad, fixed := fx } } := by
  unfold State.fetched
  split
  · exact ⟨_, _, _, _, _, rfl⟩
  · obtain ⟨_, _, _, _, _, h⟩ := s.tile.view.correct_eq true (s.tile.core.cur.pc.toNat / 4)
    dsimp only
    split
    · obtain ⟨_, _, _, _, _, g⟩ := (s.tile.view.correct true (s.tile.core.cur.pc.toNat / 4)).correct_eq true ((s.tile.core.cur.pc.toNat + 1) / 4)
      rw [g, h]
      exact ⟨_, _, _, _, _, rfl⟩
    · rw [h]
      exact ⟨_, _, _, _, _, rfl⟩

theorem holds_fetched {s : State} {i : Instr} (h : Holds s i) : Holds s.fetched i := by
  obtain ⟨_, _, _, _, _, e⟩ := s.fetched_eq
  rw [e]
  exact h

/-- Parcels in the store that decode, in words whose check bits hold, are fetched as their instruction. -/
theorem fetch_of_holds {s : State} {i : Instr} (h : Holds s i) : s.fetch = .instr i := by
  obtain ⟨r, hd, hb, hr⟩ := h
  unfold State.pcNat at hd hr
  unfold State.fetch
  dsimp only
  rw [hb, if_neg (by omega), if_neg (by simp), if_neg (by simp), hd]

/- Which step comes next. -/

theorem turnHere_of_fetches {s : State} {i : Instr} (hf : Fetches s) (hh : Holds s i) (k : Nat → Nat) :
    s.turnHere k = .run i (s.fetched.tick (issueClk i) (k (issueClk i))) := by
  obtain ⟨hstill, halways, hdue, hpend, hexn, hgone, hacc, hsel, hissue⟩ := hf
  simp [State.turnHere, hstill, halways, hdue, hpend, hexn, hgone, hacc, hsel, hissue, fetch_of_holds (holds_fetched hh)]

theorem State.turn_nil {s : State} (h : s.sched = []) : s.turn = s.turnHere id := by
  rw [State.turn, h]

theorem State.turn_cons {s : State} {x : Sched} {xs : List Sched} (h : s.sched = x :: xs) : s.turn = ({ s with sched := xs }).take x := by
  rw [State.turn, h]

theorem step_of_run {s u : State} {i : Instr} (h : s.turn = .run i u) : step s = exec i u := by
  rw [step, h]

/- The clk of an instruction. -/

/-- Performing the oldest stores of the queue leaves what the core's loads see. -/
theorem Tile.perform_take_coreMem {t u : Tile} (k : Nat) (hs : u.view.stores = t.view.stores.drop k) (hm : u.view.mem = t.view.mem) :
    (u.perform (t.view.stores.take k)).view.coreMem = t.view.coreMem := by
  rw [Tile.perform_coreMem, hs, hm, ← List.foldl_append, List.take_append_drop]; rfl

/-- The clk of a tile change its view, in which a core load sees the same bytes, and its timers. -/
theorem Tile.clk_eq (t : Tile) (n k : Nat) (stand paused : Bool) :
    ∃ v m u c w r, t.clk n k stand paused =
      { t with view := v, core.mask := m, core.urgentClk := u, core.cur.kill := c, core.wait := w, task.rings := r } ∧
      v.coreMem = t.view.coreMem := by
  unfold Tile.clk
  dsimp only
  rw [Tile.perform_eq]
  split
  · exact ⟨_, _, _, _, _, _, rfl, Tile.perform_take_coreMem k rfl rfl⟩
  · exact ⟨_, _, _, _, _, _, rfl, Tile.perform_take_coreMem k rfl rfl⟩

theorem State.passShoots_eq (s : State) (n : Nat) (f : Phys → Bool) : ∃ x, s.passShoots n f = { s with wafer.shoots := x } := by
  unfold State.passShoots
  split
  · exact ⟨_, rfl⟩
  · exact ⟨_, rfl⟩

/-- The clk of an instruction change the tile in focus, the fields and the SHOOTs' clk. -/
theorem State.tick_eq (s : State) (n k : Nat) :
    ∃ fl x st p, s.tick n k = { s with tile := s.tile.clk n k st p, flds := fl, wafer.shoots := x } := by
  obtain ⟨x, h⟩ := s.passShoots_eq n fun p => p.field == s.tile.phys.field
  unfold State.tick
  rw [h]
  exact ⟨_, x, _, _, rfl⟩

/-- What the fetch and the clk of an instruction leave. -/
theorem tick_fetched_leaves (s : State) (n k : Nat) :
    let t := s.fetched.tick n k
    t.bank = s.bank ∧ t.tile.core.cur.pc = s.tile.core.cur.pc ∧ t.tile.core.cur.loops = s.tile.core.cur.loops ∧
      t.tile.core.cur.scope = s.tile.core.cur.scope ∧ t.net = s.net ∧ t.tile.core.tstat = s.tile.core.tstat ∧
      ∀ b, t.localByte b = s.localByte b := by
  obtain ⟨_, _, _, _, _, hf⟩ := s.fetched_eq
  obtain ⟨_, _, st, p, ht⟩ := s.fetched.tick_eq n k
  obtain ⟨v, _, _, _, _, _, hc, hv⟩ := s.fetched.tile.clk_eq n k st p
  rw [ht, hc]
  rw [hf] at hv ⊢
  exact ⟨rfl, rfl, rfl, rfl, rfl, rfl, fun b => congrArg (Memory.read · b) hv⟩

/-- Settles O57: nothing comes before the fetch, which finds the instruction, and its clk pass. -/
theorem stepRunsDecoded : Obligations.StepRunsDecoded := by
  intro s i
  refine ⟨fun hs hf hh => ?_, fun p k xs u hs hu hf hh => ?_, fun p x xs hs hi => ?_, tick_fetched_leaves s⟩
  · exact step_of_run ((State.turn_nil hs).trans (turnHere_of_fetches hf hh id))
  · subst hu
    exact step_of_run ((State.turn_cons hs).trans (turnHere_of_fetches hf hh fun _ => k))
  · exact step_of_run ((State.turn_cons hs).trans (if_pos (beq_iff_eq.2 hi)))

end Sys2Proof.Machine
end

section
/-!
The values of the scalar instructions as R224 to R235 state them by number and bit by bit.
-/

namespace Sys2Proof.Machine

open Sys2Proof.Claims

/- Sums, comparisons and constants (R224, R225, R235). -/

theorem addSat_eq (x y : Word) : addSat x y = BitVec.ofInt 32 (max (-2 ^ 31) (min (2 ^ 31 - 1) (x.toInt + y.toInt))) := by
  rw [addSat, clampInt_eq _ _ _ (by decide)]

theorem subSat_eq (x y : Word) : subSat x y = BitVec.ofInt 32 (max (-2 ^ 31) (min (2 ^ 31 - 1) (x.toInt - y.toInt))) := by
  rw [subSat, clampInt_eq _ _ _ (by decide)]

theorem boolWord_slt (x y : Word) : boolWord (x.slt y) = bool (decide (x.toInt < y.toInt)) := by
  rw [BitVec.slt_eq_decide]; rfl

theorem boolWord_ult (x y : Word) : boolWord (x.ult y) = bool (decide (x.toNat < y.toNat)) := by
  rw [BitVec.ult_eq_decide]; rfl

theorem boolWord_slt_signExtend (x : Word) {n : Nat} (i : BitVec n) (h : n ≤ 32) :
    boolWord (x.slt (i.signExtend 32)) = bool (decide (x.toInt < i.toInt)) := by
  rw [boolWord_slt, BitVec.toInt_signExtend_of_le h]

/-- The sum with an immediate is the sum with its sign extension. -/
theorem ofInt_add_immediate (x : Word) {n : Nat} (i : BitVec n) (h : n ≤ 32) : BitVec.ofInt 32 (x.toInt + i.toInt) = x + i.signExtend 32 := by
  rw [← ofInt_add, BitVec.toInt_signExtend_of_le h]

theorem append_zero_eq (i : BitVec 19) : i ++ 0#13 = BitVec.ofNat 32 (i.toNat * 2 ^ 13) := by
  apply BitVec.eq_of_toNat_eq
  have := i.isLt
  rw [BitVec.toNat_append, BitVec.toNat_ofNat, Nat.shiftLeft_eq]
  simp only [BitVec.toNat_ofNat, Nat.zero_mod, Nat.or_zero]
  omega

/- Shifts and rotations (R226, R227). -/

/-- A power of two past the width is a multiple of 2^32. -/
theorem two_pow_eq_of_le {n : Nat} (h : 32 ≤ n) : ∃ k, 2 ^ n = 2 ^ 32 * 2 ^ k :=
  ⟨n - 32, by rw [← Nat.pow_add, Nat.add_sub_cancel' h]⟩

theorem shlBy_eq (x : Word) (n : Nat) : shlBy x n = BitVec.ofNat 32 (x.toNat * 2 ^ n) := by
  apply BitVec.eq_of_toNat_eq
  unfold shlBy
  split
  · rw [BitVec.toNat_shiftLeft, Nat.shiftLeft_eq, BitVec.toNat_ofNat]
  · obtain ⟨k, hk⟩ := two_pow_eq_of_le (Nat.not_lt.1 ‹_›)
    rw [hk, Nat.mul_left_comm, BitVec.toNat_ofNat, Nat.mul_mod_right]; rfl

theorem shrBy_eq (x : Word) (n : Nat) : shrBy x n = BitVec.ofNat 32 (x.toNat / 2 ^ n) := by
  apply BitVec.eq_of_toNat_eq
  have hdiv : x.toNat / 2 ^ n < 2 ^ 32 := Nat.lt_of_le_of_lt (Nat.div_le_self _ _) x.isLt
  unfold shrBy
  rw [BitVec.toNat_ofNat, Nat.mod_eq_of_lt hdiv]
  split
  · rw [BitVec.toNat_ushiftRight, Nat.shiftRight_eq_div_pow]
  · exact (Nat.div_eq_of_lt (Nat.lt_of_lt_of_le x.isLt (Nat.pow_le_pow_right (by decide) (Nat.not_lt.1 ‹_›)))).symm

theorem sraBy_eq (x : Word) (n : Nat) : sraBy x n = BitVec.ofInt 32 (x.toInt / 2 ^ n) := by
  unfold sraBy
  split
  · rw [← BitVec.ofInt_toInt (x := x.sshiftRight n), BitVec.toInt_sshiftRight, Int.shiftRight_eq_div_pow, Int.natCast_pow]; rfl
  · have hpow : (2 ^ 32 : Int) ≤ 2 ^ n := pow_le_pow_right₀ (by decide) (Nat.not_lt.1 ‹_›)
    have hlt := x.toInt_lt
    have hle := x.le_toInt
    rw [BitVec.msb_eq_toInt]
    by_cases hneg : x.toInt < 0
    · rw [decide_eq_true hneg, if_pos rfl, Int.ediv_eq_neg_one_of_neg_of_le hneg (by omega)]; rfl
    · rw [decide_eq_false hneg, Int.ediv_eq_zero_of_lt (by omega) (by omega)]; rfl

theorem rotBy_eq (x : Word) (n : Nat) : rotBy x n = BitVec.ofNat 32 (x.toNat * 2 ^ (n % 32) + x.toNat / 2 ^ (32 - n % 32)) := by
  apply BitVec.eq_of_toNat_eq
  have hr : n % 32 < 32 := Nat.mod_lt _ (by decide)
  rw [rotBy, BitVec.toNat_rotateLeft, Nat.mod_mod, BitVec.toNat_ofNat, Nat.shiftLeft_eq, Nat.shiftRight_eq_div_pow]
  generalize n % 32 = r at hr
  have hpow : 2 ^ 32 = 2 ^ (32 - r) * 2 ^ r := by rw [← Nat.pow_add, Nat.sub_add_cancel (Nat.le_of_lt hr)]
  have hhigh : x.toNat / 2 ^ (32 - r) < 2 ^ r := Nat.div_lt_of_lt_mul (hpow ▸ x.isLt)
  have hlow : x.toNat * 2 ^ r % 2 ^ 32 = (x.toNat % 2 ^ (32 - r)) <<< r := by rw [hpow, Nat.mul_mod_mul_right, Nat.shiftLeft_eq]
  have hsum : (x.toNat % 2 ^ (32 - r)) <<< r + x.toNat / 2 ^ (32 - r) < 2 ^ 32 := by
    rw [Nat.shiftLeft_eq]
    calc
      _ < (x.toNat % 2 ^ (32 - r) + 1) * 2 ^ r := by rw [Nat.succ_mul]; omega
      _ ≤ 2 ^ (32 - r) * 2 ^ r := Nat.mul_le_mul_right _ (Nat.mod_lt _ (Nat.two_pow_pos _))
      _ = 2 ^ 32 := hpow.symm
  rw [hlow, ← Nat.shiftLeft_add_eq_or_of_lt hhigh, ← Nat.mod_add_mod, hlow, Nat.mod_eq_of_lt hsum]

/- Multiplies and divides (R230, R231). -/

theorem ofNat_mul (x y : Word) : BitVec.ofNat 32 (x.toNat * y.toNat) = x * y := by
  apply BitVec.eq_of_toNat_eq; rw [BitVec.toNat_ofNat, BitVec.toNat_mul]

theorem divS_eq (x y : Word) : divS x y = quotient x y := by
  unfold divS quotient
  split_ifs with h0 h1
  · rfl
  · obtain ⟨rfl, rfl⟩ := h1
    decide
  · rfl

theorem remS_eq (x y : Word) : remS x y = remainder x y := by
  unfold remS remainder
  split_ifs with h0 h1
  · rfl
  · obtain ⟨rfl, rfl⟩ := h1
    decide
  · rw [Int.tmod_def]

/- Funnel shifts and bit fields (R229, R232). -/

theorem toNat_append_words (x y : Word) : (x ++ y).toNat = x.toNat * 2 ^ 32 + y.toNat := by
  rw [BitVec.toNat_append, ← Nat.shiftLeft_add_eq_or_of_lt y.isLt, Nat.shiftLeft_eq]

theorem funnelL_eq (x y c : Word) : funnelL x y c = ((x ++ y) <<< (min c.toNat 32)).extractLsb' 32 32 := by
  apply BitVec.eq_of_toNat_eq
  rw [funnelL, BitVec.extractLsb'_toNat, BitVec.toNat_shiftLeft, toNat_append_words, BitVec.toNat_ofNat, Nat.shiftLeft_eq,
    Nat.shiftRight_eq_div_pow, show 2 ^ (32 + 32) = 2 ^ 32 * 2 ^ 32 by decide, Nat.mod_mul_right_div_self, Nat.mod_mod]

theorem funnelR_eq (x y c : Word) : funnelR x y c = ((x ++ y) >>> (min c.toNat 32)).setWidth 32 := by
  apply BitVec.eq_of_toNat_eq
  rw [funnelR, BitVec.toNat_setWidth, BitVec.toNat_ushiftRight, toNat_append_words, BitVec.toNat_ofNat, Nat.shiftRight_eq_div_pow]

theorem bfxWord_eq (x : Word) (w p : BitVec 5) : bfxWord x w p = (x >>> p.toNat) &&& BitVec.ofNat 32 (2 ^ (w.toNat + 1) - 1) := by
  apply BitVec.eq_of_toNat_eq
  have hle : 2 ^ (w.toNat + 1) ≤ 2 ^ 32 := Nat.pow_le_pow_right (by decide) (by omega)
  have hpos : 0 < 2 ^ (w.toNat + 1) := Nat.two_pow_pos _
  rw [bfxWord, BitVec.toNat_and, BitVec.toNat_ushiftRight, Nat.shiftRight_eq_div_pow, BitVec.toNat_ofNat, BitVec.toNat_ofNat,
    Nat.mod_eq_of_lt (show 2 ^ (w.toNat + 1) - 1 < 2 ^ 32 by omega), Nat.and_two_pow_sub_one_eq_mod]
  exact Nat.mod_eq_of_lt (Nat.lt_of_lt_of_le (Nat.mod_lt _ hpos) hle)

/- Bit counts, BREV and LUT3, bit by bit (R228, R233). -/

theorem getLsbD_brevWord (x : Word) {i : Nat} (h : i < 32) : (brevWord x).getLsbD i = x.getLsbD (31 - i) := by
  rw [brevWord, BitVec.getLsbD_reverse, BitVec.getMsbD_eq_getLsbD, decide_eq_true h, Bool.true_and]

theorem toNat_popcWord (x : Word) : (popcWord x).toNat = ((List.range 32).filter fun k => x.getLsbD k).length := by
  have hle := (List.range 32).length_filter_le fun k => x.getLsbD k
  rw [List.length_range] at hle
  rw [popcWord, BitVec.toNat_ofNat, Nat.mod_eq_of_lt (by omega)]

/-- The least number below 32 that a predicate picks, or 32. -/
def leading (p : Nat → Bool) : Word := BitVec.ofNat 32 ((List.range 32).takeWhile fun i => !p i).length

theorem toNat_leading (p : Nat → Bool) : (leading p).toNat = (List.range 32).findIdx p := by
  have hle := (List.range 32).findIdx_le_length (p := p)
  rw [List.length_range] at hle
  simp only [leading, List.takeWhile_eq_take_findIdx_not, Bool.not_not]
  rw [List.length_take, List.length_range, BitVec.toNat_ofNat, min_eq_left hle, Nat.mod_eq_of_lt (by omega)]

theorem of_lt_leading (p : Nat → Bool) {i : Nat} (h : i < (leading p).toNat) : p i = false := by
  rw [toNat_leading] at h
  simpa using List.not_of_lt_findIdx h

theorem of_leading (p : Nat → Bool) {k : Nat} (hk : k < 32) (hp : p k = true) : p (leading p).toNat = true := by
  have hlt := List.findIdx_lt_length_of_exists (xs := List.range 32) ⟨k, List.mem_range.2 hk, hp⟩
  rw [toNat_leading]
  simpa using List.findIdx_getElem (w := hlt)

theorem exists_getLsbD_of_ne_zero {x : Word} (h : x ≠ 0) : ∃ k < 32, x.getLsbD k = true := by
  by_contra hn
  refine h (BitVec.eq_of_getLsbD_eq fun i hi => ?_)
  simpa using fun hx => hn ⟨i, hi, hx⟩

theorem clzWord_eq (x : Word) : clzWord x = leading fun i => x.getLsbD (31 - i) := rfl

theorem ctzWord_eq (x : Word) : ctzWord x = leading fun i => x.getLsbD i := rfl

/-- One row of the table of LUT3, which its result bits take when the sources' bits are the row's. -/
def lut3Row {n : Nat} (k : Nat) (x y z : BitVec n) : BitVec n :=
  (if k / 4 % 2 = 1 then x else ~~~x) &&& (if k / 2 % 2 = 1 then y else ~~~y) &&& (if k % 2 = 1 then z else ~~~z)

theorem lut3Bits_eq {n : Nat} (t : BitVec 8) (x y z : BitVec n) :
    lut3Bits t x y z = (List.range 8).foldl (fun r k => if t.getLsbD k then r ||| lut3Row k x y z else r) 0#n := rfl

/-- A bit of some rows' union is set by the rows of the table that pick it. -/
theorem getLsbD_foldl_rows {n : Nat} (t : BitVec 8) (x y z : BitVec n) (i : Nat) (ks : List Nat) (r : BitVec n) :
    (ks.foldl (fun r k => if t.getLsbD k then r ||| lut3Row k x y z else r) r).getLsbD i =
      (r.getLsbD i || ks.any fun k => t.getLsbD k && (lut3Row k x y z).getLsbD i) := by
  induction ks generalizing r with
  | nil => rw [List.foldl_nil, List.any_nil, Bool.or_false]
  | cons k ks ih =>
    rw [List.foldl_cons, ih, List.any_cons, ← Bool.or_assoc]
    cases t.getLsbD k with
    | false => simp
    | true => simp

/-- The number of a row is made of the bits that pick it. -/
theorem lut3_row_number : ∀ k < 8, ∀ a b c : Bool, ((a ^^ decide (k / 4 % 2 ≠ 1)) && (b ^^ decide (k / 2 % 2 ≠ 1)) && (c ^^ decide (k % 2 ≠ 1))) =
    decide (k = 4 * a.toNat + 2 * b.toNat + c.toNat) := by decide

theorem getLsbD_lut3Row {n i : Nat} (h : i < n) {k : Nat} (hk : k < 8) (x y z : BitVec n) :
    (lut3Row k x y z).getLsbD i = decide (k = 4 * (x.getLsbD i).toNat + 2 * (y.getLsbD i).toNat + (z.getLsbD i).toNat) := by
  rw [← lut3_row_number k hk, lut3Row, BitVec.getLsbD_and, BitVec.getLsbD_and]
  split_ifs <;> simp [*]

theorem getLsbD_lut3Bits {n i : Nat} (h : i < n) (t : BitVec 8) (x y z : BitVec n) :
    (lut3Bits t x y z).getLsbD i = t.getLsbD (4 * (x.getLsbD i).toNat + 2 * (y.getLsbD i).toNat + (z.getLsbD i).toNat) := by
  rw [lut3Bits_eq, getLsbD_foldl_rows, BitVec.getLsbD_zero, Bool.false_or, Bool.eq_iff_iff, List.any_eq_true]
  constructor
  · rintro ⟨k, hk, hrow⟩
    rw [Bool.and_eq_true, getLsbD_lut3Row h (List.mem_range.1 hk), decide_eq_true_eq] at hrow
    obtain ⟨ht, rfl⟩ := hrow
    exact ht
  · intro ht
    have hk : 4 * (x.getLsbD i).toNat + 2 * (y.getLsbD i).toNat + (z.getLsbD i).toNat < 8 := by
      have := (x.getLsbD i).toNat_le; have := (y.getLsbD i).toNat_le; have := (z.getLsbD i).toNat_le
      omega
    exact ⟨_, List.mem_range.2 hk, by rw [ht, getLsbD_lut3Row h hk, decide_eq_true rfl]; rfl⟩

end Sys2Proof.Machine
end

section
/-!
The instructions that write one scalar register with a function of scalar registers (R224 to R235, R200).
-/

namespace Sys2Proof.Machine

open Sys2Proof.Claims

/-- An instruction is of the ALU form (R223): it writes its register with a value of its sources, which at `s` is the one that its table names. -/
def AluAs (s : State) (i : Instr) (d : Reg) (rs : List Reg) (x : Word) : Prop :=
  ∃ f, exec i s = s.alu i rs d f ∧ f s = x

/-- The forms OP d, a, b and OP d, a. -/
theorem alu2_row {s : State} {i : Instr} {d a b : Reg} {x : Word} {f : Word → Word → Word} (hexec : exec i s = s.alu2 i d a b f)
    (hvalue : f (s.sr a) (s.sr b) = x) : AluAs s i d [a, b] x :=
  ⟨_, hexec, hvalue⟩

theorem alu1_row {s : State} {i : Instr} {d a : Reg} {x : Word} {f : Word → Word} (hexec : exec i s = s.alu1 i d a f)
    (hvalue : f (s.sr a) = x) : AluAs s i d [a] x :=
  ⟨_, hexec, hvalue⟩

theorem aluAs_of_arithmetic {s : State} {i : Instr} {d : Reg} {rs : List Reg} {x : Word} (h : arithmetic s i = some (d, rs, x)) : AluAs s i d rs x := by
  unfold arithmetic at h
  split at h <;> cases h
  · exact alu2_row (show execAdd _ _ _ s = _ from rfl) (ofNat_add _ _).symm
  · exact alu2_row (show execSub _ _ _ s = _ from rfl) (ofInt_sub _ _).symm
  · exact alu2_row (show execAdds _ _ _ s = _ from rfl) (addSat_eq _ _)
  · exact alu2_row (show execSubs _ _ _ s = _ from rfl) (subSat_eq _ _)
  · exact alu2_row (show execAnd _ _ _ s = _ from rfl) rfl
  · exact alu2_row (show execOr _ _ _ s = _ from rfl) rfl
  · exact alu2_row (show execXor _ _ _ s = _ from rfl) rfl
  · exact alu2_row (show execAndn _ _ _ s = _ from rfl) rfl
  · exact alu2_row (show execOrn _ _ _ s = _ from rfl) rfl
  · exact alu2_row (show execSlt _ _ _ s = _ from rfl) (boolWord_slt _ _)
  · exact alu2_row (show execSltu _ _ _ s = _ from rfl) (boolWord_ult _ _)
  · exact alu2_row (show execMin _ _ _ s = _ from rfl) (minS_eq _ _)
  · exact alu2_row (show execMax _ _ _ s = _ from rfl) (maxS_eq _ _)
  · exact alu2_row (show execMinu _ _ _ s = _ from rfl) (minU_eq _ _)
  · exact alu2_row (show execMaxu _ _ _ s = _ from rfl) (maxU_eq _ _)

theorem aluAs_of_immediate {s : State} {i : Instr} {d : Reg} {rs : List Reg} {x : Word} (h : immediate s i = some (d, rs, x)) : AluAs s i d rs x := by
  unfold immediate at h
  split at h <;> cases h
  · exact alu1_row (show execAddi _ _ _ s = _ from rfl) (ofInt_add_immediate _ _ (by decide)).symm
  · exact alu1_row (show execAndi _ _ _ s = _ from rfl) rfl
  · exact alu1_row (show execOri _ _ _ s = _ from rfl) rfl
  · exact alu1_row (show execXori _ _ _ s = _ from rfl) rfl
  · exact alu1_row (show execSlti _ _ _ s = _ from rfl) (boolWord_slt_signExtend _ _ (by decide))
  · exact alu1_row (show execSltiu _ _ _ s = _ from rfl) (boolWord_ult _ _)

theorem aluAs_of_shift {s : State} {i : Instr} {d : Reg} {rs : List Reg} {x : Word} (h : shift s i = some (d, rs, x)) : AluAs s i d rs x := by
  unfold shift at h
  split at h <;> cases h
  · exact alu2_row (show execShl _ _ _ s = _ from rfl) (shlBy_eq _ _)
  · exact alu2_row (show execShr _ _ _ s = _ from rfl) (shrBy_eq _ _)
  · exact alu2_row (show execSra _ _ _ s = _ from rfl) (sraBy_eq _ _)
  · exact alu2_row (show execRot _ _ _ s = _ from rfl) (rotBy_eq _ _)
  · exact alu1_row (show execShli _ _ _ s = _ from rfl) (shlBy_eq _ _)
  · exact alu1_row (show execShri _ _ _ s = _ from rfl) (shrBy_eq _ _)
  · exact alu1_row (show execSrai _ _ _ s = _ from rfl) (sraBy_eq _ _)
  · exact alu1_row (show execRoti _ _ _ s = _ from rfl) (rotBy_eq _ _)

theorem aluAs_of_multiply {s : State} {i : Instr} {d : Reg} {rs : List Reg} {x : Word} (h : multiply s i = some (d, rs, x)) : AluAs s i d rs x := by
  unfold multiply at h
  split at h <;> cases h
  · exact alu2_row (show execMul _ _ _ s = _ from rfl) (ofNat_mul _ _).symm
  · exact alu2_row (show execMulh _ _ _ s = _ from rfl) rfl
  · exact alu2_row (show execMulhu _ _ _ s = _ from rfl) rfl
  · exact alu2_row (show execDiv _ _ _ s = _ from rfl) (divS_eq _ _)
  · exact alu2_row (show execDivu _ _ _ s = _ from rfl) rfl
  · exact alu2_row (show execRem _ _ _ s = _ from rfl) (remS_eq _ _)
  · exact alu2_row (show execRemu _ _ _ s = _ from rfl) rfl

theorem aluAs_of_bitwise {s : State} {i : Instr} {d : Reg} {rs : List Reg} {x : Word} (h : bitwise s i = some (d, rs, x)) : AluAs s i d rs x := by
  unfold bitwise at h
  split at h <;> cases h
  · exact alu1_row (show execClz _ _ s = _ from rfl) rfl
  · exact alu1_row (show execCtz _ _ s = _ from rfl) rfl
  · exact alu1_row (show execPopc _ _ s = _ from rfl) rfl
  · exact alu1_row (show execBrev _ _ s = _ from rfl) rfl
  · exact ⟨_, show execFshl _ _ _ _ s = _ from rfl, funnelL_eq _ _ _⟩
  · exact ⟨_, show execFshr _ _ _ _ s = _ from rfl, funnelR_eq _ _ _⟩
  · exact alu1_row (show execBfx _ _ _ _ s = _ from rfl) (bfxWord_eq _ _ _)
  · exact ⟨_, show execBfi _ _ _ _ s = _ from rfl, rfl⟩
  · exact ⟨_, show execLut3 _ _ _ _ s = _ from rfl, rfl⟩
  · exact alu2_row (show execCrcw _ _ _ s = _ from rfl) rfl
  · exact ⟨_, show execLi _ _ s = _ from rfl, rfl⟩
  · exact ⟨_, show execLui _ _ s = _ from rfl, append_zero_eq _⟩

theorem aluAs_of_compact {s : State} {i : Instr} {d : Reg} {rs : List Reg} {x : Word} (h : compact s i = some (d, rs, x)) : AluAs s i d rs x := by
  unfold compact at h
  split at h <;> cases h
  · exact alu1_row (show execMov _ _ s = _ from rfl) rfl
  · exact alu2_row (show execAddCompact _ _ s = _ from rfl) (ofNat_add _ _).symm
  · exact alu2_row (show execSubCompact _ _ s = _ from rfl) (ofInt_sub _ _).symm
  · exact alu2_row (show execAndCompact _ _ s = _ from rfl) rfl
  · exact alu2_row (show execOrCompact _ _ s = _ from rfl) rfl
  · exact alu2_row (show execXorCompact _ _ s = _ from rfl) rfl
  · exact alu1_row (show execAddi5 _ _ s = _ from rfl) (ofInt_add_immediate _ _ (by decide)).symm
  · exact alu1_row (show execShliCompact _ _ s = _ from rfl) (shlBy_eq _ _)
  · exact alu1_row (show execShriCompact _ _ s = _ from rfl) (shrBy_eq _ _)
  · exact alu1_row (show execSraiCompact _ _ s = _ from rfl) (sraBy_eq _ _)
  · exact ⟨_, show execLi5 _ _ s = _ from rfl, rfl⟩

/-- Every instruction whose whole effect is a write of one scalar register is of the ALU form. -/
theorem aluAs_of_scalar {s : State} {i : Instr} {d : Reg} {rs : List Reg} {x : Word} (h : scalar s i = some (d, rs, x)) : AluAs s i d rs x := by
  simp only [scalar, Option.or_eq_some_iff] at h
  obtain ((((h | ⟨-, h⟩) | ⟨-, h⟩) | ⟨-, h⟩) | ⟨-, h⟩) | ⟨-, h⟩ := h
  · exact aluAs_of_arithmetic h
  · exact aluAs_of_immediate h
  · exact aluAs_of_shift h
  · exact aluAs_of_multiply h
  · exact aluAs_of_bitwise h
  · exact aluAs_of_compact h

/-- An instruction of the ALU form that is clear writes its value and falls through. -/
theorem writes_of_aluAs {table : State → Instr → Option Written} (h : ∀ {s i d rs x}, table s i = some (d, rs, x) → AluAs s i d rs x) :
    Writes table := by
  intro s i d rs x hrow hc
  obtain ⟨f, hexec, rfl⟩ := h hrow
  exact hexec.trans (s.alu_next i rs d f hc)

/-- Settles O1, table by table: each instruction is the shared operation with a value that the lemmas above state by its number. -/
theorem integerArithmetic : Obligations.IntegerArithmetic :=
  ⟨writes_of_aluAs aluAs_of_arithmetic, writes_of_aluAs aluAs_of_immediate, writes_of_aluAs aluAs_of_shift, writes_of_aluAs aluAs_of_multiply⟩

/-- The leading zeros of a word that is not 0 are its highest bits that are 0, and a bit that is 1 follows them. -/
theorem clzWord_bits {x : Word} (h : x ≠ 0) :
    x.getLsbD (31 - (clzWord x).toNat) = true ∧ ∀ i < (clzWord x).toNat, x.getLsbD (31 - i) = false := by
  obtain ⟨k, hk, hx⟩ := exists_getLsbD_of_ne_zero h
  have hx : x.getLsbD (31 - (31 - k)) = true := by rwa [show 31 - (31 - k) = k by omega]
  rw [clzWord_eq]
  exact ⟨of_leading (fun i => x.getLsbD (31 - i)) (show 31 - k < 32 by omega) hx, fun _ => of_lt_leading fun i => x.getLsbD (31 - i)⟩

/-- So for the trailing zeros and its lowest bits. -/
theorem ctzWord_bits {x : Word} (h : x ≠ 0) : x.getLsbD (ctzWord x).toNat = true ∧ ∀ i < (ctzWord x).toNat, x.getLsbD i = false := by
  obtain ⟨k, hk, hx⟩ := exists_getLsbD_of_ne_zero h
  rw [ctzWord_eq]
  exact ⟨of_leading (fun i => x.getLsbD i) hk hx, fun _ => of_lt_leading fun i => x.getLsbD i⟩

/-- Settles O2: its two tables row by row, and the counts, BREV and LUT3 bit by bit. -/
theorem bitOperations : Obligations.BitOperations := by
  refine ⟨writes_of_aluAs aluAs_of_bitwise, writes_of_aluAs aluAs_of_compact, fun x y z t i hi =>
    ⟨getLsbD_brevWord x hi, getLsbD_lut3Bits hi t x y z, toNat_popcWord x, ?_, ?_⟩⟩
  · intro hx
    obtain ⟨hc, hcz⟩ := clzWord_bits hx
    obtain ⟨ht, htz⟩ := ctzWord_bits hx
    exact ⟨hc, hcz i, ht, htz i⟩
  · rintro rfl
    exact ⟨by decide, by decide⟩

end Sys2Proof.Machine
end

section
/-!
Branches and jumps (R236 to R238, R241, R352).
-/

namespace Sys2Proof.Machine

open Sys2Proof.Claims

/-- What a branch or jump does at `s`: it transfers with its return address where it is taken, and is done where it is not. -/
def transferBody (s : State) (i : Instr) (taken : Bool) (t : Word) (d : Option Reg) : Res :=
  if taken then s.transfer t (d.map fun r => (r, s.pcWord + BitVec.ofNat 32 i.parcels)) else .done s

/-- An instruction of the table issues with the registers that it reads, and its body at `s` is that of a branch or jump. -/
def TransfersAs (s : State) (i : Instr) (rs : List Reg) (taken : Bool) (t : Word) (d : Option Reg) : Prop :=
  ∃ body, exec i s = s.issue i { reads := rs } body ∧ body s = transferBody s i taken t d

/-- A conditional branch is taken where its condition holds of its two registers. -/
theorem branch_row {s : State} {i : Instr} {x y : Reg} {off : Word} {c : Word → Word → Bool} {b : Bool} (hexec : exec i s = s.branch i x y off c)
    (hb : c (s.sr x) (s.sr y) = b) : TransfersAs s i [x, y] b (s.pcWord + off) none :=
  ⟨_, hexec, by rw [hb]; rfl⟩

theorem slt_not (x y : Word) : (!x.slt y) = decide (y.toInt ≤ x.toInt) := by
  rw [BitVec.slt_eq_decide, ← decide_not, decide_eq_decide, Int.not_lt]

theorem ult_not (x y : Word) : (!x.ult y) = decide (y.toNat ≤ x.toNat) := by
  rw [BitVec.ult_eq_decide, ← decide_not, decide_eq_decide, Nat.not_lt]

theorem bne_eq_decide (x y : Word) : (x != y) = decide (x ≠ y) := by
  rw [decide_not]; rfl

theorem transfersAs_of_transfers {s : State} {i : Instr} {rs : List Reg} {taken : Bool} {t : Word} {d : Option Reg}
    (h : transfers s i = some (rs, taken, t, d)) : TransfersAs s i rs taken t d := by
  unfold transfers at h
  split at h <;> cases h
  · exact branch_row (show execBeq _ _ _ s = _ from rfl) rfl
  · exact branch_row (show execBne _ _ _ s = _ from rfl) (bne_eq_decide _ _)
  · exact branch_row (show execBlt _ _ _ s = _ from rfl) BitVec.slt_eq_decide
  · exact branch_row (show execBge _ _ _ s = _ from rfl) (slt_not _ _)
  · exact branch_row (show execBltu _ _ _ s = _ from rfl) BitVec.ult_eq_decide
  · exact branch_row (show execBgeu _ _ _ s = _ from rfl) (ult_not _ _)
  · exact branch_row (show execBeqz _ _ s = _ from rfl) rfl
  · exact branch_row (show execBnez _ _ s = _ from rfl) (bne_eq_decide _ _)
  · exact ⟨_, show execJal _ _ s = _ from rfl, rfl⟩
  · exact ⟨_, show execJalr _ _ _ s = _ from rfl, rfl⟩
  · exact ⟨_, show execJr _ s = _ from rfl, rfl⟩

theorem transferBody_goto {s : State} {i : Instr} {t : Word} {d : Option Reg} (h : t.toNat < 0x2000) :
    transferBody s i true t d = .goto t.toNat (linked s i d) := by
  unfold transferBody State.transfer
  rw [if_pos rfl, if_pos h]
  cases d with
  | none => rfl
  | some r => rfl

theorem transferBody_fault {s : State} {i : Instr} {t : Word} {d : Option Reg} (h : 0x2000 ≤ t.toNat) :
    transferBody s i true t d = .fault { code := 0x04, addr := t } s := by
  unfold transferBody State.transfer
  rw [if_pos rfl, if_neg (Nat.not_lt.2 h)]

@[simp] theorem linked_loops (s : State) (i : Instr) (d : Option Reg) : (linked s i d).tile.core.cur.loops = s.tile.core.cur.loops := by
  cases d with
  | none => rfl
  | some r => rw [linked, State.setS_core_cur]

theorem staysAt_of_loops {s t : State} (h : t.tile.core.cur.loops = s.tile.core.cur.loops) (n : Nat) : t.staysAt n = s.staysAt n := by
  rw [State.staysAt, State.staysAt, h]

/-- Settles O3: the instruction issues as its row says, and what its body does at `s` decides what the step answers. -/
theorem branchesAndJumps : Obligations.BranchesAndJumps := by
  refine ⟨⟨fun s i rs t d h hi ht hs => ?_, fun s i rs t d h hc => ?_⟩, fun s i rs t d h hi ht => ?_⟩
  · obtain ⟨body, hexec, hbody⟩ := transfersAs_of_transfers h
    rw [hexec]
    exact State.issue_goto hi nofun rfl nofun (hbody.trans (transferBody_goto ht)) ((staysAt_of_loops (linked_loops s i d) _).trans hs) ht
  · obtain ⟨body, hexec, hbody⟩ := transfersAs_of_transfers h
    rw [hexec]
    exact State.issue_done hc nofun rfl nofun hbody rfl rfl
  · obtain ⟨body, hexec, hbody⟩ := transfersAs_of_transfers h
    rw [hexec]
    exact State.issue_fault hi nofun rfl nofun (hbody.trans (transferBody_fault ht))

end Sys2Proof.Machine
end

section
/-!
Hardware loops (R239, R240, R352).
-/

namespace Sys2Proof.Machine

open Sys2Proof.Claims

/-- A loop instruction issues with the registers that it reads, and opens a loop of its count, length and K; its body has a parcel. -/
theorem exec_loops {s : State} {i : Instr} {rs : List Reg} {n : Word} {len : Nat} {k : Bool} (h : loops s i = some (rs, n, len, k))
    (hi : s.issues i rs = true) : 0 < len ∧ ∃ body, exec i s = s.issue i { reads := rs } body ∧ body s = s.openLoop n len k := by
  obtain ⟨hwf, -, -⟩ := (s.issues_iff i rs).1 hi
  unfold loops at h
  split at h <;> cases h
  · exact ⟨of_decide_eq_true hwf, _, show execLoop _ _ _ s = _ from rfl, rfl⟩
  · exact ⟨of_decide_eq_true hwf, _, show execLoopi _ _ _ s = _ from rfl, rfl⟩

section Opening

variable {s : State} {n : Word} {len : Nat} {k : Bool}

theorem openLoop_opens (hn : n ≠ 0) (h : mayOpen s (s.pcNat + 2 + len) = true) :
    s.openLoop n len k = .goto (s.pcNat + 2) (opened s n len k) := by
  unfold mayOpen State.pcNat at h
  unfold State.openLoop opened State.pcNat
  obtain ⟨hstop, hopen⟩ := Bool.and_eq_true_iff.1 h
  have hstop := of_decide_eq_true hstop
  dsimp only
  rw [if_neg (by omega), if_neg fun h => hn h.1, if_neg hn]
  split at hopen
  · rename_i hl
    rw [hl, if_neg (by simp)]
  · rename_i l hl
    rw [hl, if_neg (by simp)]
    exact if_neg (Nat.not_lt.2 (of_decide_eq_true hopen))
  · cases hopen

theorem openLoop_skips (h : s.pcNat + 2 + len < 0x2000) : s.openLoop 0 len k = .goto (s.pcNat + 2 + len) s := by
  unfold State.pcNat at h ⊢
  unfold State.openLoop
  dsimp only
  rw [if_neg (by omega), if_neg (by omega), if_pos rfl]

theorem openLoop_skips_past_store (h : s.pcNat + 2 + len = 0x2000) : s.openLoop 0 len k = .fault pastStore s := by
  unfold State.pcNat at h
  unfold State.openLoop
  dsimp only
  rw [if_neg (by omega), if_pos ⟨rfl, h⟩]

theorem openLoop_third (hn : n ≠ 0) (hstop : s.pcNat + 2 + len ≤ 0x2000) (h : 2 ≤ s.tile.core.cur.loops.length) :
    s.openLoop n len k = .fault { code := 0x05, addr := BitVec.ofNat 32 (s.pcNat + 2 + len) } s := by
  unfold State.pcNat at hstop ⊢
  unfold State.openLoop
  dsimp only
  rw [if_neg (by omega), if_neg fun h => hn h.1, if_neg hn, if_pos h]

theorem openLoop_beyond {l : Loop} (hn : n ≠ 0) (hstop : s.pcNat + 2 + len ≤ 0x2000) (hl : s.tile.core.cur.loops = [l])
    (h : l.stop < s.pcNat + 2 + len) :
    s.openLoop n len k = .fault { code := 0x06, addr := BitVec.ofNat 32 (s.pcNat + 2 + len), info := BitVec.ofNat 32 l.stop } s := by
  unfold State.pcNat at hstop h ⊢
  unfold State.openLoop
  dsimp only
  rw [if_neg (by omega), if_neg fun h => hn h.1, if_neg hn, hl, if_neg (by simp)]
  exact if_pos h

theorem opened_staysAt (h : 0 < len) : (opened s n len k).staysAt (s.pcNat + 2) = true := by
  simp [State.staysAt, opened, h]

end Opening

/- The iteration boundary (R240). -/

/-- The one open loop, not killable, at its iteration boundary. -/
theorem boundary_single {cov : Bool} {stop : Nat} {l : Loop} (hstop : l.stop = stop) (hk : l.kill = false) :
    boundary cov stop [l] = if l.left = 0 then some ([], stop) else some ([{ l with left := l.left - 1 }], l.start) := by
  simp [boundary, hstop, hk]

/-- An instruction that is done goes on where the open loops that end after it take it. -/
theorem State.finish_done {s t : State} {len n : Nat} {ls : List Loop} (hn : n < 0x2000)
    (h : ∀ cov, boundary cov (s.pcNat + len) t.tile.core.cur.loops = some (ls, n)) :
    s.finish len (.done t) = { t.goesTo n with tile.core.cur.loops := ls } := by
  unfold State.pcNat at h
  unfold State.finish State.run State.goesTo
  dsimp only
  cases hu : t.urgent with
  | true =>
    rw [if_pos rfl, if_pos rfl]
    dsimp only
    rw [h, State.setPc_some _ _ _ _ hn]
  | false =>
    rw [if_neg nofun, if_neg nofun]
    dsimp only
    rw [h, State.setPc_some _ _ _ _ hn]

/-- A scalar instruction at the iteration boundary of the one open loop. -/
theorem scalar_boundary {s : State} {i : Instr} {d : Reg} {rs : List Reg} {x : Word} {l : Loop} (h : scalar s i = some (d, rs, x))
    (hi : s.issues i rs = true) (hl : s.tile.core.cur.loops = [l]) (hend : l.stop = s.pcNat + i.parcels) (hstart : l.start < 0x2000)
    (hstop : l.stop < 0x2000) (hk : l.kill = false) :
    exec i s = .next (if l.left = 0 then { (s.setS d x).goesTo l.stop with tile.core.cur.loops := [] }
      else { (s.setS d x).goesTo l.start with tile.core.cur.loops := [{ l with left := l.left - 1 }] }) := by
  obtain ⟨f, hexec, hvalue⟩ := aluAs_of_scalar h
  have hloops : (s.setS d (f s)).tile.core.cur.loops = [l] := by rw [State.setS_core_cur, hl]
  rw [hexec, State.alu, State.issue_body (how := { reads := rs }) hi nofun rfl nofun]
  by_cases hleft : l.left = 0
  · rw [if_pos hleft, ← hvalue, State.finish_done (n := l.stop) (ls := []) hstop fun cov => by
      rw [hloops, boundary_single hend hk, if_pos hleft, hend]]
  · rw [if_neg hleft, ← hvalue, State.finish_done (n := l.start) (ls := [{ l with left := l.left - 1 }]) hstart fun cov => by
      rw [hloops, boundary_single hend hk, if_neg hleft]]

/-- Settles O4, clause by clause: what the opening answers, and the boundary of the one open loop. -/
theorem hardwareLoops : Obligations.HardwareLoops := by
  refine ⟨⟨fun s i rs n len k h hi => ?_, fun s i rs n len k h hi hn hstop => ?_⟩, fun s i d rs x l => scalar_boundary⟩
  · obtain ⟨hlen, body, hexec, hbody⟩ := exec_loops h hi
    rw [hexec]
    refine ⟨fun hn hmay => ?_, fun hn hstop hs => ?_, fun hn hstop => ?_⟩
    · have hin : s.pcNat + 2 < 0x2000 := by
        have := of_decide_eq_true (Bool.and_eq_true_iff.1 hmay).1
        omega
      exact State.issue_goto hi nofun rfl nofun (hbody.trans (openLoop_opens hn hmay)) (opened_staysAt hlen) hin
    · subst hn
      exact State.issue_goto hi nofun rfl nofun (hbody.trans (openLoop_skips hstop)) hs hstop
    · subst hn
      exact State.issue_fault hi nofun rfl nofun (hbody.trans (openLoop_skips_past_store hstop))
  · obtain ⟨-, body, hexec, hbody⟩ := exec_loops h hi
    rw [hexec]
    exact ⟨fun htwo => State.issue_fault hi nofun rfl nofun (hbody.trans (openLoop_third hn hstop htwo)),
      fun l hl hout => State.issue_fault hi nofun rfl nofun (hbody.trans (openLoop_beyond hn hstop hl hout))⟩

end Sys2Proof.Machine
end

section
/-!
Instructions that complete at once (R200, R245 to R248).
-/

namespace Sys2Proof.Machine

open Sys2Proof.Claims

/-- An instruction reads no scalar register, is allowed at the running level, and its body at `s` is done in a state with the same open loops and pc. -/
def QuietAs (s : State) (i : Instr) (t : State) : Prop :=
  ∃ forbidden body, exec i s = s.issue i { forbidden := forbidden } body ∧ (forbidden = true → s.urgent = false) ∧ body s = .done t ∧
    t.tile.core.cur = s.tile.core.cur

/-- Clearing the bits of a mask that are set clears the bits of the mask. -/
theorem and_not_and_self {n : Nat} (x m : BitVec n) : x &&& ~~~(x &&& m) = x &&& ~~~m := by
  rw [BitVec.not_and, BitVec.and_or_distrib_left, BitVec.and_not_self]
  exact BitVec.zero_or

theorem quietAs_cancelchk {s : State} {i : Instr} (hexec : exec i s = s.issue i {} State.doCancelchk) (h : ¬ s.workCovered = true) : QuietAs s i s :=
  ⟨false, _, hexec, nofun, if_neg h, rfl⟩

theorem quietAs_of_quiet {s t : State} {i : Instr} (h : quiet s i = some t) : QuietAs s i t := by
  unfold quiet at h
  split at h
  · cases h; exact ⟨false, _, show execNop s = _ from rfl, nofun, rfl, rfl⟩
  · cases h; exact ⟨false, _, show execNopCompact s = _ from rfl, nofun, rfl, rfl⟩
  · split at h <;> cases h
    exact quietAs_cancelchk (show execCancelchk s = _ from rfl) ‹_›
  · split at h <;> cases h
    exact quietAs_cancelchk (show execCancelchkCompact s = _ from rfl) ‹_›
  · cases h
    exact ⟨false, _, show execMask s = _ from rfl, nofun, rfl, by split <;> rfl⟩
  · cases h
    exact ⟨false, _, show execUnmask s = _ from rfl, nofun, rfl, by split <;> rfl⟩
  · rename_i m
    split at h <;> cases h
    rename_i hn
    simp only [Bool.or_eq_true, decide_eq_true_eq, not_or, Bool.not_eq_true] at hn
    obtain ⟨hu, hx⟩ := hn
    exact ⟨true, _, show execSleep m s = _ from rfl, fun _ => hu, (if_neg hx).trans (by rw [and_not_and_self]), rfl⟩
  · rename_i x
    split at h <;> cases h
    rename_i hn
    simp only [Bool.or_eq_true, Bool.not_eq_true', not_or, Bool.not_eq_true, Bool.not_eq_false] at hn
    obtain ⟨hu, hr⟩ := hn
    exact ⟨true, _, show execFence x s = _ from rfl, fun _ => hu, if_pos hr, rfl⟩
  · cases h

/-- Settles O5: each instruction of the table issues, and its body is done. -/
theorem quietInstructions : Obligations.QuietInstructions := by
  intro s t i h hc
  obtain ⟨forbidden, body, hexec, hallowed, hbody, hcur⟩ := quietAs_of_quiet h
  rw [hexec]
  exact State.issue_done hc nofun rfl hallowed hbody (by rw [hcur]) (by rw [hcur])

end Sys2Proof.Machine
end

section
/-!
The end of work (R242 to R244, R51): the sweep of what covered scopes hold, then each instruction.
-/

namespace Sys2Proof.Machine

open Sys2Proof.Claims

section Ends

variable {s : State}

theorem level_of_not_urgent (h : s.urgent = false) : s.tile.core.level = .normal := by
  unfold State.urgent at h
  cases hl : s.tile.core.level with
  | normal => rfl
  | urgent => rw [hl] at h; cases h

/- What covered scopes hold is acted on (R36). -/

theorem coveredBy_of_no_notice (h : s.tile.task.cancels = []) (x : Word) : s.coveredBy x = false := by
  rw [State.coveredBy, h]; rfl

/-- Where no work runs or waits, nothing is spared. -/
theorem Core.spares_of_not_busy {c : Core} (hl : c.level = .normal) (hb : c.busy = false) (o : Nat) : c.spares o = false := by
  simp [Core.spares, hb, hl]

theorem sweepCovered_of_no_notice (h : s.tile.task.cancels = []) : s.sweepCovered = s := if_pos h

/-- A sweep that spares nothing acts on every covered scope. -/
theorem sweepCovered_of_notice (h : s.tile.task.cancels ≠ []) (hspare : ∀ o, s.tile.core.spares o = false) :
    s.sweepCovered = { s with tile := s.tile.killObjects fun x _ => s.coveredBy x } := by
  rw [State.sweepCovered, if_neg h]
  simp only [hspare, Bool.not_false, Bool.and_true]

/-- A sweep leaves the rest of the machine, the core but the v registers in stream mode, the faults, the rings and the memberships. -/
theorem sweepCovered_leaves (s : State) : ∃ b, s.sweepCovered.tile.core = { s.tile.core with normal := b } ∧
    (s.tile.task.cancels = [] → b = s.tile.core.normal) ∧ s.sweepCovered.tile.stop = s.tile.stop ∧ s.sweepCovered.tile.task.rings = s.tile.task.rings ∧
    s.sweepCovered.tile.task.cancels = s.tile.task.cancels ∧ s.sweepCovered.carrels = s.carrels := by
  by_cases h : s.tile.task.cancels = []
  · rw [sweepCovered_of_no_notice h]
    exact ⟨_, rfl, fun _ => rfl, rfl, rfl, rfl, rfl⟩
  · rw [State.sweepCovered, if_neg h]
    exact ⟨_, rfl, fun hn => absurd hn h, rfl, rfl, rfl, rfl⟩

/-- A sweep that spares nothing leaves what R242 lists. -/
theorem sweepCovered_inherits (hspare : ∀ o, s.tile.core.spares o = false) (hfar : s.tile.strm.farWord = none) : Inherits s s.sweepCovered := by
  by_cases h : s.tile.task.cancels = []
  · rw [sweepCovered_of_no_notice h]
    have hcov := coveredBy_of_no_notice h
    refine ⟨rfl, ?_, ?_, ?_, fun _ => ⟨rfl, ?_, rfl⟩⟩
    · simp [hcov]
    · simp [hcov]
    · simp [hcov]
    · rw [← hfar]
  · rw [sweepCovered_of_notice h hspare]
    exact ⟨rfl, rfl, rfl, rfl, fun hn => absurd hn h⟩

/- The work of the normal level (R242, R243). -/

/-- The work ends at the normal level, and the residency neither runs nor waits. -/
theorem endTask_ends {ph : Phase} (hurg : s.urgent = false) (hrun : ph ≠ .running) (hwait : ph ≠ .waiting) :
    (s.endTask ph).tile.core.phase = ph ∧ (s.endTask ph).tile.core.cur.loops = [] ∧ (s.endTask ph).tile.core.mask = none ∧
      Inherits s (s.endTask ph) ∧ (s.endTask ph).carrels = s.carrels := by
  let u : State := { s with tile := s.tile.endWork ph }
  have hlevel : u.tile.core.level = .normal := level_of_not_urgent hurg
  have hbusy : u.tile.core.busy = false := by
    change (ph == .running || ph == .waiting) = false
    rw [beq_false_of_ne hrun, beq_false_of_ne hwait]
    rfl
  obtain ⟨b, hcore, -, -, -, -, hcarrels⟩ := sweepCovered_leaves u
  have hinherits : Inherits u u.sweepCovered := sweepCovered_inherits (Core.spares_of_not_busy hlevel hbusy) rfl
  refine ⟨congrArg Core.phase hcore, congrArg (·.cur.loops) hcore, congrArg Core.mask hcore, hinherits, hcarrels⟩

/-- The body of an instruction that ends the work of the normal level, and the phase that follows. -/
def EndsAs (s : State) (i : Instr) (ph : Phase) (u : State) : Prop :=
  ∃ forbidden body, exec i s = s.issue i { forbidden := forbidden } body ∧ body s = .stay (u.endTask ph)

theorem doDone_normal (hurg : s.urgent = false) : s.doDone = .stay (s.endTask .idle) := by
  rw [State.doDone, hurg]; rfl

theorem doYield_of_no_task (hurg : s.urgent = false) (hwork : ∀ a, s.tile.core.cur.work ≠ .task a) : s.doYield = .stay (s.endTask .idle) := by
  rw [State.doYield, hurg]
  split
  · exact absurd ‹_› (hwork _)
  · exact doDone_normal hurg

/-- Only DONE.G makes the residency Finished, with one more on the gang's reduction tree; the others leave it Idle. -/
theorem endsAs_of_ends {i : Instr} {ph : Phase} (h : ends i = some ph) (hurg : s.urgent = false)
    (hyield : i = .yield → ∀ a, s.tile.core.cur.work ≠ .task a) :
    ph ≠ .running ∧ ph ≠ .waiting ∧ EndsAs s i ph (if ph = .finished then counted s else s) := by
  unfold ends at h
  split at h <;> cases h
  · exact ⟨nofun, nofun, false, _, show execDone s = _ from rfl, doDone_normal hurg⟩
  · exact ⟨nofun, nofun, false, _, show execDoneCompact s = _ from rfl, doDone_normal hurg⟩
  · exact ⟨nofun, nofun, true, _, show execDoneG s = _ from rfl, rfl⟩
  · exact ⟨nofun, nofun, true, _, show execDoneGCompact s = _ from rfl, rfl⟩
  · exact ⟨nofun, nofun, false, _, show execYield s = _ from rfl, doYield_of_no_task hurg (hyield rfl)⟩

theorem normal_work_ends {i : Instr} {ph : Phase} (h : ends i = some ph) (hi : s.issues i [] = true) (hurg : s.urgent = false)
    (hyield : i = .yield → ∀ a, s.tile.core.cur.work ≠ .task a) :
    ∃ t, exec i s = .next t ∧ t.tile.core.phase = ph ∧ t.tile.core.cur.loops = [] ∧ t.tile.core.mask = none ∧ Inherits s t ∧
      t.carrels = if ph = .finished then (counted s).carrels else s.carrels := by
  obtain ⟨hrun, hwait, forbidden, body, hexec, hbody⟩ := endsAs_of_ends h hurg hyield
  refine ⟨_, hexec.trans (State.issue_stay hi nofun rfl (fun _ => hurg) hbody), ?_⟩
  by_cases hph : ph = .finished
  · rw [if_pos hph, if_pos hph]
    exact endTask_ends (s := counted s) hurg hrun hwait
  · rw [if_neg hph, if_neg hph]
    exact endTask_ends hurg hrun hwait

/- The urgent handler (R51). -/

/-- The normal level comes back as it was halted. -/
theorem urgentLeave_leaves {c : Ctx} (hc : s.tile.core.halt = some c) :
    ∃ b l n, s.urgentLeave.tile.core =
        { s.tile.core with level := .normal, cur := c, halt := none, urgentPast := l, urgentClk := n, normal := b } ∧
      (s.tile.task.cancels = [] → b = s.tile.core.normal) ∧ s.urgentLeave.tile.stop = s.tile.stop ∧
      s.urgentLeave.tile.task.cancels = s.tile.task.cancels := by
  unfold State.urgentLeave
  dsimp only
  rw [hc]
  obtain ⟨b, hcore, hnormal, hstop, -, hcancels, -⟩ := sweepCovered_leaves { s with tile := { s.tile.freeCursor with
    core.level := .normal, core.cur := c, core.halt := none,
    core.urgentPast := (s.fld.clk - s.tile.core.urgentClk, s.fld.clk) :: s.tile.core.urgentPast, core.urgentClk := 0 } }
  exact ⟨b, _, _, hcore, hnormal, hstop, hcancels⟩

/-- The handler ends, no fault reply is held for it, and what it halted is not covered: the normal level goes on as it was. -/
theorem urgentDone_restores {c : Ctx} (hc : s.tile.core.halt = some c) (hcov : s.coveredBy c.scope = false) (hreply : s.tile.stop.reply = none) :
    let t := s.urgentDone
    t.urgent = false ∧ t.tile.core.cur = c ∧ t.tile.core.halt = none ∧ t.tile.core.phase = s.tile.core.phase ∧
      (s.tile.task.cancels = [] → t.tile.core.normal = s.tile.core.normal) ∧ t.tile.core.shadow = s.tile.core.shadow := by
  obtain ⟨b, l, n, hcore, hnormal, hstop, hcancels⟩ := urgentLeave_leaves hc
  have hnot : s.urgentLeave.workCovered = false := by
    unfold State.workCovered State.coveredBy at *
    rw [hcore, hcancels, hcov, Bool.and_false]
  have hexit : s.urgentExit = s.urgentLeave := by
    unfold State.urgentExit
    dsimp only
    rw [hnot]
    rfl
  have hdone : s.urgentDone = s.urgentLeave := by
    unfold State.urgentDone
    dsimp only
    rw [hexit, hstop, hreply]
  dsimp only
  rw [hdone, State.urgent, hcore]
  exact ⟨rfl, rfl, rfl, rfl, hnormal, rfl⟩

theorem urgent_done {i : Instr} {c : Ctx} (h : i = .done ∨ i = .doneCompact) (hi : s.issues i [] = true) (hurg : s.urgent = true)
    (hc : s.tile.core.halt = some c) (hcov : s.coveredBy c.scope = false) (hreply : s.tile.stop.reply = none) :
    ∃ t, exec i s = .next t ∧ t.urgent = false ∧ t.tile.core.cur = c ∧ t.tile.core.halt = none ∧ t.tile.core.phase = s.tile.core.phase ∧
      (s.tile.task.cancels = [] → t.tile.core.normal = s.tile.core.normal) ∧ t.tile.core.shadow = s.tile.core.shadow := by
  have hexec : exec i s = s.issue i {} State.doDone := by
    obtain rfl | rfl := h
    · exact show execDone s = _ from rfl
    · exact show execDoneCompact s = _ from rfl
  have hbody : s.doDone = .stay s.urgentDone := by rw [State.doDone, if_pos hurg]
  exact ⟨_, hexec.trans (State.issue_stay hi nofun rfl nofun hbody), urgentDone_restores hc hcov hreply⟩

/- A task that yields (R244). -/

/-- The entry that a task at record `a` makes as it yields. -/
def State.yielded (s : State) (a : Word) : Entry := { work := .task a, prio := s.tile.core.cur.prio, scope := s.drained.tile.recScope a.toNat }

/-- The record of the task, whose words are good and whose scope no notice covers, finds room in the ring of its class. -/
theorem doYield_pushes {a : Word} (hurg : s.urgent = false) (hwork : s.tile.core.cur.work = .task a) (hbad : s.drained.tile.view.bad = [])
    (hcov : s.coveredBy (s.drained.tile.recScope a.toNat) = false) (hroom : s.tile.ringCount s.tile.core.cur.prio < 256) :
    s.doYield = .stay (State.endTask { s.drained with tile := s.drained.tile.push (s.yielded a) } .idle) := by
  have hcov : s.drained.coveredBy (s.drained.tile.recScope a.toNat) = false := by rw [← hcov, State.coveredBy, State.drained_tile_task]; rfl
  have hroom : s.drained.tile.ringCount s.tile.core.cur.prio < 256 := by rwa [Tile.ringCount, State.drained_tile_task]
  unfold State.doYield
  rw [hurg, hwork]
  dsimp only
  rw [View.badWord, if_pos hbad, hcov, State.drained_tile_core, Tile.canPush_room hroom]
  rfl

theorem task_yields {a : Word} (hi : s.issues .yield [] = true) (hurg : s.urgent = false) (hwork : s.tile.core.cur.work = .task a)
    (hbad : s.drained.tile.view.bad = []) (hcov : s.coveredBy (s.drained.tile.recScope a.toNat) = false)
    (hroom : s.tile.ringCount s.tile.core.cur.prio < 256) :
    ∃ t, exec .yield s = .next t ∧ t.tile.core.phase = .idle ∧ t.tile.task.rings = s.tile.task.rings ++
      [{ work := .task a, prio := s.tile.core.cur.prio, scope := s.drained.tile.recScope a.toNat,
         slot := ringPlace s.tile.task.rings s.tile.core.cur.prio }] := by
  have hexec : exec .yield s = s.issue .yield {} State.doYield := show execYield s = _ from rfl
  have hroom' : s.drained.tile.ringCount s.tile.core.cur.prio < 256 := by rwa [Tile.ringCount, State.drained_tile_task]
  refine ⟨_, hexec.trans (State.issue_stay hi nofun rfl nofun (doYield_pushes hurg hwork hbad hcov hroom)), ?_⟩
  obtain ⟨b, hcore, -, -, hrings, -, -⟩ := sweepCovered_leaves { s.drained with tile := (s.drained.tile.push (s.yielded a)).endWork .idle }
  refine ⟨congrArg Core.phase hcore, hrings.trans ?_⟩
  change (s.drained.tile.push (s.yielded a)).task.rings = _
  rw [Tile.push_rings false (show s.drained.tile.ringCount (s.yielded a).prio < 256 from hroom') hbad, State.drained_tile_task]
  rfl

end Ends

/-- Settles O6, clause by clause: the end of the normal level's work, of the urgent handler, and a task that yields. -/
theorem endOfWork : Obligations.EndOfWork :=
  ⟨fun _ _ _ => normal_work_ends, fun _ _ _ => urgent_done, fun _ _ hi hurg hwork _ => task_yields hi hurg hwork⟩

end Sys2Proof.Machine
end

section
/-!
What the scalar, load, store and vector instructions leave (R204, R205, R224 to R235, R265, R272, R343).
-/

namespace Sys2Proof.Machine

open Sys2Proof.Claims

section Kept

variable {s : State}

/- Registers. -/

theorem Core.setBank_eq (c : Core) (l : Level) (b : Bank) : ∃ nb sb, c.setBank l b = { c with normal := nb, shadow := sb } ∧
    (l = .urgent → nb = c.normal) ∧ (l = .normal → sb = c.shadow) := by
  cases l with
  | normal => exact ⟨b, c.shadow, rfl, nofun, fun _ => rfl⟩
  | urgent => exact ⟨c.normal, b, rfl, fun _ => rfl, nofun⟩

/-- Writing the running level's bank leaves the other level's. -/
theorem State.setBank_eq (s : State) (b : Bank) : ∃ nb sb, s.setBank b = { s with tile.core.normal := nb, tile.core.shadow := sb } ∧
    (s.urgent = true → nb = s.tile.core.normal) ∧ (s.urgent = false → sb = s.tile.core.shadow) := by
  obtain ⟨nb, sb, h, hn, hs⟩ := s.tile.core.setBank_eq s.tile.core.level b
  exact ⟨nb, sb, by rw [State.setBank, h], fun hu => hn (of_decide_eq_true hu), fun hu => hs (level_of_not_urgent hu)⟩

theorem Core.setBank_setBank (c : Core) (l : Level) (b d : Bank) : (c.setBank l b).setBank l d = c.setBank l d := by
  cases l with
  | normal => rfl
  | urgent => rfl

theorem State.setBank_setBank (s : State) (b d : Bank) : (s.setBank b).setBank d = s.setBank d := by
  unfold State.setBank
  rw [Core.setBank_level, Core.setBank_setBank]

/-- A step writes scalar registers of a list, in the running level's bank, and nothing else. -/
def WritesOnly (rs : List Reg) (s t : State) : Prop :=
  (∃ b, t = s.setBank b) ∧ ∀ r, (r ∉ rs → t.sr r = s.sr r) ∧ t.vr r = s.vr r ∧ t.kr r = s.kr r

theorem setS_writesOnly (s : State) (d : Reg) (x : Word) : WritesOnly [d] s (s.setS d x) :=
  ⟨⟨_, rfl⟩, fun r => ⟨fun h => s.setS_sr_ne d r x (mt List.mem_singleton.2 h), s.setS_vr d r x, s.setS_kr d r x⟩⟩

theorem setS_setS_writesOnly (s : State) (d e : Reg) (x y : Word) : WritesOnly [d, e] s ((s.setS d x).setS e y) := by
  refine ⟨⟨_, State.setBank_setBank s _ _⟩, fun r => ⟨fun h => ?_, ?_, ?_⟩⟩
  · obtain ⟨hd, he⟩ := not_or.1 (mt List.mem_pair.2 h)
    rw [State.setS_sr_ne _ _ _ _ he, State.setS_sr_ne _ _ _ _ hd]
  · rw [State.setS_vr, State.setS_vr]
  · rw [State.setS_kr, State.setS_kr]

/- What `Keeps` asks. -/

/-- A state that differs in what `Keeps` allows, with the bank of the level that does not run as it was. -/
theorem keeps_of_eq {t : State} {v : View} {nb sb : Bank} {ph : Phase} {pc : Pc} {f : Flags} {ms : List Nat}
    (h : t = { s with tile.view := v, tile.core.normal := nb, tile.core.shadow := sb, tile.core.wait := none, tile.core.phase := ph,
                      tile.core.cur.pc := pc, tile.core.tstat := f, tile.core.maskPages := ms })
    (hn : s.urgent = true → nb = s.tile.core.normal) (hs : s.urgent = false → sb = s.tile.core.shadow) : Keeps s t := by
  subst h
  exact ⟨rfl, hn, hs⟩

/-- Registers of the running level are written in a state that differs in its view and in what a masked window has met. -/
theorem keeps_setBank_after {u : State} (b : Bank) (n : Nat) (h : ∃ v ms, u = { s with tile.view := v, tile.core.maskPages := ms }) :
    Keeps s ((u.setBank b).after n) := by
  obtain ⟨v, ms, rfl⟩ := h
  obtain ⟨nb, sb, hb, hn, hs⟩ := State.setBank_eq { s with tile.view := v, tile.core.maskPages := ms } b
  rw [hb]
  exact keeps_of_eq rfl hn hs

theorem keeps_after {u : State} (n : Nat) (h : ∃ v ms, u = { s with tile.view := v, tile.core.maskPages := ms }) : Keeps s (u.after n) := by
  obtain ⟨v, ms, rfl⟩ := h
  exact keeps_of_eq rfl (fun _ => rfl) fun _ => rfl

theorem sameBytes_of_localByte {t : State} (h : ∀ b, t.localByte b = s.localByte b) (a n : Nat) : SameBytes s t a n :=
  fun b _ => h b

end Kept

end Sys2Proof.Machine
end

section
/-!
Scalar loads and stores (R265, R200): each is the shared operation, and what a granted one leaves.
-/

namespace Sys2Proof.Machine

open Sys2Proof.Claims

section Memory

variable {s : State} {i : Instr} {a : Reg} {off : Word} {n : Nat}

/- Loads. -/

/-- A pair is written low word first (R223). -/
theorem setPair_ofNat (s : State) (d : Reg) (x : Nat) :
    s.setPair d (BitVec.ofNat 64 x) = (s.setS d (BitVec.ofNat 32 x)).setS (d + 1) (BitVec.ofNat 32 (x / 2 ^ 32)) := by
  have hlow : (BitVec.ofNat 64 x).setWidth 32 = BitVec.ofNat 32 x := by
    apply BitVec.eq_of_toNat_eq
    simp only [BitVec.toNat_setWidth, BitVec.toNat_ofNat]
    omega
  have hhigh : (BitVec.ofNat 64 x >>> 32).setWidth 32 = BitVec.ofNat 32 (x / 2 ^ 32) := by
    apply BitVec.eq_of_toNat_eq
    simp only [BitVec.toNat_setWidth, BitVec.toNat_ushiftRight, BitVec.toNat_ofNat, Nat.shiftRight_eq_div_pow]
    omega
  rw [State.setPair, hlow, hhigh]

theorem exec_load {w : Nat → State → State} (h : load i = some (a, off, n, w)) : exec i s = s.load i a off n w := by
  unfold load at h
  split at h <;> cases h
  · exact show execLdb _ _ _ s = _ from rfl
  · exact show execLdbu _ _ _ s = _ from rfl
  · exact show execLdh _ _ _ s = _ from rfl
  · exact show execLdhu _ _ _ s = _ from rfl
  · exact show execLdw _ _ _ s = _ from rfl
  · change execLdd _ _ _ s = _
    simp only [execLdd, setPair_ofNat]
  · exact show execLdwCompact _ _ s = _ from rfl

theorem load_writesOnly {w : Nat → State → State} (h : load i = some (a, off, n, w)) (x : Nat) (u : State) : WritesOnly (loaded i) u (w x u) := by
  unfold load at h
  split at h <;> cases h
  · exact setS_writesOnly ..
  · exact setS_writesOnly ..
  · exact setS_writesOnly ..
  · exact setS_writesOnly ..
  · exact setS_writesOnly ..
  · exact setS_setS_writesOnly ..
  · exact setS_writesOnly ..

/-- An aligned, granted load that is clear writes its destination from the bytes at its address. -/
theorem load_next {w : Nat → State → State} (h : load i = some (a, off, n, w)) (hc : s.clear i [a] = true) (hn : (s.sr a + off).toNat % n = 0)
    (hg : s.grants [((s.sr a + off).toNat, n, false, true)] = true) :
    exec i s = .next ((w ((s.noted [((s.sr a + off).toNat, n, false, true)]).loadN (s.sr a + off).toNat n)
      (s.noted [((s.sr a + off).toNat, n, false, true)])).after i.parcels) := by
  obtain ⟨v, ms, hnoted⟩ := State.noted_eq s [((s.sr a + off).toNat, n, false, true)]
  obtain ⟨⟨b, hb⟩, -⟩ := load_writesOnly h ((s.noted [((s.sr a + off).toNat, n, false, true)]).loadN (s.sr a + off).toNat n)
    (s.noted [((s.sr a + off).toNat, n, false, true)])
  have hcur : ((s.noted [((s.sr a + off).toNat, n, false, true)]).setBank b).tile.core.cur = s.tile.core.cur := by
    rw [State.setBank, Core.setBank_cur, hnoted]
  rw [exec_load h]
  refine State.issue_done (how := { reads := [a] }) hc nofun rfl nofun ?_ (by rw [hb, hcur]) (by rw [hb, hcur])
  rw [State.need_ok _ _ _ _ (beq_iff_eq.2 hn), State.access_ok _ _ _ hg]

/- Stores. -/

theorem toNat_pair (s : State) (r : Reg) : (s.pair r).toNat = (s.sr r).toNat + 2 ^ 32 * (s.sr (r + 1)).toNat := by
  rw [State.pair, toNat_append_words, Nat.mul_comm, Nat.add_comm]

/-- A store's number is read after its accesses have been noted, in registers that they leave. -/
theorem exec_store {rs : List Reg} {x : Nat} (h : store s i = some (a, off, n, rs, x)) :
    ∃ v, exec i s = s.storeAt i rs a off n v ∧ ∀ l, v (s.noted l) = x := by
  unfold store at h
  split at h <;> cases h
  · exact ⟨_, show execStb _ _ _ s = _ from rfl, fun l => by rw [s.noted_sr l]⟩
  · exact ⟨_, show execSth _ _ _ s = _ from rfl, fun l => by rw [s.noted_sr l]⟩
  · exact ⟨_, show execStw _ _ _ s = _ from rfl, fun l => by rw [s.noted_sr l]⟩
  · exact ⟨_, show execStd _ _ _ s = _ from rfl, fun l => by rw [toNat_pair, s.noted_sr l, s.noted_sr l]⟩
  · exact ⟨_, show execStwCompact _ _ s = _ from rfl, fun l => by rw [s.noted_sr l]⟩

/-- A store of the queue changes the view alone (R118). -/
theorem Tile.queueStore_eq (t : Tile) (e : StoreOp) : t.queueStore e = { t with view := (t.queueStore e).view } := by
  unfold Tile.queueStore Tile.drainOne
  dsimp only
  split
  · split
    · rfl
    · rw [Tile.storeOp_eq]
  · rfl

/-- What the core's loads see after a store enters the queue, whichever store leaves it. -/
theorem Tile.queueStore_coreMem (t : Tile) (e : StoreOp) : (t.queueStore e).view.coreMem = e.apply t.view.coreMem := by
  have hdrain : t.drainOne.view.coreMem = t.view.coreMem := by
    unfold Tile.drainOne View.coreMem
    split
    · rfl
    · rename_i x xs hx
      rw [Tile.storeOp_stores, Tile.storeOp_mem, hx]
      rfl
  have hqueue (u : Tile) : ({ u.view with stores := u.view.stores ++ [e] } : View).coreMem = e.apply u.view.coreMem := by
    rw [View.coreMem, List.foldl_append]; rfl
  unfold Tile.queueStore
  dsimp only
  rw [hqueue]
  split
  · rw [hdrain]
  · rfl

theorem State.storeN_eq (s : State) (a n x : Nat) : s.storeN a n x = { s with tile.view := (s.storeN a n x).tile.view } := by
  unfold State.storeN State.store Tile.coreStore
  rw [Tile.queueStore_eq]

theorem storeN_localByte {u : State} (h : u.tile.view.mem.wf = true) (a n x b : Nat) (hb : ¬ (a ≤ b ∧ b < a + n)) :
    (u.storeN a n x).localByte b = u.localByte b := by
  unfold State.localByte State.storeN State.store Tile.coreStore
  dsimp only
  rw [Tile.queueStore_coreMem, StoreOp.apply, Memory.read_writeBytes _ _ _ (View.wf_coreMem _ h), length_natBytes, if_neg hb]

/-- Noting accesses keeps the canonical form of memory. -/
theorem State.wf_noted (l : List (Nat × Nat × Bool × Bool)) (h : s.tile.view.mem.wf = true) : (s.noted l).tile.view.mem.wf = true := by
  obtain ⟨_, _, _, _, _, _, _, htouch⟩ := Tile.touchAll_eq s.settled.tile l
  have hsettled : s.settled.tile.view.mem.wf = true := by
    unfold State.settled
    split
    · exact h
    · exact Tile.wf_drain _ h
  unfold State.noted State.noteAll
  rw [htouch]
  exact hsettled

/-- A store after its accesses have been noted. -/
theorem State.noted_storeN_eq (s : State) (l : List (Nat × Nat × Bool × Bool)) (a n x : Nat) :
    ∃ v ms, (s.noted l).storeN a n x = { s with tile.view := v, tile.core.maskPages := ms } := by
  obtain ⟨_, ms, h⟩ := State.noted_eq s l
  rw [State.storeN_eq]
  generalize ((s.noted l).storeN a n x).tile.view = w
  rw [h]
  exact ⟨w, ms, rfl⟩

/-- An aligned, granted store that is clear stores its number's bytes at its address. -/
theorem store_next {rs : List Reg} {x : Nat} (h : store s i = some (a, off, n, rs, x)) (hc : s.clear i (a :: rs) = true)
    (hn : (s.sr a + off).toNat % n = 0) (hg : s.grants [((s.sr a + off).toNat, n, true, false)] = true) :
    exec i s = .next (((s.noted [((s.sr a + off).toNat, n, true, false)]).storeN (s.sr a + off).toNat n x).after i.parcels) := by
  obtain ⟨v, hexec, hv⟩ := exec_store h
  have hcur (y : Nat) : ((s.noted [((s.sr a + off).toNat, n, true, false)]).storeN (s.sr a + off).toNat n y).tile.core.cur = s.tile.core.cur := by
    obtain ⟨_, _, hstored⟩ := State.noted_storeN_eq s [((s.sr a + off).toNat, n, true, false)] (s.sr a + off).toNat n y
    rw [hstored]
  rw [hexec]
  refine State.issue_done (how := { reads := a :: rs }) hc nofun rfl nofun ?_ (by rw [hcur]) (by rw [hcur])
  rw [State.need_ok _ _ _ _ (beq_iff_eq.2 hn), State.access_ok _ _ _ hg, hv]

end Memory

end Sys2Proof.Machine
end

section
/-!
Vector operations on registers (R271, R272): each is the shared operation, and the flags that it raises (R343).
-/

namespace Sys2Proof.Machine

open Sys2Proof.Claims

section Vectors

variable {s : State}

theorem popVs_of_not_streaming {vs : List Reg} (h : ∀ r ∈ vs, s.streaming r.toNat = false) : s.popVs vs = some (vs.map s.vr, s) := by
  induction vs with
  | nil => rfl
  | cons r vs ih =>
    rw [State.popVs, State.popV, h r (List.mem_cons_self ..), if_neg nofun]
    dsimp only
    rw [ih fun q hq => h q (List.mem_cons_of_mem _ hq)]
    rfl

/-- An instruction of the vector form (R271), whose function of the elements that it reads is at `s` the one that its table names. -/
def VecAs (s : State) (i : Instr) (d : Reg) (rs vs : List Reg) (f : List VWord → VWord × Flags) : Prop :=
  ∃ g, exec i s = s.vec i rs d vs g ∧ ∀ xs, g s xs = f xs

/-- The forms without scalars, and lane by lane of two sources. -/
theorem vecOp_row {i : Instr} {d : Reg} {vs : List Reg} {f : List VWord → VWord × Flags} (hexec : exec i s = s.vecOp i d vs f) : VecAs s i d [] vs f :=
  ⟨_, hexec, fun _ => rfl⟩

theorem vecF2_row {i : Instr} {d a b : Reg} {f : Fmt} {g : Nat → Nat → Nat × Flags} (hexec : exec i s = s.vecF2 i d a b f g) :
    VecAs s i d [] [a, b] fun xs => lanesF f.width fun j => g (laneN (xs.getD 0 0) f.width j) (laneN (xs.getD 1 0) f.width j) := by
  unfold State.vecF2 at hexec
  exact vecOp_row hexec

theorem vecAs_of_vector {i : Instr} {d : Reg} {rs vs : List Reg} {f : List VWord → VWord × Flags} (h : vector s i = some (d, rs, vs, f)) :
    VecAs s i d rs vs f := by
  unfold vector at h
  split at h <;> cases h
  · exact vecF2_row (show execVaddF _ _ _ _ _ s = _ from rfl)
  · exact vecF2_row (show execVsubF _ _ _ _ _ s = _ from rfl)
  · exact vecF2_row (show execVmulF _ _ _ _ _ s = _ from rfl)
  · exact vecOp_row (show execVfma _ _ _ _ _ _ s = _ from rfl)
  · exact vecF2_row (show execVmin _ _ _ _ s = _ from rfl)
  · exact vecF2_row (show execVmax _ _ _ _ s = _ from rfl)
  · exact vecOp_row (show execVabs _ _ _ s = _ from rfl)
  · exact vecOp_row (show execVneg _ _ _ s = _ from rfl)
  · exact ⟨_, show execVsel _ _ _ _ _ s = _ from rfl, fun _ => rfl⟩
  · exact vecOp_row (show execVshuf _ _ _ _ _ s = _ from rfl)
  · exact vecOp_row (show execVred _ _ _ _ s = _ from rfl)
  · exact vecOp_row (show execVamax _ _ _ _ s = _ from rfl)
  · exact vecOp_row (show execVlut3 _ _ _ _ s = _ from rfl)
  · exact vecOp_row (show execVmov _ _ s = _ from rfl)
  · exact ⟨_, show execVbcast _ _ s = _ from rfl, fun _ => rfl⟩
  · exact ⟨_, show execVins _ _ _ s = _ from rfl, fun _ => rfl⟩

/-- Flags of an instruction set bits of c.tstat, and a trap waits where one is enabled (R343). -/
theorem State.orFlags_eq (s : State) (f : Flags) : ∃ ps, s.orFlags f = { s with tile.core.tstat := s.tile.core.tstat ||| f, tile.stop.pend := ps } ∧
    (s.tile.core.trapen = 0 → ps = s.tile.stop.pend) := by
  have hflags : (f.setWidth 12).setWidth 10 = f := by
    apply BitVec.eq_of_toNat_eq
    simp only [BitVec.toNat_setWidth]
    omega
  have htdz : (f.setWidth 12).getLsbD 10 = false := by simp
  have hmko : (f.setWidth 12).getLsbD 11 = false := by simp
  unfold State.orFlags Tile.setSticky
  dsimp only
  rw [hflags, htdz, hmko, Bool.or_false, Bool.or_false]
  split
  · exact ⟨_, rfl, fun _ => rfl⟩
  · rename_i hfresh
    refine ⟨_, rfl, fun htrap => absurd ?_ hfresh⟩
    rw [htrap]
    exact BitVec.and_zero

/-- A vector operation that is clear, writes no stream and reads none writes v_d and raises its flags. -/
theorem vector_next {i : Instr} {d : Reg} {rs vs : List Reg} {f : List VWord → VWord × Flags} (h : vector s i = some (d, rs, vs, f))
    (hc : s.clear i rs = true) (hd : s.streaming d.toNat = false) (hvs : ∀ r ∈ vs, s.streaming r.toNat = false) :
    exec i s = .next (((s.setV d (f (vs.map s.vr)).1).orFlags (f (vs.map s.vr)).2).after i.parcels) := by
  obtain ⟨g, hexec, hg⟩ := vecAs_of_vector h
  obtain ⟨ps, hflags, -⟩ := (s.setV d (f (vs.map s.vr)).1).orFlags_eq (f (vs.map s.vr)).2
  have hcur : ((s.setV d (f (vs.map s.vr)).1).orFlags (f (vs.map s.vr)).2).tile.core.cur = s.tile.core.cur := by
    rw [hflags]; exact State.setV_core_cur ..
  rw [hexec]
  refine State.issue_done (how := { reads := rs, illegal := s.streamUse [d] }) hc nofun rfl nofun ?_ (by rw [hcur]) (by rw [hcur])
  rw [State.writable_ok _ _ _ hd, State.readVs, popVs_of_not_streaming hvs]
  dsimp only
  rw [hg]

end Vectors

end Sys2Proof.Machine
end

section
/-!
The frames of the scalar, load, store and vector instructions.
-/

namespace Sys2Proof.Machine

open Sys2Proof.Claims

section Frames

variable {s t : State} {i : Instr}

theorem scalar_frame {d : Reg} {rs : List Reg} {x : Word} (hexec : exec i s = .next t) (h : scalar s i = some (d, rs, x)) (hc : s.clear i rs = true) :
    Keeps s t ∧ t.tile.view = s.tile.view ∧ t.tile.core.tstat = s.tile.core.tstat ∧ SameBytes s t 0 0 ∧
      ∀ r, (r ≠ d → t.sr r = s.sr r) ∧ t.vr r = s.vr r ∧ t.kr r = s.kr r := by
  have hnext := writes_of_aluAs aluAs_of_scalar s i d rs x h hc
  cases hexec.symm.trans hnext
  exact ⟨keeps_setBank_after _ _ ⟨_, _, rfl⟩, rfl, s.setS_core_tstat d x, sameBytes_of_localByte (fun _ => rfl) 0 0,
    fun r => ⟨s.setS_sr_ne d r x, s.setS_vr d r x, s.setS_kr d r x⟩⟩

theorem load_frame {a : Reg} {off : Word} {n : Nat} {w : Nat → State → State} (hexec : exec i s = .next t) (h : load i = some (a, off, n, w))
    (hc : s.clear i [a] = true) (hn : (s.sr a + off).toNat % n = 0) (hg : s.grants [((s.sr a + off).toNat, n, false, true)] = true) :
    Keeps s t ∧ t.tile.core.tstat = s.tile.core.tstat ∧ SameBytes s t 0 0 ∧
      ∀ r, (r ∉ loaded i → t.sr r = s.sr r) ∧ t.vr r = s.vr r ∧ t.kr r = s.kr r := by
  have hnext := load_next h hc hn hg
  cases hexec.symm.trans hnext
  obtain ⟨⟨b, hb⟩, hregs⟩ := load_writesOnly h ((s.noted [((s.sr a + off).toNat, n, false, true)]).loadN (s.sr a + off).toNat n)
    (s.noted [((s.sr a + off).toNat, n, false, true)])
  have hnoted := State.noted_eq s [((s.sr a + off).toNat, n, false, true)]
  refine ⟨?_, ?_, sameBytes_of_localByte (fun b => ?_) 0 0, fun r => ?_⟩
  · rw [hb]
    exact keeps_setBank_after b _ hnoted
  · obtain ⟨_, _, hnoted⟩ := hnoted
    rw [hb, State.after_core_tstat, State.setBank, Core.setBank_tstat, hnoted]
  · rw [hb, State.after_localByte, ← s.noted_localByte [((s.sr a + off).toNat, n, false, true)]]
    rfl
  · obtain ⟨hsr, hvr, hkr⟩ := hregs r
    exact ⟨fun hr => (hsr hr).trans (s.noted_sr _ r), hvr.trans (s.noted_vr _ r), hkr.trans (s.noted_kr _ r)⟩

theorem store_frame {a : Reg} {off : Word} {n : Nat} {rs : List Reg} {x : Nat} (hexec : exec i s = .next t) (hwf : s.tile.view.mem.wf = true)
    (h : store s i = some (a, off, n, rs, x)) (hc : s.clear i (a :: rs) = true) (hn : (s.sr a + off).toNat % n = 0)
    (hg : s.grants [((s.sr a + off).toNat, n, true, false)] = true) :
    Keeps s t ∧ t.bank = s.bank ∧ t.tile.core.tstat = s.tile.core.tstat ∧ SameBytes s t (s.sr a + off).toNat n := by
  have hnext := store_next h hc hn hg
  cases hexec.symm.trans hnext
  have hkept := State.noted_storeN_eq s [((s.sr a + off).toNat, n, true, false)] (s.sr a + off).toNat n x
  have ⟨_, _, hstored⟩ := hkept
  refine ⟨keeps_after _ hkept, ?_, ?_, fun b hb => ?_⟩
  · rw [State.after_bank, hstored]; rfl
  · rw [State.after_core_tstat, hstored]
  · rw [State.after_localByte, storeN_localByte (State.wf_noted _ hwf) _ _ _ _ hb, State.noted_localByte]

theorem vector_frame {d : Reg} {rs vs : List Reg} {f : List VWord → VWord × Flags} (hexec : exec i s = .next t)
    (h : vector s i = some (d, rs, vs, f)) (hc : s.clear i rs = true) (hd : s.streaming d.toNat = false)
    (hvs : ∀ r ∈ vs, s.streaming r.toNat = false) :
    Keeps { s with tile.stop.pend := t.tile.stop.pend } t ∧ (s.tile.core.trapen = 0 → t.tile.stop.pend = s.tile.stop.pend) ∧
      t.tile.view = s.tile.view ∧ SameBytes s t 0 0 ∧ t.tile.core.tstat ||| s.tile.core.tstat = t.tile.core.tstat ∧
      ∀ r, (r.toNat % 16 ≠ d.toNat % 16 → t.vr r = s.vr r) ∧ t.sr r = s.sr r ∧ t.kr r = s.kr r := by
  have hnext := vector_next h hc hd hvs
  cases hexec.symm.trans hnext
  obtain ⟨ps, hflags, htrap⟩ := (s.setV d (f (vs.map s.vr)).1).orFlags_eq (f (vs.map s.vr)).2
  generalize f (vs.map s.vr) = y at hflags htrap ⊢
  rw [hflags]
  refine ⟨?_, ?_, rfl, sameBytes_of_localByte (fun _ => rfl) 0 0, ?_, fun r => ⟨s.setV_vr_ne d r y.1, s.setV_sr d r y.1, s.setV_kr d r y.1⟩⟩
  · obtain ⟨nb, sb, hb, hn, hs⟩ := s.setBank_eq (s.bank.setV d y.1)
    rw [State.setV, hb]
    exact keeps_of_eq rfl hn hs
  · rwa [State.setV_core_trapen] at htrap
  · change (s.setV d y.1).tile.core.tstat ||| y.2 ||| s.tile.core.tstat = (s.setV d y.1).tile.core.tstat ||| y.2
    rw [State.setV_core_tstat, BitVec.or_assoc, BitVec.or_comm y.2, ← BitVec.or_assoc, BitVec.or_self]

end Frames

/-- Settles O59, family by family: what each instruction answers, and what that state shares with the one before. -/
theorem frames : Obligations.Frames := by
  intro s t i hexec hwf
  exact ⟨fun _ _ _ => scalar_frame hexec, fun _ _ _ _ => load_frame hexec, fun _ _ _ _ _ => store_frame hexec hwf,
    fun _ _ _ _ => vector_frame hexec⟩

end Sys2Proof.Machine
end
